-- ==== Sys2Proof/Word.lean ====
section
/-! DEFINITION. The word types of the block and the plain helpers on them: little-endian bytes (R9),
saturating counts, rounding to alignment. -/

namespace Sys2Proof

/-- One byte. -/
abbrev Byte := BitVec 8
/-- A 32-bit register word. -/
abbrev W32 := BitVec 32
/-- A 64-bit word: a virtual address, a fence word, a page-table entry. -/
abbrev W64 := BitVec 64
/-- A string of bytes, lowest address first. -/
abbrev Bytes := List Byte
/-- A 128-byte descriptor as one little-endian number: byte k is bits [8k+7:8k] (R9, R148). -/
abbrev Desc := BitVec 1024

/-- `n` bytes of the number `v`, least significant first (R9). -/
def leBytes : Nat → Nat → Bytes
  | 0, _ => []
  | n + 1, v => BitVec.ofNat 8 v :: leBytes n (v / 256)

/-- The number that little-endian bytes stand for (R9). -/
def leNat : Bytes → Nat
  | [] => 0
  | b :: bs => b.toNat + 256 * leNat bs

/-- The field of `w` bytes at byte offset `o` of a byte string, little-endian (R9). -/
def fieldAt (bs : Bytes) (o w : Nat) : Nat := leNat ((bs.drop o).take w)

/-- Add with saturation at `2^w - 1`. -/
def satAdd (w a b : Nat) : Nat := min (a + b) (2 ^ w - 1)

/-- Bits [hi:lo] of a number. -/
def bitsOf (v hi lo : Nat) : Nat := v / 2 ^ lo % 2 ^ (hi + 1 - lo)

/-- Bit `i` of a number. -/
def bitOf (v i : Nat) : Bool := v.testBit i

/-- `v` with bits [lo+w-1:lo] replaced by `x`. -/
def putBits (v : W32) (lo w x : Nat) : W32 :=
  let m : W32 := BitVec.ofNat 32 ((2 ^ w - 1) * 2 ^ lo)
  (v &&& ~~~m) ||| (BitVec.ofNat 32 (x * 2 ^ lo) &&& m)

/-- Bits [lo+w-1:lo] of a register word. -/
def getBits (v : W32) (lo w : Nat) : Nat := v.toNat / 2 ^ lo % 2 ^ w

/-- A `Bool` as the number that a one-bit field holds. -/
def b2n (b : Bool) : Nat := if b then 1 else 0

end Sys2Proof
end

