-- ==== Sys2Proof/Syntax.lean ====
section
/-! DEFINITION. The commands the block takes: one constructor of `Instr` for each row of the operation table, with
the operands that the spec gives the operation or event. An operand that only the surroundings can know (a measured
bit-error count, a host's answer, the bytes of a packet or of a fetched descriptor) is an operand of its command. -/

namespace Sys2Proof

/-- What one lane's checker counted in a measurement (R482, R485). -/
structure LaneMeas where
  bits : Nat
  errors : Nat
  locked : Bool
deriving DecidableEq, Repr

/-- What training or measuring a port found: the orientation learned (R364), the lanes of a host port in the order of
the lane records (module by module, 64 data lanes then 4 spares) or the 8 lanes of a cantle port, and the uncorrectable
codewords of a cantle (R482). -/
structure PortMeas where
  rotated : Bool
  lanes : List LaneMeas
  uncorrectable : Nat
deriving DecidableEq, Repr

/-- What a retrain of a host-link port ends with: the modules that came back and the spares now in use per module
(R368). No module is DOWN. -/
structure PortTrain where
  rotated : Bool
  modules : Nat
  spares : List Nat
deriving DecidableEq, Repr

/-- What self-test finds (R474): the units that fail, and the stirrups whose tile answers. -/
structure SelfTest where
  fusesReadable : Bool
  blockPartsOk : Bool
  badStations : List Nat
  badCores : List (Nat × Nat)
  tilesAnswering : List Nat
  badGuards : List Nat
  badSkiving : List Nat
deriving DecidableEq, Repr

/-- A requester of the object dictionary (R91). -/
inductive Requester where
  | op (slot : Nat)
  | part (p slot : Nat)
  | mgmt
deriving DecidableEq, Repr

/-- A Latigo frame as it stands on the ring (R96). `crc` is the two bytes that travel at its end. -/
structure Frame where
  type : Nat
  accepted : Bool
  corrupt : Bool
  nack : Bool
  dst : Nat
  src : Nat
  tag : Nat
  index : Nat
  sub : Nat
  offset : Nat
  status : Nat
  state : Nat
  payload : Bytes
  crc : BitVec 16
deriving DecidableEq, Repr

/-- A HEARTBEAT frame back at the gateway, with the guards that the heartbeat reports of the skirts declare lost, which the frame does
not carry (R434, log entry 91). -/
structure HeartbeatBack where
  frame : Frame
  guards : List Nat
deriving DecidableEq, Repr

/-- How an access issued to a guard's stack, a host-link port or a node ends there, so far as the surroundings decide it:
done, data poisoned by the far side, no answer within the bound, or the path lost. `residue` is a good answer whose data
meets a residue mismatch in the skiving unit (R306). -/
inductive Ack where
  | ok
  | poisoned
  | timeout
  | lost
  | residue
deriving DecidableEq, Repr

/-- A host Translation Completion (R169, R350): the translated base page with the size of the answer in 4 KiB pages,
an answer with no permission or untranslated access only, or an abort. -/
inductive HostAnswer where
  | translated (hpaPage : Nat) (log2Pages : Nat) (writable : Bool)
  | noPermission
  | abort
deriving DecidableEq, Repr

/-- The host's page request response codes (R218). -/
inductive PrgCode where
  | success
  | invalid
  | failure
deriving DecidableEq, Repr

/-- The route of an awl request (R523): stream 4 of a pommel, with the message's tag, or the management endpoint. -/
inductive AwlRoute where
  | side (pm tag : Nat)
  | mgmt
deriving DecidableEq, Repr

/-- How the frame of a received packet came through the MAC and the FEC (R372). -/
inductive FrameErr where
  | good
  | badFcs
  | uncorrected
deriving DecidableEq, Repr

/-- An Ixcia packet after its frame was received (R378). `sealOk` is whether the CRC-32C, or the AES-256-GCM tag under
one of the keys received under (R461), checks; `ecn` is the switch's congestion mark; `frame` and `fixed` say how its frame came, and
how many codewords the FEC corrected in it (R372). -/
structure Packet where
  version : Nat
  secure : Bool
  fenced : Bool
  retx : Bool
  ecnEcho : Bool
  srcNode : Nat
  dstNode : Nat
  psn : W32
  ackPsn : W32
  addr : W64
  tag : W32
  partition : Nat
  status : Nat
  incarnation : BitVec 16
  lineMap : W64
  payload : Bytes
  sealOk : Bool
  ecn : Bool
  frame : FrameErr := .good
  fixed : Nat := 0
deriving DecidableEq, Repr

/-- The position of an RDMA WRITE or SEND packet in its message (R393). -/
inductive RocePos where
  | first
  | middle
  | last
  | only
deriving DecidableEq, Repr

/-- A RoCEv2 request packet (R393, R395) on the port of cantle `cn`, sent to the IP address `ip`, in the bytes in which the port's
dictionary entry would hold it. `frame` and `fixed` are as for an Ixcia packet. -/
structure RocePkt where
  cn : Nat
  ip : Bytes
  frame : FrameErr := .good
  fixed : Nat := 0
  qp : Nat
  psn : Nat
  pos : RocePos
  rkey : W32
  va : W64
  len : Nat
  payload : Bytes
  icrcOk : Bool
  supported : Bool
  ecn : Bool
deriving DecidableEq, Repr

/-- An IDE_KM message (R353): program a key, set a stream going, or stop it, for one port and one of its two streams
(`cache` is CXL.cache, else CXL.io). -/
inductive IdeKm where
  | keyProg (pm : Nat) (cache : Bool)
  | keySetGo (pm : Nat) (cache : Bool)
  | keySetStop (pm : Nat) (cache : Bool)
  | query (pm : Nat) (cache : Bool)
deriving DecidableEq, Repr

/-- A word of protected storage and what it holds (R413, R414). -/
inductive StoreWord where
  | lineBuffer (access : Nat)
  | tileTlb (stirrup slot : Nat)
  | sharedTlb (skirt slot : Nat)
  | upperCache (skirt slot : Nat)
  | ownerLine (guard line : Nat)
  | windowLine (pommel : Nat) (line : Nat)
  | ctxRecord (ctx : Nat)
  | queueRecord (queue : Nat)
  | faultEntry (pommel entry : Nat)
  | migration (pommel : Nat) (vaPage : Nat)
  | conduit (node : Nat)
  | lease (kind resource : Nat)
  | skivingBuffer (station channel line : Nat)
  | other (station : Nat)
deriving DecidableEq, Repr

/-- Where an upset strikes (R413, R65): flipped bits in a protected word, or one bit of one copy of a register word that
holds a triplicated field. -/
inductive Upset where
  | word (w : StoreWord) (bits : Nat)
  | copy (off : Nat) (copy : Nat) (bit : Nat)
deriving DecidableEq, Repr

/-- The commands. The constructors stand in the order of the operation table. -/
inductive Instr where
  /-- R469: release of the fundamental reset with the strap pins and the boot port's measurement. -/
  | fundamentalReset (pins : Byte) (boot : PortMeas)
  /-- R513: the accelerator-die rails are removed. -/
  | powerRemoved
  /-- R345 to R347: a hot reset or link disable on the boot pommel's link, with the retrain it ends in. -/
  | hotReset (t : PortTrain)
  /-- R345: the same on another pommel's link. -/
  | hotResetNonBoot (pm : Nat) (t : PortTrain)
  /-- R345: function-level reset of PF0. -/
  | flrPf0
  /-- R349: function-level reset of VF `k`, 1 to 64. -/
  | flrVf (k : Nat)
  /-- R344: function `fn` (0 PF0, k VF k) moves to D3hot or back to D0. -/
  | powerStateChange (fn : Nat) (d3 : Bool)
  /-- R55: a sensor reads `temp`; `blown` is whether the fuse program completed before the rail collapsed. -/
  | thermalTrip (st : Nat) (temp : Int) (blown : Bool)
  /-- R493: station `st` reads its rail at `mv`. -/
  | railOverDetect (st mv : Nat)
  /-- R470 step 1: the three other ports (station index 80 to 83 as pommel 0 to 3) train. -/
  | trainHostPorts (ts : List (Nat × PortTrain))
  /-- R470 step 2. -/
  | readIdentityFuses (readable : Bool)
  /-- R474: bring-up step 3. -/
  | floorPlanSelfTest (r : SelfTest)
  /-- R101, R474: bring-up step 4, the stations whose bit the heartbeat carried, or a ring that returned nothing. -/
  | latigoEnumeration (marked : List Nat) (returned : Bool)
  /-- R476: bring-up step 5. -/
  | firmwareLoad
  /-- R477: core `c` of station `st` returns the digest of what it loaded. -/
  | coreDigestAck (st c : Nat) (digest : BitVec 384)
  /-- R479: bring-up step 6. -/
  | startStreamsAndPmd
  | pcsAligned (cn : Nat)
  | pcsAlignTimeout (cn : Nat)
  /-- R480: bring-up step 7 starts. -/
  | stackTraining
  /-- R480: the result of each stack: 0 not enabled, 1 pass, 2 fail, 3 no answer. -/
  | stackTrainResult (rs : List Nat)
  /-- R482: bring-up step 8 starts with the first host dwell. -/
  | girthGate
  /-- R483: the dwell of link `k` (0 to 3 host ports, 4 to 19 cantles) ends. -/
  | girthDwellEnd (k : Nat) (m : PortMeas)
  /-- R487: bring-up step 9. -/
  | stationEnable (bootEnabled : Bool)
  | setReady
  /-- R63: a host write of `size` bytes at offset `off` of BAR `bar` of function `fn` (0 PF0, k VF k). -/
  | registerWrite (fn bar off size : Nat) (v : W64) (poisoned : Bool)
  /-- R67: a write at BAR0 offset `off` in the bit region. -/
  | bitAliasWrite (off size : Nat) (v : W64)
  /-- R66: the scrubber visits the triplicated fields of the register word at BAR0 offset `off`. -/
  | tvScrubVisit (off : Nat)
  | snapshotRequest
  | snapshotPublish
  /-- R83: a READ submitted by a requester. -/
  | dictRead (r : Requester) (index sub offset : Nat) (irq : Bool)
  /-- R83: a WRITE with its data; `last` is ODM_CMD.LAST. -/
  | dictWrite (r : Requester) (index sub offset : Nat) (data : Bytes) (last irq : Bool)
  /-- R80: an INFO request. -/
  | dictInfo (r : Requester) (index sub : Nat) (irq : Bool)
  | gatewayServe
  | domainImageDiscard (r : Requester)
  /-- R98: a READ frame reaches its node; `free` is whether the node has a buffer free. -/
  | latigoRead (f : Frame) (free : Bool)
  | latigoWrite (f : Frame) (free : Bool)
  | latigoFrameReturn (f : Frame)
  | latigoReply (f : Frame)
  | latigoResendTimeout (tag : Nat)
  /-- R97: an EMPTY frame passes the node of station `st`. -/
  | latigoEmpty (st : Nat) (f : Frame)
  | latigoEvent (f : Frame)
  | latigoEventAck (st : Nat) (f : Frame)
  | eventResendTimer (st : Nat)
  /-- R100: a BROADCAST frame passes the node of station `st`. -/
  | latigoBroadcast (st : Nat) (f : Frame)
  | latigoHeartbeatTimer
  | latigoHeartbeat (st : Nat) (f : Frame)
  | heartbeatReturn (h : HeartbeatBack)
  | skipHopSwitch (st : Nat)
  | ringBroken
  | setEndpointId (eid : Nat)
  | getEndpointId
  | getMctpVersionSupport (msgType : Nat)
  | getMessageTypeSupport
  | getVendorDefinedMsgSupport (selector : Nat)
  | entdaa (addr : Nat)
  | hostEpochWrite
  | ledgerRestore
  | ledgerExport
  /-- R52: station `st` reads `temp` degrees. -/
  | tempSample (st : Nat) (temp : Int)
  | hourStep
  | snapshot
  | resetCore
  | resetStation
  | resetPartition
  | resetBlock
  /-- R431: the scope of the running reset is drained; `selfCheckOk` is the self-check or digest verdict of R430. -/
  | resetDrainDone (selfCheckOk : Bool)
  | drainBoundExpiry
  | rollStart
  | rollStationQuiesced (st : Nat)
  | rollQuiesceTimeout (st : Nat)
  | bootFrameSet
  /-- R488: the RETRAIN of a host port: the start of its measurement, and again its end, with what was measured. -/
  | retrainHostPort (m : PortMeas)
  /-- R488: the same for a cantle port. -/
  | retrainCantlePort (m : PortMeas)
  | retrainStack
  | q0EnableBuild
  | q0Disable
  | keysRetire
  | reportSign
  /-- R141: a write to the slot of queue `q` by function `fn` on pommel `pm`, delivering a tail, a head, or both. -/
  | doorbell (fn pm q : Nat) (tail head : Option W32)
  /-- R142: the next doorbell forwarded to pommel `pm` arrives. -/
  | doorbellForward (pm : Nat)
  | snoopDoorbell (q : Nat)
  | tailLineReread (q : Nat) (tail head : W32)
  | queueRecordLoad (q : Nat)
  | ctxRecordLoad (c : Nat)
  /-- R150: the program of queue `q` as fetched, from PROG_START to its END. -/
  | programCheck (q : Nat) (ds : List Desc)
  /-- R156: the descriptor `d` at NEXT of queue `q`. -/
  | queueCreate (q : Nat) (d : Desc)
  /-- R137: `tail` and `head` are what the tail line holds when it is read. -/
  | queueStart (q : Nat) (d : Desc) (tail head : W32)
  | queueStop (q : Nat) (d : Desc)
  /-- R137: queue `target` has no descriptor in flight. -/
  | queueStopped (target : Nat)
  | queueDestroy (q : Nat) (d : Desc)
  /-- R269: `d` at NEXT of queue `q` goes to channel `ch` of station `st`. -/
  | copy (q : Nat) (d : Desc) (st ch : Nat)
  | accumSum (q : Nat) (d : Desc) (st ch : Nat)
  | accumMax (q : Nat) (d : Desc) (st ch : Nat)
  | accumMin (q : Nat) (d : Desc) (st ch : Nat)
  | cksumAppend (q : Nat) (d : Desc) (st ch : Nat)
  | cksumVerify (q : Nat) (d : Desc) (st ch : Nat)
  | vbufSlotGranted (st ch : Nat)
  | fill (q : Nat) (d : Desc) (st ch : Nat)
  | gatherReduce (q : Nat) (d : Desc) (st ch : Nat)
  | wait (q : Nat) (d : Desc)
  | waitWake (q : Nat)
  | waitPoll (q : Nat)
  | waitTimeout (q : Nat)
  | signal (q : Nat) (d : Desc)
  | branch (q : Nat) (d : Desc)
  | loop (q : Nat) (d : Desc)
  | reduce (q : Nat) (d : Desc)
  | stamp (q : Nat) (d : Desc)
  /-- R267: access `a` of a channel completes. -/
  | dmaAccessDone (a : Nat) (r : Ack)
  /-- R275: read-back `path` (position in the channel's list of write paths) returns. -/
  | dmaReadbackDone (st ch path : Nat) (r : Ack)
  | dmaEnable (st : Nat)
  | dmaDisable (st : Nat)
  | dmaQuiesced (st : Nat)
  | handshakeTimeout (st ch : Nat)
  | frameSet (q : Nat) (d : Desc)
  | frameReclaim (q : Nat) (d : Desc)
  /-- R116: the guard drain of the reclaim at ring index `ri` of queue `q` ends. -/
  | reclaimDrainDone (q : Nat) (ri : W32)
  | reclaimScrubDone (q : Nat) (ri : W32)
  /-- R118: `r` is how the read of the entries from host memory ends. -/
  | pteWrite (q : Nat) (d : Desc) (r : Ack)
  | ctxCreate (q : Nat) (d : Desc)
  | ctxRegions (q : Nat) (d : Desc)
  | ctxShare (q : Nat) (d : Desc)
  | ctxRevoke (q : Nat) (d : Desc)
  | ctxRevoked (c : Nat)
  | ctxDestroy (q : Nat) (d : Desc)
  | fenceAbandon (q : Nat) (d : Desc)
  | refAck (q : Nat) (d : Desc)
  | ctxQuery (q : Nat) (d : Desc)
  | tileLoad (st : Nat) (tag ctx : Nat) (va : W64) (len : Nat)
  | tileStore (st : Nat) (tag ctx : Nat) (va : W64) (data : Bytes)
  | tileFenceAtomic (st : Nat) (tag ctx : Nat) (va : W64) (v : W64)
  /-- R163: the table read of walk `w` returns. -/
  | walkTableReadDone (w : Nat)
  /-- R169: the host answers the translation request of walk `w`. -/
  | hostTranslationAnswer (w : Nat) (ans : HostAnswer)
  | atsRequestTimeout (w : Nat)
  /-- R195: descriptor `d` at ring index `ri` of queue `q` is stamped into sidecar slot `slot`. -/
  | stampService (q : Nat) (ri : W32) (d : Desc) (slot : Nat)
  | stampReady (skirt slot : Nat)
  /-- R203: a GO (with its IRQ bit) to invalidation slot `slot` of pommel `pm`. -/
  | tlbInvalidate (pm slot : Nat) (irq : Bool)
  | invalidationComplete (k : Nat)
  | atsInvalidateRequest (fn : Nat) (pasid : Option Nat) (va : W64) (pages : Nat) (global : Bool)
  /-- R176: access `a` reaches its guard; `uncorrectable` is a line the stack controller could not correct (R180). -/
  | guardRequest (a : Nat) (uncorrectable : Bool)
  | guardCommit (a : Nat)
  | guardAbort (a : Nat)
  /-- R229: the check results of the straddling store in entry `e` of stirrup `st` return. -/
  | straddleCheckResult (st e : Nat)
  | prgResponse (index pasid : Nat) (code : PrgCode)
  | retry (pm slot : Nat) (irq : Bool)
  | fail (pm slot : Nat) (irq : Bool)
  | failAll (pm slot : Nat) (irq : Bool)
  | resume (pm slot : Nat) (irq : Bool)
  | faultResponseTimeout (pm entry : Nat)
  | faultRingHead (c : Nat) (head : W32)
  | faultStall (a : Nat)
  | priControlReset
  | priDisable
  | give (pm slot : Nat) (irq : Bool)
  | take (pm slot : Nat) (irq : Bool)
  | flush (pm slot : Nat) (irq : Bool)
  | evict (pm slot : Nat) (irq : Bool)
  | drop (pm slot : Nat) (irq : Bool)
  | setAttr (pm slot : Nat) (irq : Bool)
  /-- R247: a sample of an access to page `vaPage` of context `c`, with its host-path latency in ticks when it took one. -/
  | resSample (c vaPage : Nat) (hostTicks : Option Nat)
  | resIntervalEnd (pm : Nat)
  /-- R252: the read-back of the copy of migration `i` of pommel `pm` returns. -/
  | promotionCopyDone (pm e : Nat)
  | evictionWritebackDone (pm e : Nat) (r : Ack)
  /-- R315: a host snoop at pommel `pm` of the line at host-physical `line`; `store` holds the bytes the host stores
  there when the snoop serves a store (offset in the line, bytes). -/
  | hostSnoop (pm line : Nat) (inval : Bool) (store : Option (Nat × Bytes))
  /-- R327: a configuration request on stream 0 of pommel `pm` to function `fn`, a write when `w` is given. -/
  | configRequest (pm fn off : Nat) (w : Option W32)
  | bklClaim (fn t : Nat)
  | bklDone (fn t src : Nat)
  | bklSet (fn src : Nat)
  | bklTgtCtrlWrite (fn t : Nat) (v : W32)
  | bklTsetWrite (m w : Nat) (v : W32)
  | bklSrcWrite (fn n : Nat) (v : W32)
  | levelSnapshotTimer (die : Nat)
  | windowOpen (w : Nat)
  | windowClose (w : Nat)
  /-- R334: an access at BAR4 offset `off`; a write when `w` is given, with what the target answers to a read. -/
  | windowAccess (off size : Nat) (w : Option W32) (answer : W32)
  | windowTargetTimeout (w : Nat)
  | l1Entry (pm : Nat)
  | l1Exit (pm : Nat)
  | ideIntegrityFail (pm : Nat) (cache : Bool)
  | ideKm (sid : Nat) (m : IdeKm)
  | lockInterface (vf : Nat)
  | startInterface (vf : Nat)
  | stopInterface (vf : Nat)
  | getVersion
  | getCapabilities
  | negotiateAlgorithms (version : Nat) (supported : Bool)
  | getDigests
  | getCertificate (slot offset len : Nat)
  | challenge (slot : Nat) (nonce : BitVec 256)
  | getMeasurements (block : Nat) (nonce : BitVec 256)
  | keyExchange (share : BitVec 768)
  | finish (sid : Nat) (macOk : Bool)
  | spdmHeartbeat (sid : Nat)
  | keyUpdate (sid : Nat)
  | endSession (sid : Nat)
  | bind (sid p : Nat)
  | getReport (sid : Nat) (nonce : BitVec 256)
  | peerShareGet (sid node remotePart : Nat)
  | peerShareSet (sid slot gen : Nat) (share : BitVec 768)
  | peerKeyCommit (sid slot gen : Nat)
  | peerKeyRetire (sid slot gen : Nat)
  | flitCrcFail (pm : Nat)
  /-- R367: a replayed flit arrives at pommel `pm`; `diffs` are the (module, lane) of its differing bits. -/
  | flitReplayReceived (pm : Nat) (diffs : List (Nat × Nat)) (good : Bool)
  | retrainDone (pm : Nat) (t : PortTrain)
  | linkDownEvent (pm : Nat)
  /-- R504: a HEARTBEAT on stream 5 of pommel `pm`, with its PARAM (R361). -/
  | hostHeartbeat (pm : Nat) (seq : BitVec 16)
  | pommelHeartbeat (pm : Nat)
  /-- R379: access `a` to a peer-backed address is sent. -/
  | ixciaSend (a : Nat)
  | write (cn : Nat) (p : Packet)
  | readReq (cn : Nat) (p : Packet)
  | readRsp (cn : Nat) (p : Packet)
  | atomic (cn : Nat) (p : Packet)
  | nak (cn : Nat) (p : Packet)
  | ack (cn : Nat) (p : Packet)
  | probe (cn : Nat) (p : Packet)
  | probeRsp (cn : Nat) (p : Packet)
  | probeTimeout (node : Nat)
  | fencedExecute (node : Nat) (psn : W32)
  | ixciaRto (node : Nat) (psn : W32)
  | ackTimer (node : Nat)
  | ixcRemoteTimeout (a : Nat)
  | portDown (cn : Nat) (remote : Bool)
  | pathExclusionEnd (node lport rport : Nat)
  | winSet (cn : Nat) (irq : Bool)
  | winClear (cn : Nat) (irq : Bool)
  | winClearDone (cn : Nat)
  | qpSet (cn : Nat) (irq : Bool)
  | qpClear (cn : Nat) (irq : Bool)
  | rdmaWrite (p : RocePkt)
  | rdmaReadRequest (p : RocePkt)
  | send (p : RocePkt)
  | storageScrubVisit (w : StoreWord)
  | errqHeadWrite (v : W32)
  /-- R424: a renewal of the lease of `kind` on `res` reaches its supervisor. -/
  | leaseRenew (kind res : Nat)
  /-- R425: supervisor `k` (0 to 3 the skirts, 4 the block) scans its table. -/
  | leaseScan (k : Nat)
  | leaseSelfCheckDone (kind res : Nat) (ok : Bool)
  | hbRenew (seq : W32)
  | hbExpired
  | orphanDrained
  /-- R509: a write of `size` bytes. -/
  | tenureTokenWrite (size : Nat) (v : W64)
  | reattach (size : Nat) (v : W64)
  | ctxRest
  | restDrainDone (c : Nat)
  | restHoldExpiry (c : Nat)
  | restImageWritten (c : Nat) (r : Ack)
  | ctxResume
  | rateShareWindow (st : Nat)
  /-- R519: station `st` estimates its power at `mw`, with its sensor and rail readings. -/
  | powerEstimate (st mw : Nat) (temp : Int) (mv : Nat)
  | traceRateWindow (st : Nat)
  | traceHeadWrite (v : W32)
  | attach (r : AwlRoute)
  | detach (r : AwlRoute)
  | halt (r : AwlRoute) (st core : Nat)
  | awlResume (r : AwlRoute) (st core : Nat)
  | step (r : AwlRoute) (st core : Nat)
  | awlRead (r : AwlRoute) (st core : Nat) (addr : W32)
  | awlWrite (r : AwlRoute) (st core : Nat) (addr data : W32)
  | awlIdleDetach
  | powerApplied
  | fundamentalResetAssert
  | portUp (cn : Nat)
  /-- R321: the answer to tile access `a` returns. -/
  | tileAccessComplete (a : Nat) (r : Ack)
  | priorityFlowControl (cn : Nat) (mask : Byte) (pause : Bool)
  | storageUpset (u : Upset)
  | strapChange (pins : Byte)
  | interfaceReport (vf : Nat)
  | railOverEnd (st mv : Nat)
  | sizeFaultRead (fn bar off size : Nat)
deriving DecidableEq, Repr

end Sys2Proof
end

