-- ==== Sys2Proof/Decode.lean ====
section
/-! DEFINITION. The commands that a word spells. The operation table gives no row any bits: the block's commands are
register accesses, messages and events, and no word encodes them. -/

namespace Sys2Proof

/-- The command that the low `nbits` bits of `w` spell by the operation table's bits: none, since no row has bits. -/
def decodeTableWord (_nbits _w : Nat) : Option Instr := none

end Sys2Proof
end

