-- ==== Sys2Proof/Config.lean ====
section
/-! DEFINITION. What the spec leaves to the implementation, as constants without a body: cryptography, and the free
values that instructions leave undefined (log entry 56). No proof can see what they are. -/

namespace Sys2Proof

/-- SHA-384 of a byte string (R456, R475, R477). -/
opaque Config.sha384 : Bytes → BitVec 384

/-- The digest of the boot ROM (R458). -/
opaque Config.bootRomDigest : BitVec 384

/-- The bytes of an SPDM message in the DMTF's form, by its code and the fields that the model gives it (R456). -/
opaque Config.spdmBytes : Nat → Bytes → Bytes

/-- Whether the ECDSA P-384 signature `sig` over `msg` verifies against Onoskand's fused public key (R476). -/
opaque Config.verifyOnoskand : Bytes → Bytes → Bool

/-- The private attestation key, ECDSA P-384, derived from the fused device secret and the SHA-384 of the boot ROM and firmware
(R456). -/
opaque Config.attestKey : BitVec 384 → BitVec 384 → BitVec 384

/-- The ECDSA P-384 signature r‖s under a private key over a byte string, 96 bytes as a number (R456, R458). -/
opaque Config.signEcdsa : BitVec 384 → Bytes → BitVec 768

/-- The block's ephemeral ECDH P-384 share for key slot `slot` and generation `gen` (R460), or, as `slot` 512 and
above, of SPDM session `slot - 512` (R456). -/
opaque Config.ecdhShare : Nat → Nat → BitVec 768

/-- The ECDH P-384 secret Z of the private share that key slot `slot` drew as number `gen` and a remote share (R460). -/
opaque Config.ecdhSecret : Nat → Nat → BitVec 768 → BitVec 384

/-- HKDF-SHA-384 of a secret with a salt and an info string, 32 bytes as a number (R460). -/
opaque Config.hkdf : BitVec 384 → Bytes → Bytes → BitVec 256

/-- AES-256-GCM under a key: from the nonce, the additional authenticated data and the plaintext, the ciphertext followed by the
16-byte tag (R385). -/
opaque Config.gcm : BitVec 256 → Bytes → Bytes → Bytes → Bytes

/-- A random number of `n` bytes drawn at sequence number `k`, as SPDM nonces and INCARNATION need. -/
opaque Config.random : Nat → Nat → Bytes

/-- A free value of 64 bits, the one drawn at sequence number `k` of `State.freeSeq`. -/
opaque Config.free64 : Nat → BitVec 64

/-- Whether the oscillator of a station counts one tick more than the slowest (R43), at sequence number `k`, by station. -/
opaque Config.oscillator : Nat → Nat → Bool

/-- Which way of `n` a cache replaces, drawn at sequence number `k`; used modulo `n`. -/
opaque Config.victim : Nat → Nat

/-- The set of a translation cache of `2^k` sets that a context and a block fall in (R184); used modulo the number of
sets. -/
opaque Config.tlbHash : Nat → Nat → Nat

/-- The set of the upper-level cache that the entry of a context, level and span falls in (R184); used modulo the number of sets. -/
opaque Config.ulcHash : Nat → Nat → Nat → Nat

/-- The set of a coherent window cache that a line falls in (R313); used modulo the number of sets. -/
opaque Config.cwHash : Nat → Nat

/-- The order in which the terms of an accumulation arrive (R295): the position, modulo the number of terms left, of the
term taken `i`-th in the accumulation numbered `k`. -/
opaque Config.arrival : Nat → Nat → Nat

/-- The resource number of R421 under which an implementation names the resource of a lease: by lease kind and resource. -/
opaque Config.resourceNumber : Nat → Nat → BitVec 16

/-- The structure kind of R421 that an implementation gives a protected structure, by the model's number for it. -/
opaque Config.structureKind : Nat → BitVec 8

/-- The read-only contents of the configuration space of a function, by function and offset, where the spec gives none: the
licensee's identities and what the part's capabilities advertise (R328, R335). -/
opaque Config.cfgWord : Nat → Nat → BitVec 32

end Sys2Proof
end

