-- ==== Sys2Proof/Machine/RegMap.lean ====
section
/-! DEFINITION. The register map of operator BAR0: where the station pages lie, and for each register word the fields
that software can write, are triplicated, or do not reset to zero (R57, R61, R62 and the register tables of each
chapter). A word with no listed field is read-only with reset value zero, or reserved (R60). -/

namespace Sys2Proof.Machine

/-- The access codes of R13. -/
inductive Acc where
  | ro
  | rw
  | rwd
  | w1c
  | wo
deriving DecidableEq, Repr

/-- A field of a register word: its lowest bit and width, access code, whether it is triplicated, reset value, and the
range outside which a written value is a value fault (R529). `flags` says that each bit has a meaning of its own (R67). -/
structure Fld where
  lo : Nat
  w : Nat
  acc : Acc
  tv : Bool := false
  rst : Nat := 0
  lim : Option (Nat × Nat) := none
  flags : Bool := false
deriving DecidableEq, Repr

/-- The kinds of station (R17, R21). -/
inductive Kind where
  | stirrup
  | pommel
  | cantle
deriving DecidableEq, Repr

/-- The kind of station index `n` (R17). -/
def kindOf (n : Nat) : Kind := if n < 80 then .stirrup else if n < 84 then .pommel else .cantle

/-- The code of a kind in STN_IDENT.KIND (R21). -/
def kindCode : Kind → Nat
  | .stirrup => 0
  | .pommel => 1
  | .cantle => 2

/-- The skirt of station index `n` (R17). -/
def skirtOf (n : Nat) : Nat := if n < 80 then n / 20 else if n < 84 then n - 80 else (n - 84) / 4

/-- The BAR0 offset of the page of station `n` (R17). -/
def pageOf (n : Nat) : Nat := 0x100000 + n * 0x10000

/-- The BAR0 offset of register `off` in the page of pommel `k`. -/
def pmReg (k off : Nat) : Nat := pageOf (80 + k) + off

/-- The BAR0 offset of register `off` in the record of guard `g` (R182). -/
def grdReg (g off : Nat) : Nat := pmReg (g / 32) (0x800 + g % 32 * 0x40 + off)

/-- A W1C status word of `n` flags. -/
def w1cFlags (n : Nat) : List Fld := [{ lo := 0, w := n, acc := .w1c, flags := true }]

/-- A whole word under one access code. -/
def wholeWord (a : Acc) : List Fld := [{ lo := 0, w := 32, acc := a }]

/-- The fields of the block control page (R61, R332, R423, R451, R463, R514, R522). -/
def blockFields (o : Nat) : List Fld :=
  if o < 0x400 then
    match o with
    | 0x000 => [{ lo := 0, w := 32, acc := .ro, rst := 0x4B4F5448 }]
    | 0x008 => [{ lo := 0, w := 4, acc := .ro, rst := 1 }, { lo := 4, w := 4, acc := .ro }, { lo := 8, w := 1, acc := .ro }]
    | 0x00C => [{ lo := 0, w := 1, acc := .rw, tv := true }, { lo := 1, w := 1, acc := .rw, tv := true },
        { lo := 2, w := 1, acc := .rw, tv := true, rst := 1 }, { lo := 3, w := 1, acc := .rw, tv := true, rst := 1 },
        { lo := 4, w := 1, acc := .rw, tv := true, rst := 1 }]
    | 0x014 => w1cFlags 5
    | 0x040 => [{ lo := 0, w := 1, acc := .wo }]
    | 0x100 => [{ lo := 12, w := 20, acc := .rwd }]
    | 0x104 => [{ lo := 0, w := 20, acc := .rwd }]
    | 0x108 => [{ lo := 0, w := 1, acc := .rw }, { lo := 1, w := 1, acc := .ro },
        { lo := 8, w := 5, acc := .rwd, rst := 10, lim := some (6, 16) }]
    | 0x10C => wholeWord .rw
    | 0x114 => w1cFlags 2
    | 0x150 => w1cFlags 2
    | 0x200 => [{ lo := 0, w := 1, acc := .rw }, { lo := 1, w := 1, acc := .ro }]
    | 0x204 => [{ lo := 0, w := 32, acc := .rw, rst := 2000000, lim := some (100000, 100000000) }]
    | 0x208 => wholeWord .wo
    | 0x210 => wholeWord .wo
    | 0x214 => wholeWord .wo
    | 0x218 => [{ lo := 0, w := 1, acc := .ro, tv := true }]
    | 0x21C => [{ lo := 0, w := 1, acc := .rw }]
    | 0x220 => wholeWord .wo
    | 0x224 => wholeWord .wo
    | 0x228 => w1cFlags 3
    | 0x300 => [{ lo := 0, w := 1, acc := .rw }, { lo := 1, w := 1, acc := .ro }]
    | 0x304 => wholeWord .rw
    | 0x30C => w1cFlags 2
    | _ => []
  else if o < 0x600 then
    match o % 16 with
    | 0 => [{ lo := 0, w := 1, acc := .rw }, { lo := 1, w := 1, acc := .ro }, { lo := 2, w := 1, acc := .rwd },
        { lo := 8, w := 8, acc := .rwd }]
    | 4 => [{ lo := 0, w := 8, acc := .rwd }]
    | 8 => [{ lo := 12, w := 20, acc := .rwd }]
    | _ => []
  else if o = 0x600 then w1cFlags 2
  else if 0x1000 ≤ o ∧ o < 0x2000 then
    match o % 0x40 with
    | 0x00 => [{ lo := 0, w := 5, acc := .ro, tv := true, flags := true }, { lo := 8, w := 3, acc := .ro, tv := true },
        { lo := 16, w := 16, acc := .ro, tv := true }]
    | 0x04 => [{ lo := 0, w := 20, acc := .ro, tv := true }]
    | 0x08 => [{ lo := 0, w := 21, acc := .ro, tv := true }]
    | 0x0C => [{ lo := 0, w := 16, acc := .ro, tv := true, rst := 1 }]
    | 0x10 => [{ lo := 0, w := 17, acc := .ro, tv := true }]
    | 0x14 => [{ lo := 0, w := 32, acc := .ro, tv := true, flags := true }]
    | 0x18 => [{ lo := 0, w := 32, acc := .ro, tv := true, flags := true }]
    | 0x1C => [{ lo := 0, w := 16, acc := .ro, tv := true, flags := true }]
    | _ => []
  else if o = 0x2000 then
    [{ lo := 0, w := 5, acc := .ro, tv := true, rst := 2, flags := true }]
  else if o = 0x2004 then w1cFlags 3
  else if 0x2800 ≤ o ∧ o < 0x3000 then [{ lo := 0, w := 32, acc := .ro, tv := true }]
  else []

/-- The fields of the registers that every station page holds (R62, R283, R308); `n` is the station index. -/
def stationFields (n o : Nat) : List Fld :=
  match o with
  | 0x0000 => [{ lo := 0, w := 7, acc := .ro, tv := true, rst := n },
      { lo := 8, w := 2, acc := .ro, tv := true, rst := kindCode (kindOf n) },
      { lo := 10, w := 2, acc := .ro, tv := true, rst := skirtOf n },
      { lo := 12, w := 1, acc := .ro, tv := true }, { lo := 13, w := 1, acc := .ro, tv := true },
      { lo := 14, w := 1, acc := .ro, rst := 1 }, { lo := 15, w := 1, acc := .ro, tv := true },
      { lo := 16, w := 8, acc := .ro, tv := true, flags := true }, { lo := 24, w := 8, acc := .ro }]
  | 0x0004 => w1cFlags 2
  | 0x2000 => [{ lo := 0, w := 1, acc := .rw }]
  | 0x2008 => [{ lo := 0, w := 16, acc := .rwd, tv := true, rst := 0xFFFF, flags := true }]
  | 0x200C => [{ lo := 0, w := 6, acc := .rwd, rst := 32, lim := some (1, 32) }]
  | 0x2014 => [{ lo := 0, w := 16, acc := .ro, tv := true, flags := true }]
  | 0x2018 => w1cFlags 3
  | 0x2200 => [{ lo := 0, w := 2, acc := .ro, tv := true, flags := true }, { lo := 2, w := 3, acc := .ro, tv := true }]
  | 0x2204 => w1cFlags 5
  | _ => []

/-- The fields of the further registers of a pommel page (R157, R182, R201, R224, R235, R243, R263, R325, R357, R371). -/
def pommelFields (o : Nat) : List Fld :=
  if o = 0x400 then w1cFlags 3
  else if 0x600 ≤ o ∧ o < 0x680 then
    match o % 0x20 with
    | 0x00 => [{ lo := 0, w := 20, acc := .rw }]
    | 0x04 => wholeWord .rw
    | 0x08 => wholeWord .rw
    | 0x0C => wholeWord .rw
    | 0x10 => wholeWord .rw
    | 0x14 => [{ lo := 0, w := 1, acc := .wo }, { lo := 1, w := 1, acc := .wo }]
    | _ => []
  else if 0x700 ≤ o ∧ o < 0x780 then
    match o % 0x20 with
    | 0x00 => [{ lo := 0, w := 20, acc := .rw }]
    | 0x04 => wholeWord .rw
    | 0x08 => wholeWord .rw
    | 0x0C => [{ lo := 0, w := 2, acc := .rw }, { lo := 2, w := 1, acc := .rw }]
    | 0x10 => [{ lo := 0, w := 1, acc := .wo }, { lo := 1, w := 1, acc := .wo }]
    | _ => []
  else if o = 0x780 then w1cFlags 3
  else if o = 0x784 then wholeWord .rw
  else if 0x800 ≤ o ∧ o < 0x1000 then
    match o % 0x40 with
    | 0x00 => w1cFlags 4
    | 0x04 => [{ lo := 0, w := 3, acc := .ro, tv := true, flags := true }]
    | _ => []
  else if 0x1000 ≤ o ∧ o < 0x1100 then
    match o % 0x40 with
    | 0x00 => [{ lo := 0, w := 20, acc := .rw }]
    | 0x04 => wholeWord .rw
    | 0x08 => wholeWord .rw
    | 0x0C => wholeWord .rw
    | 0x10 => wholeWord .rw
    | 0x14 => [{ lo := 0, w := 3, acc := .rw }]
    | 0x18 => wholeWord .rw
    | 0x1C => wholeWord .rw
    | 0x20 => [{ lo := 0, w := 1, acc := .wo }, { lo := 1, w := 1, acc := .wo }]
    | _ => []
  else match o with
    | 0x1100 => w1cFlags 3
    | 0x3000 => w1cFlags 2
    | 0x3044 => w1cFlags 3
    | 0x3084 => w1cFlags 4
    | 0x30C8 => [{ lo := 0, w := 8, acc := .ro, tv := true }]
    | 0x30D0 => [{ lo := 0, w := 2, acc := .rwd }, { lo := 4, w := 4, acc := .rwd, flags := true }]
    | _ => []

/-- The fields of the further registers of a cantle page (R399). -/
def cantleFields (o : Nat) : List Fld :=
  if 0x4140 ≤ o ∧ o < 0x4180 then wholeWord .rw
  else match o with
    | 0x4004 => w1cFlags 5
    | 0x4100 => [{ lo := 0, w := 12, acc := .rw }]
    | 0x4104 => [{ lo := 0, w := 2, acc := .rw }]
    | 0x4108 => [{ lo := 0, w := 1, acc := .wo }, { lo := 1, w := 1, acc := .wo }]
    | _ => []

/-- The fields of the word at BAR0 offset `off`, outside the mailbox and Buckle, which hold their registers
themselves. -/
def regFields (off : Nat) : List Fld :=
  if off < 0x8000 then blockFields off
  else if 0x100000 ≤ off ∧ off < 0x740000 then
    let n := (off - 0x100000) / 0x10000
    let o := off % 0x10000
    match stationFields n o with
    | [] => (match kindOf n with
      | .stirrup => []
      | .pommel => pommelFields o
      | .cantle => cantleFields o)
    | fs => fs
  else []

/-- The reset value of the word at `off` (R13, and each table's Reset column). -/
def regReset (off : Nat) : W32 := (regFields off).foldl (fun v f => putBits v f.lo f.w f.rst) 0

/-- The mask of the triplicated bits of the word at `off`. -/
def tvMask (off : Nat) : W32 :=
  (regFields off).foldl (fun v f => if f.tv then putBits v f.lo f.w (2 ^ f.w - 1) else v) 0

/-- The field of the word at `off` that bit `b` belongs to. -/
def fldAt (off b : Nat) : Option Fld := (regFields off).find? fun f => f.lo ≤ b && b < f.lo + f.w

end Sys2Proof.Machine
end

