-- ==== Sys2Proof/Machine/Smap.lean ====
section
/-! DEFINITION. Sparse maps from numbers to values: sorted lists of pairs. They hold memories, register files and
tables of records. A map with a default lists no entry equal to the default, so that equal maps are equal data. -/

namespace Sys2Proof.Machine

/-- A sparse map: pairs in rising order of key. -/
abbrev Smap (β : Type) := List (Nat × β)

/-- The value listed at key `k`. -/
def sFind {β : Type} : Smap β → Nat → Option β
  | [], _ => none
  | (j, v) :: m, k => if j = k then some v else sFind m k

/-- The value at key `k`, `d` where the map lists none. -/
def sGet {β : Type} (d : β) (m : Smap β) (k : Nat) : β := (sFind m k).getD d

/-- The map with `v` listed at `k`. -/
def sIns {β : Type} : Smap β → Nat → β → Smap β
  | [], k, v => [(k, v)]
  | (j, w) :: m, k, v =>
    if j = k then (k, v) :: m else if k < j then (k, v) :: (j, w) :: m else (j, w) :: sIns m k v

/-- The map with nothing listed at `k`. -/
def sDel {β : Type} : Smap β → Nat → Smap β
  | [], _ => []
  | (j, w) :: m, k => if j = k then sDel m k else (j, w) :: sDel m k

/-- Set key `k` to `v` in a map with default `d`: writing the default removes the entry. -/
def sPut {β : Type} [DecidableEq β] (d : β) (m : Smap β) (k : Nat) (v : β) : Smap β :=
  if v = d then sDel m k else sIns m k v

/-- Change the value at `k`. -/
def sMod {β : Type} [DecidableEq β] (d : β) (m : Smap β) (k : Nat) (f : β → β) : Smap β :=
  sPut d m k (f (sGet d m k))

/-- Change every listed value. -/
def sMap {β : Type} (m : Smap β) (f : Nat → β → β) : Smap β := m.map fun p => (p.1, f p.1 p.2)

/-- Keep the listed entries that satisfy `f`. -/
def sFilter {β : Type} (m : Smap β) (f : Nat → β → Bool) : Smap β := m.filter fun p => f p.1 p.2

/-- The keys rise strictly, from above `lo` where it is given. -/
def sSorted {β : Type} : Option Nat → Smap β → Bool
  | _, [] => true
  | lo, (j, _) :: m => (match lo with | none => true | some l => l < j) && sSorted (some j) m

/-- The canonical form: keys strictly rising, and no entry equal to the default. -/
def sWf {β : Type} [DecidableEq β] (d : β) (m : Smap β) : Bool := sSorted none m && m.all fun p => p.2 ≠ d

/-- Read `n` bytes from address `a`; a byte that is not listed reads as zero. -/
def rdBytes (m : Smap Byte) (a : Nat) : Nat → Bytes
  | 0 => []
  | n + 1 => sGet 0 m a :: rdBytes m (a + 1) n

/-- Write bytes from address `a` on. -/
def wrBytes (m : Smap Byte) (a : Nat) : Bytes → Smap Byte
  | [] => m
  | b :: bs => wrBytes (sPut 0 m a b) (a + 1) bs

/-- The little-endian number of `n` bytes at address `a` (R9). -/
def rdNat (m : Smap Byte) (a n : Nat) : Nat := leNat (rdBytes m a n)

/-- Write the `n` little-endian bytes of `v` at address `a` (R9). -/
def wrNat (m : Smap Byte) (a n v : Nat) : Smap Byte := wrBytes m a (leBytes n v)

end Sys2Proof.Machine
end

