-- ==== Sys2Proof/Machine/PartsA.lean ====
section
/-! DEFINITION. Parts of the machine's state, as plain data: register words, time tags, the dictionary and its
gateway, the Latigo nodes, bring-up, the die-to-die ports, Buckle, the error queue, leases, resets and rolls. -/

namespace Sys2Proof.Machine

/-- A register word in three copies (R65). A field that is not triplicated is the same in all three. -/
structure Trip where
  a : W32
  b : W32
  c : W32
deriving DecidableEq, Repr

/-- Supply and fundamental reset input (R2, R35): rails down; rails up with the reset input asserted; released. -/
inductive Power where
  | off
  | held
  | up
deriving DecidableEq, Repr

/-- What the fuse array holds (R20, R55, R491): identity, floor plan, caps and the one-time counters. Bit `n` of
`stations`, bit `s` of `hbm`, bit `g` of `guards` is 1 where the unit is fused in. -/
structure Fuses where
  serial : Nat
  variant : Nat
  pkgVariant : Nat
  stations : Nat
  hbm : Nat
  guards : Nat
  svnMin : Nat
  prodLocked : Bool
  paceFuse : Nat
  railMax : Nat
  vendor : Nat
  enterprise : Nat
  version : Nat
  certChain : Bytes
  deviceSecret : BitVec 384
  powerCycles : Nat := 0
  hourSteps : Nat := 0
  thermalTrips : Nat := 0
deriving DecidableEq, Repr

/-- The timing oscillators (R43, R44): `drift` is how many ticks the oscillator of each station has counted beyond
`State.ticks`, the count of the slowest; `timers` holds the tick at which each repeating interval last ended, or since which each
waiting condition has held, by the kind of the interval and its unit. -/
structure Clock where
  drift : Smap Nat := []
  timers : Smap Nat := []
deriving DecidableEq, Repr

/-- Time-tag state of one station, or of the block-level parts (R45, R48, R49). `adopted` is the tick of the last
adoption, or of the block reset; `ref` is the earlier adoption that a measurement of the tick period starts from. -/
structure TagRec where
  seq : Nat := 0
  wrapped : Bool := false
  epoch : Nat := 0
  valid : Bool := false
  adopted : Nat := 0
  ref : Option (Nat × Nat) := none
deriving DecidableEq, Repr

/-- Ledger counts of one station (R52). `temps` are the times spent per band, in picoseconds; `sampled` is the tick of
its last temperature sample. -/
structure WearRec where
  temps : List Nat := [0, 0, 0, 0, 0, 0, 0]
  tempMax : Int := 0
  seen : Bool := false
  retrains : Nat := 0
  corrErr : Nat := 0
  leaseBreaks : Nat := 0
  sampled : Nat := 0
deriving DecidableEq, Repr

/-- The block's ledger counts (R52); powered time and HOUR_ACCUM in picoseconds; `lastEpoch` is the last host epoch that H0
adopted. -/
structure Ledger where
  powerPs : Nat := 0
  hourPs : Nat := 0
  lastEpoch : Nat := 0
  corrErrTotal : Nat := 0
  leaseBreaksTotal : Nat := 0
  restoreCount : Nat := 0
  restored : Bool := false
deriving DecidableEq, Repr

/-- The phases of one requester's request (R83, R91): none; waiting for the gateway; forwarded over Latigo; accepted
and waiting for the operation of the entry itself; waiting for a snapshot (R72, R93). -/
inductive ReqPhase where
  | idle
  | waiting
  | out
  | own
  | snap
deriving DecidableEq, Repr

/-- One requester of the dictionary (R82, R91): its slot registers (R82; unused for the management endpoint), its
request with its place in the order of acceptance, and its captured DOMAIN image (R87) with the entry's key. -/
structure Reqr where
  phase : ReqPhase := .idle
  seq : Nat := 0
  op : Nat := 0
  index : Nat := 0
  sub : Nat := 0
  offset : Nat := 0
  data : Bytes := []
  last : Bool := false
  irq : Bool := false
  len : Nat := 0
  capt : Option (Nat × Bytes) := none
  cmdReg : W32 := 0
  offReg : W32 := 0
  lenReg : W32 := 0
  result : W32 := 0
  rlen : W32 := 0
  total : W32 := 0
  overrun : Bool := false
  setcnt : W32 := 0
  buf : Smap Byte := []
deriving DecidableEq, Repr

/-- An open DOMAIN image collected at the gateway (R87). -/
structure OpenImg where
  key : Nat
  rid : Nat
  data : Bytes
  since : Nat
deriving DecidableEq, Repr

/-- A request outstanding over Latigo (R98). `since` is the tick of its last send or, once accepted, of the
acceptance. -/
structure LtgReq where
  tag : Nat
  rid : Nat
  frame : Frame
  sends : Nat
  accepted : Bool
  since : Nat
deriving DecidableEq, Repr

/-- A command record of an entry under 0xF000 (R103), with the whole argument of the last accepted write. -/
structure CmdRec where
  phase : Nat := 0
  status : Nat := 0
  state : Nat := 0
  count : Nat := 0
  arg : Bytes := []
deriving DecidableEq, Repr

/-- The gateway (R91, R97, R98, R101). `accepts` counts the requests accepted; `held` are those accepted for a station that wait to
be forwarded, in order; `bcast` is the broadcast whose return is awaited. -/
structure Gw where
  reqs : Smap Reqr := []
  ptr : Nat := 0
  accepts : Nat := 0
  held : List Nat := []
  bcast : Option Frame := none
  opens : List OpenImg := []
  out : List LtgReq := []
  nextTag : Nat := 0
  first : Nat := 1
  hbMiss : Smap Nat := []
  hbOut : Bool := false
  cmds : Smap CmdRec := []
deriving DecidableEq, Repr

/-- An event of a node that no EVENT_ACK has answered yet (R97, R99): its sequence number, its frame, and the tick of
its last send. -/
structure NodeEvent where
  seq : Nat
  frame : Frame
  sent : Option Nat
deriving DecidableEq, Repr

/-- A station's Latigo node (R95, R98). -/
structure Node where
  alive : Bool := true
  skip : Bool := false
  kept : List (Nat × Frame) := []
  replies : List Frame := []
  events : List NodeEvent := []
  evSeq : Nat := 0
deriving DecidableEq, Repr

/-- The management endpoint (R88, R89): its I3C dynamic address and MCTP endpoint ID, 0 where none is assigned. -/
structure Mgmt where
  addr : Nat := 0
  eid : Nat := 0
deriving DecidableEq, Repr

/-- What the girth gate or the boot measurement found of one link (R482 to R485): verdict 1 PASS_FULL, 2 PASS_NARROW,
3 FAIL; modules or lanes usable; per module the spares in use; and for each lane the bits checked, the errors and the
result (1 pass, 2 fail, 3 NO_LOCK). -/
structure LinkRes where
  verdict : Nat
  width : Nat
  spares : List Nat
  noLock : Bool
  lanes : List (Nat × Nat × Nat)
deriving DecidableEq, Repr

/-- Bring-up (R469 to R487). `presentFirst`, `coresFirst`, `tilesFirst`, `guardsFirst`, `skvFirst` are the bits that the
first bring-up after the fundamental reset set (R474); `firstRun3` says that step 3 has run; `again` that a block reset
came after the fundamental reset. `loads` counts the loads of each core in step 5, `acked` the cores that matched,
`changed5` the stations whose entry step 5 changed. `blockResets` counts the block resets since the fundamental reset, `incSeq` numbers
the value drawn at it (R376). `pcs` is what step 6 found per cantle (1 waiting, 2 aligned, 3
NO_LOCK); `dwell` the link now out for its dwell, while the girth gate runs (`girthRun`) or for a RETRAIN; `girth` the result per
link record. -/
structure BringUp where
  blocked : Bool := false
  firstRun3 : Bool := false
  again : Bool := false
  pcBlown : Bool := false
  presentFirst : Nat := 0
  coresFirst : Smap Nat := []
  tilesFirst : Nat := 0
  guardsFirst : Nat := 0
  skvFirst : Nat := 0
  bootRes : Option LinkRes := none
  girth : Smap LinkRes := []
  girthRun : Bool := false
  imageDigests : List (BitVec 384) := []
  loads : Smap Nat := []
  acked : List Nat := []
  changed5 : List Nat := []
  pcs : Smap Nat := []
  dwell : Option Nat := none
  training : Bool := false
  ledgerInFrames : Bool := false
  ownersBuilt : Bool := false
  blockResets : Nat := 0
  incSeq : Nat := 0
deriving DecidableEq, Repr

/-- A die-to-die port beyond its registers (R361, R366, R367): sequence numbers of the messages it sent per stream,
the error charges (tick, module, lane) in the window, the run of failed replays of the present flit with the lanes
they charged, whether a replay is awaited, when a retrain began and the width before it, whether streams 1 to 3 run (R478),
link disable (R365, R487), the sequence number of its next HEARTBEAT (R504), the tick at which the port last sent a
side-stream message (R343), and the modules that its last training left in use: a dropped module stays out of use until the next
fundamental reset or requested measurement (R368). -/
structure D2d where
  seq3 : Nat := 0
  seq4 : Nat := 0
  seq5 : Nat := 0
  charges : List (Nat × Nat × Nat) := []
  failRun : Nat := 0
  failLanes : List (Nat × Nat) := []
  replaying : Bool := false
  retrainSince : Nat := 0
  preWidth : Nat := 0
  streams : Bool := false
  linkDisabled : Bool := false
  hbSeq : Nat := 0
  pciOff : Bool := false
  sent : Nat := 0
  usable : Nat := 4
deriving DecidableEq, Repr

/-- The states of a Buckle source (R402). -/
inductive SrcSt where
  | idle
  | pending
  | inService
deriving DecidableEq, Repr

/-- A Buckle source (R402, R411). -/
structure Src where
  st : SrcSt := .idle
  prio : Nat := 0
  set : Nat := 0
  enable : Bool := false
  target : Option Nat := none
  part : Nat := 0
  owned : Bool := false
deriving DecidableEq, Repr

/-- A Buckle target (R411). -/
structure Tgt where
  en : Bool := false
  thresh : Nat := 0
  part : Nat := 0
  owned : Bool := false
deriving DecidableEq, Repr

/-- Buckle (R402 to R411). `sent` is the level last sent per target on side stream 3. -/
structure Buckle where
  srcs : Smap Src := []
  tgts : Smap Tgt := []
  tsets : Smap Nat := []
  ptrs : Smap Nat := []
  status : W32 := 0
  setcnt0 : W32 := 0
  setcnt1 : W32 := 0
  setcnt2 : W32 := 0
  lostLast : Nat := 0
  sent : Smap Bool := []
deriving DecidableEq, Repr

/-- A lease (R424), keyed in its table by kind and resource: the tick at which it expires, and whether an unsupervised
scan has flagged that expiry (R428). -/
structure Lease where
  expiry : Nat
  flagged : Bool := false
deriving DecidableEq, Repr

/-- The error-queue writer, leases and recovery beyond their registers (R422, R424, R430, R434). `drops` are the
records dropped since the last summary, per class. `scrubbing` holds the broken resources whose self-check has not
ended (R426); `coreBreaks` the tick of the last break of each core (R434); `reset` the running reset: scope, unit, core;
`presets` the partition resets that an FLR (cause 1) or STOP_INTERFACE (cause 2) started, with their partition. `stackBusy` is the stack that RETRAIN trains
(R489), `adopter` the pommel that serves the skirt of a pommel that a roll visits (R440), `duty` the core that holds the duty
of a core that is not live (R23), `fell` the stations marked LAME whose loss nothing has
taken up yet, `lost` those whose channels still wait for their leases (R436, R437), `railOver` the stations whose rail reads too high (R493), `upsets` the protected
words with flipped bits that no access and no scrubber has met yet (R413 to R415). In `scrubbing`, kind 12 is a walker that
failed its self-check. -/
structure Recov where
  drops : Smap Nat := []
  leases : Smap Lease := []
  scrubbing : List (Nat × Nat) := []
  coreBreaks : Smap Nat := []
  reset : Option (Nat × Nat × Nat) := none
  checking : Option Bool := none
  presets : List (Nat × Nat) := []
  adopter : Smap Nat := []
  duty : Smap Nat := []
  fell : List Nat := []
  lost : List Nat := []
  stackBusy : Option Nat := none
  railOver : List Nat := []
  upsets : List (StoreWord × Nat) := []
deriving DecidableEq, Repr

/-- A running roll (R440): its epoch, the stations still to visit, those being visited with the tick their step
began, and whether one was lost (R442). -/
structure Roll where
  active : Bool := false
  epoch : Nat := 0
  left : List Nat := []
  visiting : List (Nat × Nat) := []
  lost : Bool := false
  epochs : Smap Nat := []
  state : Nat := 0
deriving DecidableEq, Repr

/-- The Ethernet header of a frame sent (R373, R378): destination and source MAC address, the 802.1Q tag as priority and VID, and
the EtherType. -/
structure EthHdr where
  dst : BitVec 48
  src : BitVec 48
  tag : Option (Nat × Nat)
  etherType : Nat
deriving DecidableEq, Repr

/-- The addressing of a RoCEv2 packet sent (R394): MAC addresses, the VLAN_TCI of a tagged one, IP addresses in the bytes of the
entries that hold them, DSCP, and the remote queue pair. -/
structure RoceHdr where
  dst : BitVec 48
  src : BitVec 48
  tci : Option Nat
  sip : Bytes
  dip : Bytes
  dscp : Nat
  qpn : Nat
deriving DecidableEq, Repr

/-- What the block sends out of its ports, newest first in `State.out`: the surroundings see these and nothing else of
the state. -/
inductive OutMsg where
  /-- A side-stream message of pommel `pm` with its SEQ (R361). -/
  | side (pm stream type seq param : Nat) (payload : Bytes)
  /-- A Latigo frame put on the ring by the gateway (src 0) or by a node. -/
  | latigo (f : Frame)
  /-- An answer of the management endpoint: an MCTP message body (R89). -/
  | mctp (b : Bytes)
  /-- An I3C event of the management endpoint (R88): 0 a hot-join request, 1 an in-band interrupt for a response that is ready. -/
  | i3c (event : Nat)
  /-- An SPDM response (R456): response code and body. -/
  | spdm (code : Nat) (b : Bytes)
  /-- A TDISP response of the TDI of VF `vf` (R354): response code and body. -/
  | tdisp (vf code : Nat) (b : Bytes)
  /-- The data of a host read of a BAR (R59). -/
  | barData (fn bar off : Nat) (v : W64)
  /-- The completion of a configuration request (R327, R349): status 0 successful, 1 Unsupported Request, 2 Request Retry
  Status; and the word read. -/
  | config (pm fn off status : Nat) (v : W32)
  /-- A Translation Request to the host for walk `w` through pommel `pm` (R169), with its Requester ID `fn` and PASID (R329). -/
  | atsReq (pm fn w pasid : Nat) (va : Nat) (write : Bool)
  /-- An Invalidate Completion (R351). -/
  | atsInvDone (pm fn : Nat)
  /-- A page request group (R217), with its Requester ID `fn` and PASID (R329). -/
  | pageReq (pm fn pasid index : Nat) (va : Nat) (write : Bool)
  /-- The answer to a tile access (R28, R229): status, poison and data. -/
  | tile (st tag status : Nat) (poison : Bool) (data : Bytes)
  /-- An Ixcia packet of a TYPE sent on a cantle's port, with its Ethernet header and what closes its frame before the FCS: the
  CRC-32C, or the ciphertext of the payload with the tag (R373, R378, R385). -/
  | ixcia (cn type : Nat) (eth : EthHdr) (p : Packet) (trailer : Bytes)
  /-- A RoCEv2 response packet (R393): kind 0 ACK, 1 NAK with code, 2 RNR NAK, 3 READ response, 4 CNP; its headers are those of its
  queue pair (R394). -/
  | roce (cn kind code qp psn : Nat) (hdr : RoceHdr) (data : Bytes)
  /-- A PFC frame (R372). -/
  | pfc (cn prio : Nat) (pause : Bool)
  /-- A snoop answer of pommel `pm` (R315). -/
  | snoopRsp (pm line : Nat) (data : Bytes)
  /-- A request to a SerDes, stack controller or tile that the block starts: kind 0 PMD training, 1 stack training,
  2 thermal shutdown, 3 port retrain. -/
  | start (kind unit : Nat)
  /-- Firmware image to a core (R477). -/
  | image (st core : Nat)
  /-- An access through a BAR4 window to a device outside the block (R334). -/
  | window (kind inst off : Nat) (w : Option W32)
deriving DecidableEq, Repr

end Sys2Proof.Machine
end

