-- ==== Sys2Proof/Machine/PartsB.lean ====
section
/-! DEFINITION. Parts of the machine's state, as plain data: memory, contexts, queues and what a queue's scheduler
holds. -/

namespace Sys2Proof.Machine

/-- A memory: its bytes, and the 64 B lines that carry a poison mark (R180, R418), keyed by address / 64. -/
structure Mem where
  bytes : Smap Byte := []
  poison : Smap Bool := []
deriving DecidableEq, Repr

/-- An entry of a context's region map (R111). -/
structure Region where
  base : W64 := 0
  pages : Nat := 0
  kind : Nat := 0
  attr : Nat := 0
  node : Nat := 0
  target : W64 := 0
deriving DecidableEq, Repr

/-- A context record (R107), with its region map (R111). `frHead` and `frTail` are the fault ring's pointers (R219). -/
structure CtxRec where
  state : Nat := 0
  mode : Nat := 0
  part : Nat := 0
  pasid : Nat := 0
  gen : Nat := 0
  ptRoot : Nat := 0
  regionMap : Nat := 0
  faultRing : Nat := 0
  faultLog2 : Nat := 0
  queues : Nat := 0
  stampLedger : Nat := 0
  refHeader : Nat := 0
  groups : List Nat := []
  late : Nat := 0
  refused : Nat := 0
  errors : Nat := 0
  regions : List Region := []
  frHead : Nat := 0
  frTail : Nat := 0
  pinned : Bool := false
deriving DecidableEq, Repr

/-- A queue record (R135). `part` is the partition of its context (R156); `checked` says that the program at
PROG_START passed the checks of R150, and `prog` is that program; `reserved` completion-queue slots are reserved (R147);
`halting` is 1 while a halt waits for the other descriptors in flight (R148), and `haltEnd` is then the index after the END of the
halted program; `ends` are those indexes of the programs that NEXT has passed and HEAD has not; `stopping` is the QUEUE_STOP, by queue and
ring index, or with `stopQ0` the write of Q0_ENABLE, that waits for the queue to drain; `fly` are the ring indexes in
flight. -/
structure QueueRec where
  state : Nat := 0
  priv : Bool := false
  snoop : Bool := false
  snoopActive : Bool := false
  prio : Nat := 0
  weight : Nat := 0
  ctx : Nat := 0
  ctxGen : Nat := 0
  gen : Nat := 0
  ringBase : Nat := 0
  tailLine : Nat := 0
  cqBase : Nat := 0
  refHeader : Nat := 0
  ringLog2 : Nat := 0
  cqLog2 : Nat := 0
  skirt : Nat := 0
  hint : Nat := 0
  depth : Nat := 0
  pause : Nat := 0
  irq : Nat := 0
  head : W32 := 0
  tailSeen : W32 := 0
  cqTail : W32 := 0
  cqHeadSeen : W32 := 0
  progStart : W32 := 0
  next : W32 := 0
  loops : List Nat := [0, 0, 0, 0]
  doorbells : Nat := 0
  dropped : Nat := 0
  lateDb : Nat := 0
  done : Nat := 0
  part : Nat := 0
  checked : Bool := false
  prog : List Desc := []
  reserved : Nat := 0
  halting : Nat := 0
  haltEnd : W32 := 0
  ends : List W32 := []
  stopping : Option (Nat × W32) := none
  stopQ0 : Bool := false
  fly : List W32 := []
deriving DecidableEq, Repr

/-- A descriptor in flight that runs on the pommel and not on a DMA channel: a WAIT, SIGNAL, BRANCH or STAMP, or an object
or queue command that has not completed. `phase` is 1 while it waits for its access `acc`, 2 for a WAIT that is pending, 3
for a command that waits for an invalidation, drain or scrub. `aux` and `aux2` are the command's own: for a pending WAIT the
fence's home address and its kind (1 host, 2 device), plus 4 times the pommel. `since` is the tick at which it started,
`entry` whether it holds a wait entry (R151), `expect` the owner that a pending WAIT expects of its fence. -/
structure CtlJob where
  queue : Nat
  ri : W32
  desc : Desc
  phase : Nat := 0
  acc : Nat := 0
  aux : Nat := 0
  aux2 : Nat := 0
  since : Nat := 0
  entry : Bool := false
  expect : W32 := 0
deriving DecidableEq, Repr

/-- A doorbell forwarded in class C to pommel `pm` (R142). -/
structure DbMsg where
  pm : Nat
  queue : Nat
  tail : Option W32
  head : Option W32
deriving DecidableEq, Repr

/-- The queues' surroundings in the block (R138, R142, R143, R145, R151): queue maps per pommel (the queues of each map), the
records resident per skirt, the pending bitmap, forwarded doorbells, watch slots (queue to line address), descriptors
running on the pommels; for the deficit round robin, the deficit of each queue, and per skirt × 8 + priority the queue (plus 1) whose
turn it is. -/
structure QueSys where
  recs : Smap QueueRec := []
  maps : Smap Nat := []
  resident : List Nat := []
  pendBits : List Nat := []
  watch : List Nat := []
  fwd : List DbMsg := []
  jobs : List CtlJob := []
  q0Draining : Bool := false
  deficit : Smap Nat := []
  turn : Smap Nat := []
deriving DecidableEq, Repr

/-- A rest under way (R496): its context, the step that runs (2 drains, 3 evicts or flushes, 4 invalidates, 5 writes the
image), the image address, KEEP_RESIDENT, the tick at which step 2 began, and the status that the command will report. -/
structure Rest where
  ctx : Nat
  step : Nat := 2
  image : Nat := 0
  keep : Bool := false
  since : Nat := 0
  status : Nat := 0
deriving DecidableEq, Repr

/-- The contexts and what the block keeps for them: the records, the records resident in the four context record
caches, most recently used first (R108), and the rest under way. -/
structure CtxSys where
  recs : Smap CtxRec := []
  resident : List Nat := []
  rest : Option Rest := none
deriving DecidableEq, Repr

end Sys2Proof.Machine
end

