-- ==== Sys2Proof/Machine/PartsC.lean ====
section
/-! DEFINITION. Parts of the machine's state, as plain data: translation, accesses, faults, residency, data movement,
coherent windows, the endpoint, peers, security, host loss, telemetry. -/

namespace Sys2Proof.Machine

/-! ### Translation (R184 to R206) -/

/-- An entry of a tile TLB (`loc` is the stirrup) or of a shared translation cache (`loc` is 100 plus the skirt): a run
(R185). `base` and `frame` are page numbers, `len` the pages it covers; `own` is the owner that OWN_SEL named at the time of the
walk (R175). -/
structure Run where
  loc : Nat
  ctx : Nat
  base : Nat
  len : Nat
  frame : Nat
  kind : Nat
  wr : Bool
  ownSel : Nat := 0
  fmt : Nat := 0
  n : Bool := false
  mig : Bool := false
  node : Nat := 0
  own : W32 := 0
deriving DecidableEq, Repr

/-- A non-leaf entry in the upper-level cache of a skirt (R184): `key` is the address of the virtual span it covers,
VA divided by the span of `level`; `ent` the entry's word. -/
structure Ulc where
  skirt : Nat
  ctx : Nat
  level : Nat
  key : Nat
  ent : W64
deriving DecidableEq, Repr

/-- A walk (R187). `active` says that a walker serves it (or, for the residency engine's own translations, that it is under way); `level` and `table` are where its next table read goes, `wOk`
the write permission so far. `host` is 0 for a table walk, 1 while its translation request waits to be sent, 2 once sent
at tick `sent` through pommel `via` (R169). `res` is the migration that asked, for the residency engine's own
translations. `got` are the non-leaf entries read, which the upper-level cache takes when the walk ends well (R187, R212). -/
structure Walk where
  id : Nat
  skirt : Nat
  station : Nat
  ctx : Nat
  page : Nat
  write : Bool
  active : Bool := false
  level : Nat := 4
  table : Nat := 0
  wOk : Bool := true
  host : Nat := 0
  via : Nat := 0
  fn : Nat := 0
  sent : Nat := 0
  doomed : Bool := false
  waiters : List Nat := []
  res : Option (Nat × Nat) := none
  got : List Ulc := []
deriving DecidableEq, Repr

/-- Whose an invalidation is (R200), and so whom its completion tells. -/
inductive InvSrc where
  | slot (pm k : Nat)
  | host (pm fn req : Nat)
  | job (q : Nat) (ri : W32)
  | revoke (c : Nat)
  | engine (pm : Nat) (req : Nat)
  | rest (c : Nat)
  | block
deriving DecidableEq, Repr

/-- An invalidation (R203). It covers pages `first` to `first + pages - 1` of context `ctx`, or the whole context when
`pages` is 0. `running` says that it is one of the eight that run; `accs` are the accesses and `walks` the doomed walks
that step 5 waits for, `chans` the stations whose channels step 4 waits for. -/
structure Inv where
  id : Nat
  src : InvSrc
  ctx : Nat
  first : Nat
  pages : Nat
  running : Bool := false
  accs : List Nat := []
  walks : List Nat := []
  chans : List Nat := []
deriving DecidableEq, Repr

/-- A run record of a sidecar slot (R196). -/
structure StampRun where
  page : Nat
  len : Nat
  frame : Nat
  wr : Bool
  host : Bool
  ownSel : Nat
  fmt : Nat
  n : Bool
  mig : Bool
  own : W32 := 0
deriving DecidableEq, Repr

/-- A sidecar slot (R196). `state` is 1 STAMPING, 2 READY, 3 EXECUTING; a FREE slot is not listed. `blocks` are the
blocks whose buckets it raised (R197), `want` the pages still to be translated, and whether for a write; `bad` says that
the stamp walk met something other than a valid translation. -/
structure SideSlot where
  queue : Nat := 0
  ri : W32 := 0
  ctx : Nat := 0
  ctxGen : Nat := 0
  state : Nat := 0
  stale : Bool := false
  runs : List StampRun := []
  blocks : List Nat := []
  want : List (Nat × Bool) := []
  bad : Bool := false
deriving DecidableEq, Repr

/-- A host Invalidate Request (R351) that waits for its contexts' invalidations and the evictions of R259. -/
structure HostInv where
  id : Nat
  pm : Nat
  fn : Nat
deriving DecidableEq, Repr

/-- Translation: the caches, each with its entries in order of use, the most recently used last; the walks, the invalidations, and the sidecar slots by skirt × 4,096 + slot. -/
structure Xlat where
  tlb : List Run := []
  ulc : List Ulc := []
  walks : List Walk := []
  nextWalk : Nat := 0
  invs : List Inv := []
  nextInv : Nat := 0
  hostInvs : List HostInv := []
  slots : Smap SideSlot := []
deriving DecidableEq, Repr

/-! ### Accesses -/

/-- Who issued an access: a tile through its port (`part` 0 for a whole access, 1 and 2 for the low and high part of one
that straddles, in reassembly entry `re`); a DMA channel, or a REDUCE on pseudo-channel 16 and above; a descriptor on a
pommel; an inbound peer request; the stamp service. -/
inductive AccSrc where
  | tile (st tag part re : Nat)
  | chan (st ch : Nat)
  | job (q : Nat) (ri : W32)
  | inbound (k : Nat)
  | stamp (skirt slot : Nat)
deriving DecidableEq, Repr

/-- What an access does at its home. `store` carries the bytes and which of them are poisoned. -/
inductive AccOp where
  | load
  | store (data : Bytes) (pz : List Bool)
  | signal (v : Nat)
  | read8
  | abandon
  | touch
deriving DecidableEq, Repr

/-- The phases of an access: waiting for its context's record (R108); waiting on a walk; held for a fault (R215) or for a
migration (R253); translated; its check admitted (R229); its commit or abort on the way; ended. -/
inductive AccPh where
  | ctxWait
  | walk
  | held
  | mig
  | ready
  | checked
  | commit
  | abort
  | done
deriving DecidableEq, Repr

/-- An access. Once translated, `kind` is 1 host, 2 device or 3 peer, `pa` its device-physical, host-physical or remote
address, `expect` the owner it expects (R175). At its end `status` is its status, `data` and `pz` what it read. `fcount`
counts the fault entries taken in a row on page `fpage`; `entry` the fault entry it is attached to; `since` the tick of
a hold with no entry (R222); `fHost`, `fTyp`, `fLevel` and `fPa` say what the walk met. `sent` says that a peer access
has left the node, `retired` that the tag of the unit that issued it is retired (R432). `iss` numbers the accesses in the order
in which they left their station (R26), `born` is the tick of that; `stamped` says that its frame came from a sidecar (R199); `loose`
marks the bytes of a store that overlap the rest of its descriptor's footprint (R272); `must` says that it belongs to a matrix whose
write had begun when its channel's lease broke (R304). -/
structure Access where
  id : Nat
  src : AccSrc
  station : Nat
  ctx : Nat
  gen : Nat
  va : Nat
  len : Nat
  write : Bool
  op : AccOp
  ph : AccPh := .walk
  kind : Nat := 0
  pa : Nat := 0
  node : Nat := 0
  expect : W32 := 0
  pm : Nat := 0
  status : Nat := 0
  data : Bytes := []
  pz : List Bool := []
  fpage : Nat := 0
  fcount : Nat := 0
  entry : Option (Nat × Nat) := none
  since : Option Nat := none
  wasFault : Bool := false
  fHost : Bool := false
  fTyp : Nat := 0
  fLevel : Nat := 0
  fPa : Nat := 0
  sent : Bool := false
  retired : Bool := false
  iss : Nat := 0
  born : Nat := 0
  stamped : Bool := false
  loose : List Bool := []
  must : Bool := false
  smp : Bool := false
deriving DecidableEq, Repr

/-- The accesses in flight, oldest first, and how many have left their stations; the owner-word lines cached per guard, and the frames whose owner word cannot be
read (R179). -/
structure AccSys where
  list : List Access := []
  next : Nat := 0
  issued : Nat := 0
  owc : Smap (List Nat) := []
  owBad : List Nat := []
deriving DecidableEq, Repr

/-! ### Page faults (R213 to R233) -/

/-- A fault entry of home pommel `pm` (R213). `tag` is its FAULT_TAG; `pri` the page request group index in use. -/
structure FltEntry where
  pm : Nat
  idx : Nat
  tag : Nat
  ctx : Nat
  gen : Nat
  page : Nat
  host : Bool
  write : Bool
  since : Nat
  pri : Option Nat := none
  fail : Bool := false
deriving DecidableEq, Repr

/-- The fault service: the entries, oldest first; the use counts of entries by pommel × 2,048 + index; the notices written
per pommel; the contexts with a notice outstanding (R223); and the tick of the last refusal record per guard × 2^21 +
context (R177). -/
structure FaultSys where
  entries : List FltEntry := []
  uses : Smap Nat := []
  notices : Smap Nat := []
  noted : List Nat := []
  lastRec : Smap Nat := []
deriving DecidableEq, Repr

/-! ### Residency (R238 to R261) -/

/-- A group record (R245, R246): its sample count and attributes; the pages whose host copy is narrowed, and their formats
as FMT + 32 × NFMT; the host page recorded for each RESIDENT page; the frame of each POISONED page; and its place in the
table, from 1 on, 0 while it has none. Pages are given by their place in the group. -/
structure Group where
  count : Nat := 0
  fmt : Nat := 0
  nfmt : Nat := 0
  narrow : Bool := false
  exclude : Bool := false
  narrowed : List Nat := []
  nfmts : Smap Nat := []
  hostPg : Smap Nat := []
  poisoned : Smap Nat := []
  slot : Nat := 0
deriving DecidableEq, Repr

/-- A sample that waits at home pommel `pm` (R247): the page it names and, for a host-path access, its latency in ticks. -/
structure Sample where
  pm : Nat
  ctx : Nat
  page : Nat
  host : Option Nat := none
deriving DecidableEq, Repr

/-- What the engine keeps per context (R248): free frames of its pool and how many it has in all; M and F as sum and count
(a count of 0 is the starting value) and the sums of the present interval; the gain (0 is the starting value); pages
promoted in this interval and the one before, and those of them that were evicted in each. -/
structure ResCtx where
  free : List Nat := []
  total : Nat := 0
  m : Nat × Nat := (1, 1)
  f : Nat × Nat := (0, 0)
  mNow : Nat × Nat := (0, 0)
  fNow : Nat × Nat := (0, 0)
  gain : Nat := 0
  upNow : List Nat := []
  upLast : List Nat := []
  downNow : Nat := 0
  downLast : Nat := 0
deriving DecidableEq, Repr

/-- What a migration entry does: a promotion, an eviction, the writeback of a FLUSH (which holds no access), the widening of
a narrowed page in place, a DROP. -/
inductive MigAct where
  | promote
  | evict
  | flush
  | widen
  | drop
deriving DecidableEq, Repr

/-- A page in the migration table of a home pommel (R252, R253). `stage` is the step under way: 2 waits for the
invalidation, 3 for the host translation, 4 for the read-back of its copy or writeback. `batch` numbers the batch, `req` the
request that it serves; `narrow` says that its eviction may narrow; `began` is the tick of its entry. -/
structure Mig where
  pm : Nat
  ctx : Nat
  page : Nat
  act : MigAct
  stage : Nat := 2
  frame : Nat := 0
  host : Nat := 0
  batch : Nat := 0
  req : Option Nat := none
  narrow : Bool := false
  began : Nat := 0
deriving DecidableEq, Repr

/-- Pages of one group that wait to enter the migration table (R250). -/
structure Batch where
  id : Nat
  pm : Nat
  ctx : Nat
  act : MigAct
  left : List Nat
  narrow : Bool := false
  demand : Bool := false
  req : Option Nat := none
deriving DecidableEq, Repr

/-- A residency request under way (R244): of slot `slot`, of a host invalidation (R259), or of a rest (R496). `op` is that of
R244, or 8 for the evictions of a host invalidation. `phase` is 1 while its own invalidation runs, 2 while it flushes, 3
while it evicts, drops, takes or sets; `left` are the pages still to be looked at; `want` the frames TAKE still wants and
`list` where the next goes; `count` the count of R244. -/
structure ResReq where
  id : Nat
  pm : Nat
  slot : Option Nat := none
  host : Option Nat := none
  ctx : Nat
  op : Nat
  first : Nat
  pages : Nat
  arg : Nat := 0
  phase : Nat := 1
  left : List Nat := []
  want : Nat := 0
  list : Nat := 0
  count : Nat := 0
  status : Nat := 0
deriving DecidableEq, Repr

/-- The residency engine: group records by context × 2^40 + group; the contexts' pools and costs; the migration table by
pommel × 65,536 + entry (entries 256 and above are the writebacks of FLUSH, which are no entries of the table); batches that
wait; requests; the samples that wait at the homes, and how many accesses each station has counted since it last picked one. -/
structure ResSys where
  groups : Smap Group := []
  ctxs : Smap ResCtx := []
  migs : Smap Mig := []
  batches : List Batch := []
  reqs : List ResReq := []
  nextReq : Nat := 0
  samples : List Sample := []
  counts : Smap Nat := []
deriving DecidableEq, Repr

/-! ### Data movement (R265 to R306) -/

/-- A piece of a row or matrix: operand `k` (0 to 7 a source, 8 the destination), its address and length, and where it
lies: for a source the position in that operand's bytes of the unit, for the destination the destination offset; `u` is its unit. -/
structure Piece where
  k : Nat
  va : Nat
  len : Nat
  pos : Nat
  u : Nat := 0
deriving DecidableEq, Repr

/-- A write path of a descriptor (R275): 2 a guard, 1 a pommel and stream, 3 a node; the last destination byte written on
it (address at its home and destination offset); its context, and whether its read-back returned. -/
structure WPath where
  kind : Nat
  id : Nat
  addr : Nat
  off : Nat
  expect : W32 := 0
  back : Bool := false
deriving DecidableEq, Repr

/-- A failure that a descriptor met (R277): status, destination offset, operand, the unit's detail. -/
structure Failed where
  status : Nat
  off : Nat
  operand : Nat
  detail : Nat := 0
deriving DecidableEq, Repr

/-- A DMA channel with a descriptor (R266, R267), or a REDUCE. `unit0` is the index term with which it started (R148); `unit` is the next row or matrix, in loop order, whose pages have not
begun; `stage` is 0 while it waits for a verify-buffer slot, 1 while it works, 3 while read-backs are out. `todo` are source pieces not
issued, `fly` source pieces and read-backs in flight with their accesses, `got` what was read, `outs` what is to be written, `wfly`
destination pieces in flight. `stop` is the lowest destination offset that a failure reached: nothing from there on issues any more;
`dropped` says that a host-bound write was dropped in ORPHAN (R507), `begun` that the write of the matrix in the verify buffer has
begun (R304), `pms` is the pommel that its accesses to a host die take (R312). -/
structure Chan where
  queue : Nat := 0
  ri : W32 := 0
  desc : Desc := 0
  ctx : Nat := 0
  unit0 : Nat := 0
  unit : Nat := 0
  stage : Nat := 1
  todo : List Piece := []
  fly : List (Nat × Piece) := []
  got : List (Piece × Bytes × List Bool) := []
  outs : List (Piece × Bytes × List Bool) := []
  wfly : List (Nat × Piece) := []
  acked : Nat := 0
  paths : List WPath := []
  fails : List Failed := []
  stop : Option Nat := none
  dropped : Bool := false
  side : Option Nat := none
  stamped : Bool := false
  staleSeen : Bool := false
  vbuf : Bool := false
  begun : Bool := false
  pms : List (Nat × Nat) := []
deriving DecidableEq, Repr

/-- Data movement: the busy channels by station × 2^20 + channel; DMA_CTRL quiescence is in the registers; the residue
mismatches of a station's skiving unit (R306) with their ticks; the channels waiting for a verify-buffer slot, in
order. -/
structure DmaSys where
  chans : Smap Chan := []
  residue : List (Nat × Nat) := []
  vwait : List Nat := []
deriving DecidableEq, Repr

/-! ### Coherent windows (R313 to R315) -/

/-- Why a line is held Shared (R313): descriptor fetch, a queue's tail line, a WAIT's fence, a context's control line. -/
inductive LineUse where
  | fetch
  | tail (q : Nat)
  | wait (q : Nat) (ri : W32)
  | ctl (c : Nat)
deriving DecidableEq, Repr

/-- A held line of the coherent window cache of pommel `pm` (R313). -/
structure CwLine where
  pm : Nat
  line : Nat
  use : LineUse
deriving DecidableEq, Repr

/-- The coherent window caches: the lines held, and the tail lines, fences and control lines whose invalidation has not
been acted on. A queue in `rung` stands as q + 2^20 while the re-read of its tail line is out. -/
structure CwSys where
  lines : List CwLine := []
  rung : List Nat := []
  woken : List (Nat × W32) := []
  moved : List Nat := []
deriving DecidableEq, Repr

/-! ### The endpoint, peers, security -/

/-- The endpoint's configuration spaces, as words by function × 4,096 + offset where they differ from their reset value, and the
VFs whose function-level reset has not ended (R349). -/
structure Endpoint where
  cfg : Smap W32 := []
  flr : List Nat := []
deriving DecidableEq, Repr

/-- A sequenced Ixcia packet that waits to be sent: its TYPE, the request it belongs to, and the local partition whose traffic
it is. -/
structure OutPkt where
  type : Nat
  pkt : Packet
  req : Option Nat := none
  part : Option Nat := none
deriving DecidableEq, Repr

/-- A sequenced Ixcia packet sent and not acknowledged (R383): the path it last took, how often and at which tick it was
sent, the request it belongs to, whether a SACK has named it, and the local partition whose traffic it is. -/
structure TxPkt where
  type : Nat
  pkt : Packet
  lport : Nat
  rport : Nat
  sends : Nat := 1
  sent : Nat := 0
  req : Option Nat := none
  sacked : Bool := false
  part : Option Nat := none
deriving DecidableEq, Repr

/-- A path out of use (R380): local and remote port, since which tick, and the packets sent elsewhere since its last test. -/
structure Excl where
  lport : Nat
  rport : Nat
  since : Nat
  count : Nat := 0
deriving DecidableEq, Repr

/-- A conduit (R375 to R384). `state` is 0 DOWN, 1 PROBING, 2 OPEN. Sending: the next PSN, packets unacknowledged, packets
waiting with the request each belongs to, the window (0 is its starting value), the control counter, the remote ports and
the rotation over them, timeouts per path, paths out of use. Receiving: the sender's incarnation, the next expected PSN, the
PSNs beyond it that came, FENCED packets that wait (port, TYPE, packet), PSNs accepted whose execution has not ended, packets not acknowledged and
since when, and whether one of them came marked. -/
structure Conduit where
  state : Nat := 0
  tries : Nat := 0
  probeAt : Nat := 0
  next : W32 := 0
  unacked : List TxPkt := []
  queue : List OutPkt := []
  window : Nat := 0
  ctl : W32 := 0
  mask : Nat := 0
  rot : Nat := 0
  fails : List (Nat × Nat × Nat) := []
  excl : List Excl := []
  inc : Option (BitVec 16) := none
  expect : W32 := 0
  got : List W32 := []
  fenced : List (Nat × Nat × Packet) := []
  busy : List W32 := []
  owed : Nat := 0
  owedAt : Nat := 0
  ecn : Bool := false
deriving DecidableEq, Repr

/-- What an outbound request is. -/
inductive RemKind where
  | load
  | store
  | atomic
deriving DecidableEq, Repr

/-- An outbound request of an access to a node (R379, R388). `left` counts packets not acknowledged, or responses not come;
`parts` are the bytes that came, by address; `back` says that its read-back is out. A request of a channel's write stays
after its acknowledgement, for a NAK that may follow, with `acked` set; `pos` is then its destination offset. -/
structure RemReq where
  id : Nat
  node : Nat
  acc : Nat
  src : AccSrc
  kind : RemKind
  ctx : Nat
  va : Nat
  pa : Nat
  len : Nat
  pos : Nat := 0
  left : Nat := 0
  parts : List (Nat × Bytes × Bool) := []
  back : Bool := false
  acked : Bool := false
  since : Nat := 0
deriving DecidableEq, Repr

/-- A peer window (R386). -/
structure Win where
  base : Nat
  pages : Nat
  ctx : Nat
  gen : Nat
  source : Nat
  any : Bool
  rights : Nat
  op : Nat := 0
  fmt : Nat := 0
  round : Nat := 0
  seed : Nat := 0
  rkey : Nat := 0
deriving DecidableEq, Repr

/-- What an inbound access is for. -/
inductive InbKind where
  | write
  | read
  | atomic
  | sendCheck
  | sendData
  | sendBack
deriving DecidableEq, Repr

/-- An inbound request under way (R387, R395): its cantle, its node or, with `roce`, its queue pair, its PSN and tag, the
window as it was matched, and how many accesses serve it. `status` is its first failure; `parts` what was read; `back` says
that a read's data is not returned (R387). -/
structure Inbound where
  k : Nat
  cn : Nat
  node : Nat
  roce : Bool := false
  psn : W32 := 0
  tag : W32 := 0
  kind : InbKind
  fenced : Bool := false
  win : Nat
  w : Win
  addr : Nat
  len : Nat
  left : Nat := 0
  status : Nat := 0
  data : Bytes := []
  parts : List (Nat × Bytes × List Bool) := []
  last : Bool := false
  back : Bool := false
deriving DecidableEq, Repr

/-- A queue pair (R394) with its progress: the PSN expected, the message sequence number, where the message under way writes
next and how much of it is left, the window that it writes, the SENDs delivered, and the tick of the last CNP. -/
structure Qp where
  entry : Bytes
  epsn : Nat
  msn : Nat := 0
  cursor : Nat := 0
  togo : Nat := 0
  win : Nat := 0
  inMsg : Nat := 0
  msgLen : Nat := 0
  delivered : Nat := 0
  cnpAt : Option Nat := none
  clearing : Bool := false
deriving DecidableEq, Repr

/-- A packet for the wire: its TYPE, the remote port that it goes to, and the local partition under whose key it is sent. -/
structure WirePkt where
  type : Nat
  rport : Nat
  part : Option Nat
  pkt : Packet
deriving DecidableEq, Repr

/-- A cantle port beyond its registers: the priorities that the far side paused, and the packets held on it. -/
structure PortQ where
  paused : Nat := 0
  held : List WirePkt := []
deriving DecidableEq, Repr

/-- The peer engine: conduits by node, outbound and inbound requests, windows and queue pairs, ports by cantle, the windows
whose clearing waits for inbound accesses, by cantle slot, and the conduits that the cantles cache, the last used first (R375). -/
structure Peer where
  conduits : Smap Conduit := []
  reqs : List RemReq := []
  nextReq : Nat := 1
  inb : List Inbound := []
  nextInb : Nat := 0
  wins : Smap Win := []
  qps : Smap Qp := []
  ports : Smap PortQ := []
  clears : List (Nat × Nat) := []
  cached : List Nat := []
deriving DecidableEq, Repr

/-- An SPDM session (R456): whether FINISH was accepted, the partition that it bound (R457), its transcript hash, and how often its
keys were updated. -/
structure Session where
  sid : Nat
  secured : Bool := false
  bound : Option Nat := none
  th : BitVec 384 := 0
  updates : Nat := 0
deriving DecidableEq, Repr

/-- The keys of a key slot, which no register shows (R460, R461): the number of its private share while one waits for the remote one,
the current key, and the new one. -/
structure KeyMat where
  share : Option Nat := none
  cur : Option (BitVec 256) := none
  next : Option (BitVec 256) := none
deriving DecidableEq, Repr

/-- Partitions and keys (R353, R456 to R464) beyond their registers: PSNs used under the key sent and the keys, by key slot; the SPDM
responder's progress (1 after GET_VERSION, 2 after GET_CAPABILITIES, 3 after NEGOTIATE_ALGORITHMS), the version agreed and the
transcript so far; the sessions; the state of the IDE streams' keys, by pommel × 2 (CXL.io) and × 2 + 1 (CXL.cache): 0 none, 1
programmed, 2 secure. -/
structure Security where
  keyUses : Smap Nat := []
  keys : Smap KeyMat := []
  spdm : Nat := 0
  version : Nat := 0
  transcript : Bytes := []
  sessions : List Session := []
  ide : Smap Nat := []
deriving DecidableEq, Repr

/-- Telemetry (R71, R516 to R526): the two banks of the counter holding area by holding offset, with the partitions'
byte counts captured with each (R518); whether the snapshot in progress serves the SNAPSHOT command or ledger reads;
bytes moved per station, partition and direction (R450); trace records per station in the present window and the classes
they suppressed (R521); who holds the awl attachment (`true` the management endpoint), the tick of its last request, and the
partitions it touched (R523, R526); the power that a partition caused at a station by station × 64 + partition, and the
bytes counted at the station's last estimate (R519). -/
structure Telemetry where
  bank0 : Smap W32 := []
  bank1 : Smap W32 := []
  part0 : Smap Nat := []
  part1 : Smap Nat := []
  snapCmd : Bool := false
  moved : Smap Nat := []
  window : Smap Nat := []
  traceRate : Smap Nat := []
  traceGaps : List (Nat × Nat) := []
  traceArmed : Bool := true
  awlRoute : Option Bool := none
  awlLast : Nat := 0
  touched : List Nat := []
  partMw : Smap Nat := []
  estBase : Smap Nat := []
deriving DecidableEq, Repr

/-- Host loss beyond its registers (R505 to R510): the heartbeat lease's expiry tick, the length in force and whether an
unsupervised scan has flagged its expiry, the tenure token, the records deferred (pommel, address, bytes, Buckle source plus 1
or 0 for none),
whether descriptors in flight at the entry still run (R506), the tick of the last token mismatch that starts a window, the
tokens presented that wait for the entry to finish (R510), the partitions whose TDI unlocks once their work has paused
(R347), and whether the boot link fell to DOWN while the block ran. -/
structure Orphan where
  expiry : Nat := 0
  leaseLen : Nat := 2000000
  token : Nat := 0
  deferred : List (Nat × Nat × Bytes × Nat) := []
  draining : Bool := false
  mismatch : List Nat := []
  present : List Nat := []
  unlock : List Nat := []
  hbFlagged : Bool := false
  bootFell : Bool := false
deriving DecidableEq, Repr

end Sys2Proof.Machine
end

