-- ==== Sys2Proof/Machine/State.lean ====
section
/-! DEFINITION. The state of the block, and its value right after reset. -/

namespace Sys2Proof.Machine

/-- The block. `pending` is the queue of commands waiting, front first; `freeSeq` counts the free values drawn (the
model's own field); `out` holds what the block sent out of its ports, newest first (the model's own field). `ticks`
counts the ticks of the slowest timing oscillator since the last fundamental reset or power-up, and `clk` what the others counted
beyond it (R43, log entries 1 and 7). -/
structure State where
  pending : List Instr
  freeSeq : Nat
  out : List OutMsg
  power : Power
  ticks : Nat
  clk : Clock
  pins : Byte
  fuses : Fuses
  regs : Smap Trip
  odv : Smap Nat
  odb : Smap Bytes
  tags : Smap TagRec
  wear : Smap WearRec
  led : Ledger
  gw : Gw
  nodes : Smap Node
  mgmt : Mgmt
  bu : BringUp
  d2d : Smap D2d
  bkl : Buckle
  rcv : Recov
  roll : Roll
  dev : Mem
  host : Mem
  own : Smap W32
  cs : CtxSys
  qs : QueSys
  x : Xlat
  acc : AccSys
  flt : FaultSys
  res : ResSys
  dma : DmaSys
  cw : CwSys
  ep : Endpoint
  peer : Peer
  sec : Security
  orph : Orphan
  tel : Telemetry
deriving DecidableEq, Repr

/-- Why the block stops with a fault. -/
inductive Fault where
  /-- No meaning raises it: the spec gives every command an effect or says that nothing changes. Safe. -/
  | none
deriving DecidableEq, Repr

/-- Why the model has no meaning for a command. -/
inductive Refusal where
  /-- Raised by an arm of `exec` that has no meaning yet, with the command's mnemonic. Safe. -/
  | notModelled (mnemonic : String)
deriving DecidableEq, Repr

/-- The fuses of the model's part: a CHV-880 with every station, stack and guard fused in (R6, R491).
DESIGN CHOICE: the identity values, which the spec leaves to manufacture, are zero (log entry 4). -/
def fusesReset : Fuses :=
  { serial := 0, variant := 880, pkgVariant := 0, stations := 2 ^ 100 - 1, hbm := 255, guards := 2 ^ 128 - 1,
    svnMin := 0, prodLocked := false, paceFuse := 256, railMax := 850, vendor := 0, enterprise := 0, version := 0,
    certChain := [], deviceSecret := 0 }

/-- The block with its rails up and the fundamental reset input asserted: every register at its reset value, nothing
in flight. -/
def State.reset : State :=
  { pending := [], freeSeq := 0, out := [], power := .held, ticks := 0, clk := {}, pins := 0, fuses := fusesReset,
    regs := [], odv := [], odb := [], tags := [], wear := [], led := {}, gw := {}, nodes := [], mgmt := {}, bu := {},
    d2d := [], bkl := {}, rcv := {}, roll := {}, dev := {}, host := {}, own := [], cs := {}, qs := {}, x := {},
    acc := {}, flt := {}, res := {}, dma := {}, cw := {}, ep := {}, peer := {}, sec := {}, orph := {}, tel := {} }

end Sys2Proof.Machine
end

