-- ==== Sys2Proof/Machine/Operands.lean ====
section
/-! DEFINITION. The operand forms that commands share over the register words: the three copies of a word and their majority, a
word, a field of it, one bit, a 64-bit register, and counters that wrap or saturate. -/

namespace Sys2Proof.Machine

/-! ### Register words -/

/-- Bitwise majority of three copies (R65). -/
def maj (t : Trip) : W32 := (t.a &&& t.b) ||| (t.a &&& t.c) ||| (t.b &&& t.c)

/-- The three copies of the word at `off`. -/
def State.trip (s : State) (off : Nat) : Trip :=
  (sFind s.regs off).getD ⟨regReset off, regReset off, regReset off⟩

/-- The stored register word at `off`, voted (R65). -/
def State.rd (s : State) (off : Nat) : W32 := maj (s.trip off)

/-- Set the copies of the word at `off`; a word at its reset value is not listed. -/
def State.putTrip (s : State) (off : Nat) (t : Trip) : State :=
  { s with regs := sPut ⟨regReset off, regReset off, regReset off⟩ s.regs off t }

/-- Set the word at `off`, all three copies (R65). -/
def State.wr (s : State) (off : Nat) (v : W32) : State := s.putTrip off ⟨v, v, v⟩

/-- Bits [lo+w-1:lo] of the word at `off`. -/
def State.fld (s : State) (off lo w : Nat) : Nat := getBits (s.rd off) lo w

/-- Set bits [lo+w-1:lo] of the word at `off`, in each of its copies; no other bit of a copy is rewritten (R65). -/
def State.setFld (s : State) (off lo w x : Nat) : State :=
  let t := s.trip off
  s.putTrip off ⟨putBits t.a lo w x, putBits t.b lo w x, putBits t.c lo w x⟩

/-- Bit `b` of the word at `off`. -/
def State.bit (s : State) (off b : Nat) : Bool := (s.rd off).getLsbD b

/-- Set bit `b` of the word at `off`. -/
def State.setBit (s : State) (off b : Nat) (v : Bool) : State := s.setFld off b 1 (b2n v)

/-- Add to a 32-bit counter that wraps. -/
def State.inc (s : State) (off : Nat) (n : Nat := 1) : State := s.wr off (s.rd off + BitVec.ofNat 32 n)

/-- The 64-bit register whose low word is at `off`. -/
def State.rd64 (s : State) (off : Nat) : Nat := (s.rd off).toNat + 2 ^ 32 * (s.rd (off + 4)).toNat

/-- Set a 64-bit register. -/
def State.wr64 (s : State) (off v : Nat) : State :=
  (s.wr off (BitVec.ofNat 32 v)).wr (off + 4) (BitVec.ofNat 32 (v / 2 ^ 32))

/-- Add to a 64-bit counter that wraps. -/
def State.inc64 (s : State) (off n : Nat) : State := s.wr64 off ((s.rd64 off + n) % 2 ^ 64)

/-- Add to a 64-bit counter that saturates. -/
def State.inc64sat (s : State) (off n : Nat) : State := s.wr64 off (satAdd 64 (s.rd64 off) n)

end Sys2Proof.Machine
end

