-- ==== Sys2Proof/Machine/Flags.lean ====
section
/-! DEFINITION. The status flags that hardware sets, each with its set counter, and the reports of a refused or faulty access. -/

namespace Sys2Proof.Machine

/-- Hardware sets flag `b` of the status word at `off` and counts the set at `cnt` (R69, R70). -/
def State.raise (s : State) (off b cnt : Nat) : State := (s.setBit off b true).inc cnt

/-- As `State.raise`, for `n` set events at once. -/
def State.raiseN (s : State) (off b cnt n : Nat) : State := if n = 0 then s else (s.setBit off b true).inc cnt n

/-- Set flag `b` of BLK_STATUS (R61, R70). -/
def State.blkFlag (s : State) (b : Nat) : State := s.raise 0x14 b (0x20 + 4 * b)

/-- Set flag `b` of STN_STATUS of station `n` (R62, R70). -/
def State.stnFlag (s : State) (n b : Nat) : State := s.raise (pageOf n + 4) b (pageOf n + 0x10 + 4 * b)

/-- The station whose page holds BAR0 offset `off`. -/
def stationOf (off : Nat) : Option Nat :=
  if 0x100000 ≤ off ∧ off < 0x740000 then some ((off - 0x100000) / 0x10000) else none

/-- Set WRITE_WHILE_ENABLED for the page that holds `off`, and record the offset where `addr` says so (R63, R92). -/
def State.wwe (s : State) (off : Nat) (addr : Bool) : State :=
  match stationOf off with
  | some n =>
    let s := s.stnFlag n 0
    if addr then s.wr (pageOf n + 8) (BitVec.ofNat 32 (off % 0x10000)) else s
  | none =>
    let s := s.blkFlag 0
    if addr then s.wr 0x18 (BitVec.ofNat 32 off) else s

/-- A size fault or value fault: flag, offset and source (R59, R529). -/
def State.accessErr (s : State) (fn bar off : Nat) : State :=
  ((s.blkFlag 2).wr 0x48 (BitVec.ofNat 32 off)).wr 0x4C (BitVec.ofNat 32 (bar + fn * 16))

end Sys2Proof.Machine
end

