-- ==== Sys2Proof/Machine/Ops.lean ====
section
/-! DEFINITION. The named operations that every family shares: block and station status, memories, time tags, host paths,
side-stream messages, Buckle sources, error records, the floor plan. -/

namespace Sys2Proof.Machine

/-! ### Free values and messages -/

/-- Send a message out of a port. -/
def State.emit (s : State) (m : OutMsg) : State := { s with out := m :: s.out }

/-- The management endpoint has a response ready: it says so by an in-band interrupt, and the response is read (R88, R89). -/
def State.mgmtSay (s : State) (b : Bytes) : State := (s.emit (.i3c 1)).emit (.mctp b)

/-- Draw the next free value: its sequence number, and the state with the counter advanced. -/
def State.draw (s : State) : Nat × State := (s.freeSeq, { s with freeSeq := s.freeSeq + 1 })

/-! ### Timing oscillators (R43, R44) -/

/-- The ticks that the oscillator of station `n` has counted; the block-level parts use H0's (R48). -/
def State.tk (s : State) (n : Nat) : Nat := s.ticks + sGet 0 s.clk.drift (if n = 0x80 then 80 else n)

/-- The intervals that the state times by kind (R44): the heartbeat frame, a node's silent primary input, the
polls of a WAIT, the level snapshots, an idle port, the rate-share windows, the trace windows, the residency intervals, the power
estimates, the pommels' heartbeats, a stalled handshake, a girth dwell, a port's PCS alignment. -/
inductive Timer where
  | heartbeat | skipHop | poll | levels | idle | rateShare | trace | residency | power | hostBeat | stall | dwell | pcsAlign
deriving DecidableEq, Repr

/-- The key of a timer of a unit. -/
def Timer.key (t : Timer) (unit : Nat) : Nat := t.ctorIdx * 2 ^ 64 + unit

/-- The tick from which timer `t` of a unit counts. -/
def State.timerAt (s : State) (t : Timer) (unit : Nat) : Nat := sGet 0 s.clk.timers (t.key unit)

/-- Timer `t` of a unit counts from the present tick of station `n`. -/
def State.timerSet (s : State) (t : Timer) (unit n : Nat) : State :=
  { s with clk := { s.clk with timers := sPut 0 s.clk.timers (t.key unit) (s.tk n) } }

/-- Whether `len` ticks of station `n` have passed on timer `t` of a unit. -/
def State.timerDue (s : State) (t : Timer) (unit n len : Nat) : Bool := len ≤ s.tk n - s.timerAt t unit

/-! ### Block and station status -/

/-- BLK_STATE.STATE (R61). -/
def State.phase (s : State) : Nat := s.fld 0x08 0 4

/-- BLK_STATE.STEP (R61). -/
def State.stepNo (s : State) : Nat := s.fld 0x08 4 4

/-- Whether the block is in ORPHAN. -/
def State.inOrphan (s : State) : Bool := s.phase = 3

/-- BLK_ENABLE.HOST_WORK_EN (R61). -/
def State.hostWork (s : State) : Bool := s.bit 0x0C 0

/-- BLK_ENABLE.PEER_EN (R61). -/
def State.peerEn (s : State) : Bool := s.bit 0x0C 1

/-- STN_IDENT.PRESENT of station `n` (R21). -/
def State.present (s : State) (n : Nat) : Bool := s.bit (pageOf n) 12

/-- STN_IDENT.LAME of station `n`. -/
def State.lame (s : State) (n : Nat) : Bool := s.bit (pageOf n) 13

/-- STN_IDENT.IN_RESET of station `n`. -/
def State.inReset (s : State) (n : Nat) : Bool := s.bit (pageOf n) 14

/-- STN_IDENT.CORES_OK of station `n`, as a bit mask. -/
def State.coresOk (s : State) (n : Nat) : Nat := s.fld (pageOf n) 16 8

/-- A station that is in service (R21, R37). -/
def State.live (s : State) (n : Nat) : Bool := n < 100 && s.present n && !s.lame n && !s.inReset n

/-- LTG_RING_BROKEN, OD 0x7000.10 (R102). -/
def State.ringBrokenBit (s : State) : Bool := sGet 0 s.odv (0x7000 * 256 + 0x10) ≠ 0

/-! ### Memories -/

/-- Whether any 64 B line that the `n` bytes at `a` touch is marked poisoned. -/
def Mem.poisoned (m : Mem) (a n : Nat) : Bool :=
  n ≠ 0 && ((List.range ((a + n - 1) / 64 + 1 - a / 64)).any fun i => sGet false m.poison (a / 64 + i))

/-- The marks of the lines from line `l` on after a write that covers bytes `a` up to `e`: a line wholly covered takes
the mark of the data, a line partly covered keeps a mark it has (R180, R418). -/
def markLines (m : Smap Bool) (a e : Nat) (pz : Bool) (l : Nat) : Nat → Smap Bool
  | 0 => m
  | n + 1 =>
    let whole := a ≤ l * 64 && l * 64 + 64 ≤ e
    markLines (if whole then sPut false m l pz else if pz then sPut false m l true else m) a e pz (l + 1) n

/-- Write bytes, clean or poisoned, at `a`. -/
def Mem.write (m : Mem) (a : Nat) (bs : Bytes) (pz : Bool := false) : Mem :=
  if bs.isEmpty then m else
  { bytes := wrBytes m.bytes a bs,
    poison := markLines m.poison a (a + bs.length) pz (a / 64) ((a + bs.length - 1) / 64 + 1 - a / 64) }

/-- Read `n` bytes. -/
def Mem.read (m : Mem) (a n : Nat) : Bytes := rdBytes m.bytes a n

/-- The little-endian number of `n` bytes. -/
def Mem.num (m : Mem) (a n : Nat) : Nat := rdNat m.bytes a n

/-! ### Time tags (R48) -/

/-- The time-tag record of a station, or of the block-level parts as 0x80. -/
def State.tagRec (s : State) (st : Nat) : TagRec := sGet {} s.tags st

/-- Ticks since the last adoption, or since the block reset (R48), saturating. -/
def State.tagTicks (s : State) (st : Nat) : Nat := min (s.tk st - (s.tagRec st).adopted) (2 ^ 32 - 1)

/-- Issue a time tag of station `st`. -/
def State.tag (s : State) (st : Nat) : Bytes × State :=
  let r := s.tagRec st
  let sat := 2 ^ 32 ≤ s.tk st - r.adopted
  let b := leBytes 4 r.seq ++ leBytes 6 (if r.valid then r.epoch else 0) ++ leBytes 4 (s.tagTicks st) ++
    leBytes 1 st ++ leBytes 1 (b2n r.valid + 2 * b2n sat + 4 * b2n r.wrapped)
  let r' := { r with seq := (r.seq + 1) % 2 ^ 32, wrapped := r.wrapped || r.seq + 1 = 2 ^ 32 }
  (b, { s with tags := sPut {} s.tags st r' })

/-! ### Host paths -/

/-- The window-table entry (R309) at index `i` of an image: base, pages, flags. -/
def cwEntry (img : Bytes) (i : Nat) : Nat × Nat × Nat :=
  (fieldAt img (16 * i) 8, fieldAt img (16 * i + 8) 4, fieldAt img (16 * i + 12) 1)

/-- The flags of the window table for a host-physical address: COHERENT in bit 1, HOME_B in bit 2 (R309). -/
def State.hostClass (s : State) (a : Nat) : Nat :=
  let img := sGet [] s.odb (0x2000 * 256 + 0x41)
  let hit := (List.range 32).find? fun i =>
    let e := cwEntry img i
    e.2.2.testBit 0 && e.1 ≤ a && a < e.1 + e.2.1 * 4096
  match hit with
  | some i => (cwEntry img i).2.2
  | none => sGet 2 s.odv (0x2000 * 256 + 0x40)

/-- The die that homes a host address: 0 die A, 1 die B. -/
def State.homeDie (s : State) (a : Nat) : Nat := b2n ((s.hostClass a).testBit 2)

/-- Whether the link of pommel `k` is ACTIVE (R371). -/
def State.linkActive (s : State) (k : Nat) : Bool := s.fld (pmReg k 0x3080) 0 2 = 2

/-- Whether host traffic can leave through pommel `k` (R28): its link is ACTIVE with streams 1 to 3 started (R478), its
station is in service or not yet enabled, and no roll is visiting it (R440). -/
def State.pmUsable (s : State) (k : Nat) : Bool :=
  s.linkActive k && (sGet {} s.d2d k).streams && !s.lame (80 + k) && !(s.inReset (80 + k) && 9 ≤ s.stepNo) &&
    !(s.roll.visiting.any fun v => v.1 = 80 + k)

/-- The pommel through which an access from skirt `k` to `die` leaves (R28, R312). -/
def State.route (s : State) (k die : Nat) : Option Nat :=
  let p := if k / 2 = die then k else Nat.xor k 2
  if s.pmUsable p then some p else if s.pmUsable (Nat.xor p 1) then some (Nat.xor p 1) else none

/-- The next live pommel from `k` on in the order of R24: the pommel of skirt `k`, or the one that adopted it when that
was lost (R437). -/
def State.livePommel (s : State) (k : Nat) : Nat :=
  ((List.range 4).map fun i => (k + i) % 4).find? (fun j => s.present (80 + j) && !s.lame (80 + j)) |>.getD k

/-- The pommel that serves skirt `k`: its own, the one that adopted it (R437), or while a roll visits that one the next
(R440). -/
def State.server (s : State) (k : Nat) : Nat :=
  match sFind s.rcv.adopter k with
  | some a => s.livePommel a
  | none => s.livePommel k

/-- A host address that is never accessed (R309). -/
def hostRange (a n : Nat) : Bool := 2 ^ 52 < a + n

/-- The lines that `n` bytes at `a` touch. -/
def lineCount (a n : Nat) : Nat := if n = 0 then 0 else (a + n - 1) / 64 + 1 - a / 64

/-- Lines of a write that it covers only in part: on stream 1 each is merged under ownership and written back (R313,
R314). -/
def partLines (a n : Nat) : Nat :=
  if n = 0 then 0 else lineCount a n - ((a + n) / 64 - (a + 63) / 64)

/-- Count lines written through pommel `k` on a stream (R325). -/
def State.countWrite (s : State) (k stream lines : Nat) : State :=
  s.inc (pmReg k (if stream = 1 then 0x3010 else 0x3014)) lines

/-- A host-bound write is dropped in ORPHAN (R323). -/
def State.dropWrite (s : State) (k n : Nat) : State :=
  (s.raise (pmReg k 0x3000) 1 (pmReg k 0x3024)).inc (pmReg k 0x301C) n

/-- A control write of the block to host memory on stream 1, clean; it is dropped where no path exists (R28, R323), and where the
address is never accessed (R309). -/
def State.hostCtlWrite (s : State) (skirt a : Nat) (bs : Bytes) : State :=
  if hostRange a bs.length then s
  else match s.route skirt (s.homeDie a) with
  | none => s
  | some p =>
    if s.inOrphan then s.dropWrite p 1
    else { (s.countWrite p 1 (lineCount a bs.length)).inc (pmReg p 0x300C) (partLines a bs.length) with
           host := s.host.write a bs }

/-! ### Side streams (R361) -/

/-- The port record of pommel `k`. -/
def State.port (s : State) (k : Nat) : D2d := sGet {} s.d2d k

/-- Set the port record of pommel `k`. -/
def State.setPort (s : State) (k : Nat) (d : D2d) : State := { s with d2d := sPut {} s.d2d k d }

/-- Pommel `k` sends a side-stream message; SEQ counts per stream (R361). DESIGN CHOICE: the first message of a stream after a
fundamental reset carries SEQ 0 (log entry 32). -/
def State.sideMsg (s : State) (k stream type param : Nat) (pl : Bytes) : State :=
  let d := s.port k
  let n := if stream = 3 then d.seq3 else if stream = 4 then d.seq4 else d.seq5
  let v := (n + 1) % 256
  let d := if stream = 3 then { d with seq3 := v } else if stream = 4 then { d with seq4 := v } else { d with seq5 := v }
  (s.setPort k { d with sent := s.tk (80 + k) }).emit (.side k stream type n param pl)

/-! ### Buckle (R402 to R406) -/

/-- The reset value of source `n`: the partition mailbox sources belong to their partition (R404, R411). -/
def srcReset (n : Nat) : Src :=
  if 0xC00 ≤ n ∧ n < 0xC80 then { part := (n - 0xC00) / 2, owned := true } else {}

/-- Source `n` of Buckle. -/
def Buckle.src (b : Buckle) (n : Nat) : Src := sGet (srcReset n) b.srcs n

/-- Set source `n`. -/
def Buckle.setSrc (b : Buckle) (n : Nat) (v : Src) : Buckle := { b with srcs := sPut (srcReset n) b.srcs n v }

/-- Target `t` of Buckle. -/
def Buckle.tgt (b : Buckle) (t : Nat) : Tgt := sGet {} b.tgts t

/-- The level of target `t` (R406). -/
def Buckle.level (b : Buckle) (t : Nat) : Bool :=
  (b.tgt t).en && b.srcs.any fun p =>
    p.2.st = .pending && p.2.target = some t && p.2.enable && (b.tgt t).thresh ≤ p.2.prio

/-- The target that set `m` gives next: the first after its pointer, wrapping, in the set and with EN = 1 (R405). -/
def Buckle.choose (b : Buckle) (m : Nat) : Option Nat :=
  let mask := sGet 0 b.tsets m
  let p := sGet 255 b.ptrs m
  ((List.range 256).map fun i => (p + 1 + i) % 256).find? fun t => mask.testBit t && (b.tgt t).en

/-- Set a status flag of Buckle with its set counter (R70). -/
def Buckle.flag (b : Buckle) (i : Nat) : Buckle :=
  let b := { b with status := b.status ||| (1#32 <<< i) }
  if i = 0 then { b with setcnt0 := b.setcnt0 + 1 } else if i = 1 then { b with setcnt1 := b.setcnt1 + 1 }
  else { b with setcnt2 := b.setcnt2 + 1 }

/-- Choose a target for the pending source `n` (R405); NO_TARGET sets where none qualifies. -/
def Buckle.assign (b : Buckle) (n : Nat) : Buckle :=
  let v := b.src n
  match b.choose v.set with
  | some t => { b.setSrc n { v with target := some t } with ptrs := sPut 255 b.ptrs v.set t }
  | none => (b.setSrc n { v with target := none }).flag 2

/-- The event of source `n` at Buckle (R402). -/
def Buckle.event (b : Buckle) (n : Nat) : Buckle :=
  let v := b.src n
  match v.st with
  | .idle => (b.setSrc n { v with st := .pending }).assign n
  | .pending => b
  | .inService => { b.flag 0 with lostLast := n }

/-- The pommel whose CARRIER bit is set for a die (R362). -/
def State.carrier (s : State) (die : Nat) : Option Nat :=
  ([2 * die, 2 * die + 1] : List Nat).find? fun k => s.bit (pmReg k 0x3080) 7

/-- Send LEVEL for each target whose level differs from the one last sent, over its die's carrier (R362); with no
carrier nothing is sent. -/
def State.sendLevels (s : State) : State :=
  (s.bkl.tgts.map Prod.fst ++ s.bkl.sent.map Prod.fst).foldl (fun s t =>
    let l := s.bkl.level t
    if l = sGet false s.bkl.sent t then s else
    match s.carrier (t / 128) with
    | none => s
    | some k =>
      { s.sideMsg k 3 1 (t % 128 + 256 * b2n l) [] with bkl := { s.bkl with sent := sPut false s.bkl.sent t l } }) s

/-- Apply a change to Buckle and send the levels that changed. -/
def State.onBkl (s : State) (f : Buckle → Buckle) : State := ({ s with bkl := f s.bkl } : State).sendLevels

/-- The event of Buckle source `n` (R402). -/
def State.irq (s : State) (n : Nat) : State := s.onBkl fun b => b.event n

/-- One word of LEVEL_SNAPSHOT for a die: the levels of 64 targets (R361). -/
def Buckle.snapWord (b : Buckle) (die w : Nat) : Nat :=
  (List.range 64).foldl (fun v i => v + 2 ^ i * b2n (b.level (die * 128 + w * 64 + i))) 0

/-- The carrier of a die sends both snapshot words (R362). -/
def State.levelSnapshot (s : State) (k : Nat) : State :=
  let die := k / 2
  let s := (s.sideMsg k 3 2 0 (leBytes 8 (s.bkl.snapWord die 0))).sideMsg k 3 2 1 (leBytes 8 (s.bkl.snapWord die 1))
  { s with bkl := { s.bkl with
      sent := s.bkl.tgts.foldl (fun m p => if p.1 / 128 = die then sPut false m p.1 (s.bkl.level p.1) else m)
        s.bkl.sent } }

/-- Choose the carrier of a die again, once streams run there (R362, R363): the lower-numbered pommel whose link is
ACTIVE. A pommel that becomes carrier sends both snapshot words. -/
def State.pickCarrier (s : State) (die : Nat) : State :=
  let ks : List Nat := [2 * die, 2 * die + 1]
  let want := ks.find? fun k => s.linkActive k && (s.port k).streams
  let old := s.carrier die
  if want = old then s else
  let s := ks.foldl (fun s k => s.setBit (pmReg k 0x3080) 7 (want = some k)) s
  match want with
  | some k => s.levelSnapshot k
  | none => s

/-! ### The error queue (R419 to R422) -/

/-- What an error record says: class, code, the object fields with their validity (R128), station, status, address and
DETAIL. -/
structure ErrInfo where
  cls : Nat
  code : Nat
  kind : Option Nat := none
  id : Option Nat := none
  gen : Option Nat := none
  ctx : Option Nat := none
  part : Option Nat := none
  station : Nat := 0x80
  status : Nat := 0
  addr : Nat := 0
  detail : Nat := 0

/-- The context record `c`. -/
def State.ctx (s : State) (c : Nat) : CtxRec := sGet {} s.cs.recs c

/-- Set the context record `c`. -/
def State.setCtx (s : State) (c : Nat) (r : CtxRec) : State := { s with cs := { s.cs with recs := sPut {} s.cs.recs c r } }

/-- The queue record `q`. -/
def State.que (s : State) (q : Nat) : QueueRec := sGet {} s.qs.recs q

/-- Set the queue record `q`. -/
def State.setQue (s : State) (q : Nat) (r : QueueRec) : State := { s with qs := { s.qs with recs := sPut {} s.qs.recs q r } }

/-- The size of the error queue in records. -/
def State.errSize (s : State) : Nat := 2 ^ s.fld 0x108 8 5

/-- Whether the error queue can take a record now: enabled, not in ORPHAN (R507), not full, and a host path. -/
def State.errRoom (s : State) : Bool :=
  s.bit 0x108 1 && !s.inOrphan && (s.rd 0x110 - s.rd 0x10C).toNat < s.errSize &&
    (s.route 0 (s.homeDie (s.rd64 0x100))).isSome

/-- Put 64 bytes of a record, without PHASE, into the next slot of the error queue (R419, R420). -/
def State.errPut (s : State) (b0 flags : Nat) (rest : Bytes) : State :=
  let tail := (s.rd 0x110).toNat
  let n := s.errSize
  let ph := if tail / n % 2 = 0 then 1 else 0
  let s := s.hostCtlWrite 0 (s.rd64 0x100 + tail % n * 64) (leBytes 1 b0 ++ leBytes 1 (flags + ph) ++ rest)
  (s.inc 0x110).irq 0xCE1

/-- The total of the records dropped since the last summary. -/
def State.errDropped (s : State) : Nat := s.rcv.drops.foldl (fun t p => t + p.2) 0

/-- Write the pending summary when the queue has room (R422). -/
def State.errSummary (s : State) : State :=
  if s.errDropped = 0 || !s.errRoom then s else
  let (tg, s) := s.tag 0x80
  let det := (List.range 8).foldl (fun b c => b ++ leBytes 2 (min (sGet 0 s.rcv.drops c) 0xFFFF)) []
  let s' := s.errPut 7 0 (leBytes 2 0x0701 ++ leBytes 1 0 ++ leBytes 1 0 ++ leBytes 1 0x80 ++ leBytes 1 0 ++
    leBytes 16 0 ++ leBytes 8 s.errDropped ++ det ++ tg)
  { s' with rcv := { s'.rcv with drops := [] } }

/-- Drop a record of class `c` into the pending summary (R422). -/
def State.errDrop (s : State) (c : Nat) : State :=
  let s := s.inc (0x120 + 4 * c)
  let was := s.bit 0x114 0
  let s := s.raise 0x114 0 0x118
  let s := { s with rcv := { s.rcv with drops := sMod 0 s.rcv.drops c (· + 1) } }
  if was then s else s.irq 0xCE2

/-- Count an error in the context that it is bound to (R107, R128). -/
def State.errCount (s : State) (c : Option Nat) : State :=
  match c with
  | some c => s.setCtx c { s.ctx c with errors := satAdd 32 (s.ctx c).errors 1 }
  | none => s

/-- Write the record of an error, or drop it (R128, R420, R422). -/
def State.errWrite (s : State) (e : ErrInfo) : State :=
  let s := s.errSummary
  if !s.errRoom then s.errDrop e.cls else
  let (tg, s) := s.tag e.station
  let fl := 2 * b2n e.kind.isSome + 4 * b2n e.id.isSome + 8 * b2n e.gen.isSome + 16 * b2n e.ctx.isSome +
    32 * b2n e.part.isSome
  s.errPut e.cls fl (leBytes 2 e.code ++ leBytes 1 (e.kind.getD 0) ++ leBytes 1 (e.part.getD 0) ++
    leBytes 1 e.station ++ leBytes 1 e.status ++ leBytes 4 (e.id.getD 0) ++ leBytes 4 (e.gen.getD 0) ++
    leBytes 4 (e.ctx.getD 0) ++ leBytes 4 0 ++ leBytes 8 e.addr ++ leBytes 16 e.detail ++ tg)

/-- Detect an error: count it in its context, and write its record or drop it (R128, R420, R422). -/
def State.err (s : State) (e : ErrInfo) : State := (s.errCount e.ctx).errWrite e

/-- OD 0x7000.01 CORR_RECORDS (R414). -/
def State.corrRecords (s : State) : Bool := sGet 0 s.odv (0x7000 * 256 + 1) ≠ 0

/-- An error bound to queue `q`, whose own context and partition it names (R128). -/
def State.errQueue (s : State) (q : Nat) (cls code station status addr detail : Nat) : State :=
  let r := s.que q
  s.err { cls := cls, code := code, kind := some 2, id := some q, gen := some r.gen,
          ctx := if r.priv then none else some r.ctx, part := if r.priv then none else some r.part,
          station := station, status := status, addr := addr, detail := detail }

/-- An error bound to context `c` (R128). -/
def State.errCtx (s : State) (c : Nat) (cls code station status addr detail : Nat) : State :=
  s.err { cls := cls, code := code, kind := some 1, id := some c, gen := some (s.ctx c).gen, ctx := some c,
          part := some (s.ctx c).part, station := station, status := status, addr := addr, detail := detail }

/-- A host address that is never accessed writes a record, bound to the context of the access where it has one (R309, R128). -/
def State.rangeRec (s : State) (c : Option Nat) (station a n : Nat) : State :=
  if !hostRange a n then s
  else match c with
  | some c => s.errCtx c 3 0x0307 station 5 a 0
  | none => s.err { cls := 3, code := 0x0307, station := station, status := 5, addr := a }

/-! ### Votes (R65) -/

/-- Correct the copies of one triplicated field that differ from the majority (R65). The record is of class CORRECTED and is
written only while CORR_RECORDS is 1 (R414, R421). -/
def State.voteFld (s : State) (off : Nat) (f : Fld) : State :=
  let t := s.trip off
  let v := getBits (maj t) f.lo f.w
  if !f.tv || getBits t.a f.lo f.w = v && getBits t.b f.lo f.w = v && getBits t.c f.lo f.w = v then s else
  let s := s.setFld off f.lo f.w v
  let s := match stationOf off with
    | some n => (s.stnFlag n 1).inc (pageOf n + 0x0C)
    | none => (s.blkFlag 1).inc 0x1C
  if s.corrRecords then
    s.err { cls := 1, code := 0x0102, station := (stationOf off).getD 0x80, addr := off }
  else s

/-- Correct every triplicated field of the word at `off`, each counted by itself (R65). -/
def State.vote (s : State) (off : Nat) : State := (regFields off).foldl (fun s f => s.voteFld off f) s

/-! ### The floor plan (R39) -/

/-- A change of the floor plan: count it, write FP_GEN of the stations whose entry changed, raise the event. -/
def State.fpEvent (s : State) (changed : List Nat) : State :=
  let s := s.inc 0x10
  let g := s.fld 0x10 0 8
  let s := changed.foldl (fun s n => s.setFld (pageOf n) 24 8 g) s
  (s.blkFlag 3).irq 0xCE0

/-- Write a UNIT_LAME record and raise the floor-plan event for a unit of station `n` (R435). -/
def State.unitLame (s : State) (n kind unit : Nat) (changed : List Nat) : State :=
  (s.err { cls := 6, code := 0x0603, station := n, detail := kind + 256 * unit }).fpEvent changed

/-! ### Command records (R103) -/

/-- The command record of OD 0xF000.`ss`. -/
def State.cmd (s : State) (ss : Nat) : CmdRec := sGet {} s.gw.cmds ss

/-- Set a command record. -/
def State.setCmd (s : State) (ss : Nat) (c : CmdRec) : State := { s with gw := { s.gw with cmds := sPut {} s.gw.cmds ss c } }

/-- End the command at 0xF000.`ss`: OK gives DONE, another status FAILED; its Buckle source is raised (R103). -/
def State.cmdEndPhase (s : State) (ss phase status state : Nat) : State :=
  (s.setCmd ss { s.cmd ss with phase := phase, status := status, state := state }).irq (0xC87 + ss)

/-- End a command: DONE with OK, FAILED with any other status. -/
def State.cmdEnd (s : State) (ss status state : Nat) : State :=
  s.cmdEndPhase ss (if status = 0 then 2 else 3) status state

/-- Whether command `ss` is RUNNING. -/
def State.cmdRunning (s : State) (ss : Nat) : Bool := (s.cmd ss).phase = 1

/-- The first `w` bytes at `o` of a command's argument. -/
def State.cmdArg (s : State) (ss o w : Nat) : Nat := fieldAt (s.cmd ss).arg o w

/-! ### Status codes (R130) -/

/-- The status codes. -/
inductive St where
  | ok | invalid | notNow | noResource | denied | fault | checksum | poison | aborted | timeout | stale | lame
deriving DecidableEq, Repr

/-- The code of a status. -/
def St.code : St → Nat
  | .ok => 0 | .invalid => 1 | .notNow => 2 | .noResource => 3 | .denied => 4 | .fault => 5 | .checksum => 6
  | .poison => 7 | .aborted => 8 | .timeout => 9 | .stale => 10 | .lame => 11

/-- The block after a command that acts on a block that is up: nothing such a command does touches the commands that
wait, the supply, the time that the oscillators have counted or the strap pins; those change by the supply, the
fundamental reset, the straps and the tick alone (R2, R4, R43). -/
def State.after (s u : State) : State :=
  { u with pending := s.pending, power := s.power, ticks := s.ticks, pins := s.pins,
           clk := { u.clk with drift := s.clk.drift } }

/-- Only a block that is powered and out of the fundamental reset acts (R2, R4, R35). -/
def State.whenUp (s : State) (f : State → State) : State := if s.power = .up then s.after (f s) else s

/-- What the meanings answer. -/
abbrev Out := Host.Outcome State Fault Refusal

/-- The answer of a command that only a block that is up takes. -/
def up (s : State) (f : State → State) : Out := .next (s.whenUp f)

/-- The answer of a command that a block that is not up answers too, with the message `m` (R4, R35). -/
def upElse (s : State) (m : OutMsg) (f : State → State) : Out :=
  .next (if s.power = .up then s.after (f s) else s.emit m)

end Sys2Proof.Machine
end

