-- ==== Sys2Proof/Machine/DictTab.lean ====
section
/-! DEFINITION. The object dictionary's table: one descriptor per entry (R77 to R80 and the tables of each chapter). -/

namespace Sys2Proof.Machine

/-- Types of entries (R78). -/
inductive OdTy where
  | u8 | u16 | u32 | u64 | i32 | i64 | bool | bits32 | str | octet | time48 | domain
deriving DecidableEq, Repr

/-- Type codes (R78). -/
def OdTy.code : OdTy → Nat
  | .u8 => 1 | .u16 => 2 | .u32 => 3 | .u64 => 4 | .i32 => 5 | .i64 => 6 | .bool => 7 | .bits32 => 8
  | .str => 9 | .octet => 10 | .time48 => 11 | .domain => 12

/-- Size of a scalar type in bytes (R78); 0 for the others. -/
def OdTy.size : OdTy → Nat
  | .u8 => 1 | .u16 => 2 | .u32 => 4 | .u64 => 8 | .i32 => 4 | .i64 => 8 | .bool => 1 | .bits32 => 4
  | .time48 => 6 | .str => 0 | .octet => 0 | .domain => 0

/-- Access codes of entries (R14), in the order of R80. -/
inductive OdAcc where
  | ro | rw | rwd | wo | const
deriving DecidableEq, Repr

/-- Codes of R80. -/
def OdAcc.code : OdAcc → Nat
  | .ro => 0 | .rw => 1 | .rwd => 2 | .wo => 3 | .const => 4

/-- The owning units of RWD entries (R63, R92). -/
inductive OdUnit where
  | none
  | ctxCache
  | queSched
  | stamp
  | faultSvc
  | residency
  | router
  | partition (p : Nat)
  | ixcia
  | trace
deriving DecidableEq, Repr

/-- How an entry's Range restricts a scalar value beyond MIN and MAX. -/
inductive Rng where
  | any
  | zeroOr
  | oneOf (l : List Nat)
  | mask (m : Nat)
  | aligned (a : Nat)
  | devAligned (a : Nat)
  | devPool (log2Key log2Unit : Nat)
  | hostRing (log2Key log2Unit : Nat)
deriving DecidableEq, Repr

/-- The descriptor of an entry (R80): type, access, length (fixed size of an OCTET, or the maximum), default, least and
greatest value, further range, owning unit. -/
structure OdRow where
  ty : OdTy
  acc : OdAcc
  len : Nat := 0
  dflt : Nat := 0
  min : Nat := 0
  max : Nat := 0
  rng : Rng := .any
  unit : OdUnit := .none
deriving DecidableEq, Repr

/-- A numeric row. -/
def num (ty : OdTy) (acc : OdAcc) (dflt min max : Nat) (unit : OdUnit := .none) (rng : Rng := .any) : OdRow :=
  { ty := ty, acc := acc, len := ty.size, dflt := dflt, min := min, max := max, rng := rng, unit := unit }

/-- A row of bytes or bulk data. -/
def blob (ty : OdTy) (acc : OdAcc) (len : Nat) (unit : OdUnit := .none) : OdRow :=
  { ty := ty, acc := acc, len := len, unit := unit }

/-- The greatest U64. -/
def maxU64 : Nat := 2 ^ 64 - 1

/-- The greatest U32. -/
def maxU32 : Nat := 2 ^ 32 - 1

/-- Entries at 0x1000 (R105). -/
def od1000 (sub : Nat) : Option OdRow :=
  match sub with
  | 0x01 => some (blob .str .const 256)
  | 0x02 => some (blob .str .const 256)
  | 0x03 => some (num .u16 .const 0 0 0xFFFF)
  | 0x04 => some (num .u32 .const 0 0 maxU32)
  | 0x05 => some (num .u64 .const 0 0 maxU64)
  | 0x06 => some (blob .octet .ro 13)
  | 0x07 => some (blob .octet .ro 13)
  | 0x08 => some (num .u32 .ro 0 0 maxU32)
  | 0x09 => some (blob .octet .ro 100)
  | 0x0A => some (blob .octet .ro 10)
  | 0x0B => some (num .bits32 .ro 0 0 0xFF)
  | 0x0C => some (num .u64 .ro 0 0 maxU64)
  | 0x0D => some (num .u32 .const 65536 0 maxU32)
  | 0x0E => some (num .u32 .const 1048576 0 maxU32)
  | 0x0F => some (num .u8 .const 64 0 255)
  | 0x10 => some (num .u16 .const 16384 0 0xFFFF)
  | 0x11 => some (num .u16 .const 0 0 0xFFFF)
  | 0x12 => some (num .u32 .const 0 0 maxU32)
  | 0x13 => some (num .u32 .const 0 1 32768)
  | 0x14 => some (blob .octet .ro 16)
  | _ => none

/-- Entries at 0x2000 (R49, R106, R136, R310, R358, R494, R514). -/
def od2000 (sub : Nat) : Option OdRow :=
  match sub with
  | 0x10 => some (num .time48 .wo 0 0 (2 ^ 48 - 1))
  | 0x20 => some (num .u64 .rwd 0 0 maxU64 .ctxCache (.devAligned 4096))
  | 0x21 => some (num .u8 .rwd 12 12 20 .ctxCache)
  | 0x22 => some (num .u32 .ro 0 0 1048576)
  | 0x23 => some (num .u64 .ro 0 0 maxU64)
  | 0x24 => some (num .u16 .ro 0 0 1024)
  | 0x30 => some (num .u64 .rwd 0 0 maxU64 .queSched (.devAligned 4096))
  | 0x31 => some (num .u64 .rwd 0 0 (2 ^ 52 - 1) .queSched (.aligned 4096))
  | 0x32 => some (num .u8 .rwd 8 4 16 .queSched)
  | 0x33 => some (num .u64 .rwd 0 0 (2 ^ 52 - 1) .queSched (.aligned 64))
  | 0x34 => some (num .u64 .rwd 0 0 (2 ^ 52 - 1) .queSched (.aligned 4096))
  | 0x35 => some (num .u8 .rwd 8 4 16 .queSched)
  | 0x36 => some (num .bool .rw 0 0 1)
  | 0x37 => some (num .u32 .ro 0 0 16384)
  | 0x40 => some (num .u8 .rwd 2 0 6 .router (.mask 6))
  | 0x41 => some (blob .domain .rwd 512 .router)
  | 0x50 => some (num .u8 .rwd 0 0 1 .router)
  | 0x51 => some (num .u32 .rw 50000 1000 10000000)
  | 0x52 => some (num .u16 .rw 20 4 65535 .none .zeroOr)
  | 0x53 => some (num .u8 .ro 0 80 82)
  | 0x60 => some (num .u64 .ro 0 0 maxU64)
  | 0x70 => some (num .u16 .const 0 0 0xFFFF .none (.oneOf [205, 256]))
  | 0x71 => some (num .u16 .rw 256 64 256)
  | 0x72 => some (num .u16 .const 0 0 0xFFFF .none (.oneOf [775, 850]))
  | 0x73 => some (num .bool .ro 0 0 1)
  | 0x80 => some (blob .domain .rw 1048576)
  | 0x81 => some (num .u32 .const 0 0 maxU32)
  | 0x90 => some (blob .domain .ro 19776)
  | 0x91 => some (num .bits32 .rw 0 0 0xFFFFF .none (.mask 0xFFFFF))
  | 0x92 => some (num .u32 .rw 120000 10000 10000000)
  | 0x93 => some (num .u32 .rw 10000 1000 1000000)
  | 0x94 => some (num .u8 .rw 9 6 15)
  | 0x95 => some (num .u8 .rw 6 3 9)
  | 0x96 => some (num .bool .ro 0 0 1)
  | 0xA0 => some (blob .octet .ro 8)
  | 0xB0 => some (num .u32 .rw 1000000 10000 100000000)
  | _ => none

/-- Entries at 0x2F00 (R443). -/
def od2F00 (sub : Nat) : Option OdRow :=
  match sub with
  | 0x01 => some (num .u8 .ro 0 0 3)
  | 0x02 => some (blob .domain .rw 4096)
  | 0x03 => some (blob .domain .ro 400)
  | 0x04 => some (num .u32 .ro 0 0 maxU32)
  | 0x05 => some (num .u8 .rw 1 1 4)
  | 0x06 => some (num .u32 .rw 16000 1000 1000000)
  | _ => none

/-- Entries at 0x4000 + p (R445). -/
def od4000 (p sub : Nat) : Option OdRow :=
  match sub with
  | 0x01 => some (num .bool .rwd 0 0 1 (.partition p))
  | 0x02 => some (num .bool .rw 0 0 1)
  | 0x03 => some (num .bool .ro 0 0 1)
  | 0x04 => some (blob .octet .rwd 10 (.partition p))
  | 0x05 => some (num .u32 .rwd 0 0 1048575 (.partition p))
  | 0x06 => some (num .u32 .rwd 0 0 1048576 (.partition p))
  | 0x07 => some (num .u32 .rwd 1 1 65535 (.partition p))
  | 0x08 => some (num .u32 .rwd 0 0 65535 (.partition p))
  | 0x09 => some (num .u8 .rw 0 0 255)
  | 0x0A => some (num .u8 .rw 0 0 255)
  | 0x0B => some (num .bool .rwd 0 0 1 (.partition p))
  | 0x0C => some (num .bool .rwd 0 0 1 (.partition p))
  | 0x0D => some (num .u32 .ro 0 0 maxU32)
  | 0x0E => some (num .u16 .ro 0 0 512)
  | 0x20 => some (blob .octet .rw 32)
  | 0x30 => some (num .bool .wo 0 1 1)
  | _ => none

/-- Entries at 0x5000 (R183, R209, R237, R264). -/
def od5000 (sub : Nat) : Option OdRow :=
  if 0x10 ≤ sub ∧ sub ≤ 0x13 then some (num .u64 .rwd 0 0 maxU64 .stamp (.devPool 0x14 4096))
  else if 0x20 ≤ sub ∧ sub ≤ 0x23 then some (num .u64 .rwd 0 0 (2 ^ 52 - 1) .faultSvc (.hostRing 0x24 8))
  else if 0x30 ≤ sub ∧ sub ≤ 0x33 then some (num .u64 .rwd 0 0 maxU64 .residency (.devPool 0x34 1024))
  else match sub with
  | 0x01 => some (num .u8 .const 57 57 57)
  | 0x02 => some (num .u8 .const 5 5 5)
  | 0x03 => some (num .u64 .ro 0 0 201129984)
  | 0x04 => some (num .u64 .ro 0 0 maxU64)
  | 0x14 => some (num .u8 .rwd 12 8 12 .stamp)
  | 0x15 => some (num .u16 .rw 64 0 1024)
  | 0x16 => some (num .bool .rw 1 0 1)
  | 0x24 => some (num .u8 .rwd 10 10 18 .faultSvc)
  | 0x25 => some (num .u32 .rw 2000 100 1000000)
  | 0x26 => some (num .u32 .rw 4000000 10000 maxU32 .none .zeroOr)
  | 0x27 => some (num .u8 .rw 8 1 255)
  | 0x28 => some (num .u16 .rw 64 1 512)
  | 0x34 => some (num .u8 .rwd 12 10 16 .residency)
  | 0x35 => some (num .u8 .rw 6 0 12)
  | 0x36 => some (num .u32 .rw 100000 10000 10000000)
  | 0x37 => some (num .u8 .rw 16 1 255)
  | 0x38 => some (num .u16 .rw 2 1 65535)
  | 0x39 => some (num .u16 .rw 1024 1 65535)
  | 0x3A => some (num .u8 .rw 4 0 32)
  | 0x3B => some (num .u16 .rw 64 1 256)
  | 0x3C => some (num .bool .rw 0 0 1)
  | 0x3D => some (num .u16 .rw 8 1 65535)
  | _ => none

/-- Entries at 0x6000 (R400). -/
def od6000 (sub : Nat) : Option OdRow :=
  if 0x20 ≤ sub ∧ sub ≤ 0x2F then some (num .u32 .rwd 0 0 maxU32 .ixcia)
  else if 0x30 ≤ sub ∧ sub ≤ 0x3F then some (blob .octet .rwd 16 .ixcia)
  else match sub with
  | 0x01 => some (num .u16 .rwd 0 0 16383 .ixcia)
  | 0x02 => some (num .u16 .rwd 0 0 0xFFFF .ixcia)
  | 0x03 => some (num .u16 .rwd 0x88B5 0x0600 0xFFFF .ixcia)
  | 0x04 => some (num .u8 .rwd 5 0 7 .ixcia)
  | 0x05 => some (num .u16 .rwd 0 0 4094 .ixcia)
  | 0x06 => some (num .bits32 .rwd 0x20 0 0xFF .ixcia (.mask 0xFF))
  | 0x07 => some (num .u16 .rwd 4096 1024 4096 .ixcia (.oneOf [1024, 2048, 4096]))
  | 0x08 => some (num .u64 .rwd 0 0 maxU64 .ixcia (.devAligned 4096))
  | 0x09 => some (num .u64 .rwd 0 0 maxU64 .ixcia (.devAligned 4096))
  | 0x10 => some (num .u16 .rw 50 10 10000)
  | 0x11 => some (num .u8 .rw 15 1 255)
  | 0x12 => some (num .u32 .rw 8000000 100000 maxU32)
  | 0x13 => some (num .u32 .rw 4194304 65536 16777216)
  | 0x14 => some (num .bits32 .ro 0 0 0xFFFF)
  | 0x15 => some (num .u16 .ro 0 0 0xFFFF)
  | _ => none

/-- Entries at 0x7000 (R183, R443). -/
def od7000 (sub : Nat) : Option OdRow :=
  match sub with
  | 0x01 => some (num .bool .rw 0 0 1)
  | 0x10 => some (num .bool .ro 0 0 1)
  | 0x11 => some (blob .octet .ro 10)
  | 0x12 => some (num .u32 .ro 0 0 maxU32)
  | 0x30 => some (num .u16 .rw 1024 0 65535)
  | _ => none

/-- Entries at 0x8000 (R56). -/
def od8000 (sub : Nat) : Option OdRow :=
  match sub with
  | 0x01 => some (num .u8 .ro 0 0 1)
  | 0x02 => some (blob .domain .rw 6528)
  | 0x10 => some (num .u16 .ro 0 0 4096)
  | 0x11 => some (num .u16 .ro 0 0 2304)
  | 0x12 => some (num .u16 .ro 0 0 256)
  | 0x20 => some (num .time48 .ro 0 0 (2 ^ 48 - 1))
  | 0x21 => some (num .u32 .ro 0 0 maxU32)
  | _ => none

/-- Entries at 0xA000 (R528). -/
def odA000 (sub : Nat) : Option OdRow :=
  match sub with
  | 0x01 => some (blob .domain .const 4096)
  | 0x02 => some (num .u32 .ro 0 0 300000)
  | 0x03 => some (blob .octet .ro 200)
  | 0x04 => some (blob .octet .ro 200)
  | 0x05 => some (blob .octet .ro 200)
  | 0x06 => some (blob .octet .ro 128)
  | 0x10 => some (num .u64 .rwd 0 0 (2 ^ 52 - 1) .trace (.hostRing 0x11 32))
  | 0x11 => some (num .u8 .rwd 12 10 20 .trace)
  | 0x12 => some (num .bits32 .rw 0 0 0x3FF .none (.mask 0x3FF))
  | 0x13 => some (blob .octet .rw 13)
  | 0x14 => some (num .u32 .rw 256 1 1048576)
  | 0x15 => some (num .u16 .rw 64 1 4096)
  | 0x20 => some (num .u32 .rw 60000000 1000000 maxU32)
  | _ => none

/-- Entries at 0xF000 (R103, R494). -/
def odF000 (sub : Nat) : Option OdRow :=
  match sub with
  | 0x01 => some (num .u8 .wo 0 1 10)
  | 0x02 => some (num .bool .wo 0 1 1)
  | 0x03 => some (num .u32 .wo 0 0 maxU32)
  | 0x04 => some (num .u32 .wo 0 1 maxU32)
  | 0x05 => some (blob .octet .wo 16)
  | 0x06 => some (blob .octet .wo 16)
  | 0x07 => some (blob .octet .wo 16)
  | 0x08 => some (num .u32 .wo 0 0 maxU32)
  | _ => none

/-- The highest subindex implemented at an index (R77); `none` where the index is not implemented.
DEDUCED: the highest subindex of each index is the highest that its tables list (log entry 12). -/
def odHighest (idx : Nat) : Option Nat :=
  if idx = 0x1000 then some 0x14 else if idx = 0x2000 then some 0xB0 else if idx = 0x2F00 then some 6
  else if 0x3000 ≤ idx ∧ idx < 0x3064 then some 0x20 else if 0x4000 ≤ idx ∧ idx < 0x4040 then some 0x30
  else if idx = 0x5000 then some 0x3D else if idx = 0x6000 then some 0x3F else if idx = 0x7000 then some 0x30
  else if idx = 0x8000 then some 0x21 else if idx = 0x9000 then some 3
  else if 0x9100 ≤ idx ∧ idx < 0x9140 then some 2 else if idx = 0xA000 then some 0x20
  else if idx = 0xF000 then some 8 else none

/-- The descriptor of entry OD `idx`.`sub`. -/
def odRow (idx sub : Nat) : Option OdRow :=
  match odHighest idx with
  | none => none
  | some h =>
    if sub = 0 then some (num .u8 .const h h h)
    else if idx = 0x1000 then od1000 sub else if idx = 0x2000 then od2000 sub else if idx = 0x2F00 then od2F00 sub
    else if idx < 0x3064 then (if sub = 0x20 then some (num .u32 .ro 0 800000 1200000 .none .zeroOr) else none)
    else if idx < 0x4040 then od4000 (idx - 0x4000) sub
    else if idx = 0x5000 then od5000 sub else if idx = 0x6000 then od6000 sub else if idx = 0x7000 then od7000 sub
    else if idx = 0x8000 then od8000 sub
    else if idx = 0x9000 then (match sub with
      | 1 => some (blob .domain .ro 8192)
      | 2 => some (blob .octet .ro 288)
      | 3 => some (num .u8 .ro 0 0 8)
      | _ => none)
    else if idx < 0x9140 then (match sub with
      | 1 => some (blob .domain .ro 608)
      | 2 => some (num .bool .ro 0 0 1)
      | _ => none)
    else if idx = 0xA000 then odA000 sub else odF000 sub

/-- The key of an entry in `State.odv` and `State.odb`. -/
def odKey (idx sub : Nat) : Nat := idx * 256 + sub

/-- The stored value of a scalar entry, its default where nothing was written. -/
def State.odNum (s : State) (idx sub : Nat) : Nat :=
  match odRow idx sub with
  | some r => sGet r.dflt s.odv (odKey idx sub)
  | none => 0

/-- Store the value of a scalar entry. -/
def State.odSet (s : State) (idx sub v : Nat) : State :=
  let d := match odRow idx sub with
    | some r => r.dflt
    | none => 0
  { s with odv := sPut d s.odv (odKey idx sub) v }

/-- The stored bytes of an entry. -/
def State.odBytes (s : State) (idx sub : Nat) : Bytes := sGet [] s.odb (odKey idx sub)

/-- Store the bytes of an entry. -/
def State.odPutBytes (s : State) (idx sub : Nat) (b : Bytes) : State :=
  { s with odb := sPut [] s.odb (odKey idx sub) b }

/-- The number of enabled stacks (R105, R172). -/
def State.stackCount (s : State) : Nat := (List.range 8).foldl (fun n i => n + b2n (s.fuses.hbm.testBit i)) 0

/-- DEVMEM_BYTES, OD 0x1000.0C (R105). -/
def State.devBytes (s : State) : Nat := s.stackCount * 96 * 2 ^ 30

/-- The stack that holds a frame (R172). -/
def State.stackOf (s : State) (f : Nat) : Nat :=
  (((List.range 8).filter fun i => s.fuses.hbm.testBit i)[f % s.stackCount]?).getD 8


/-! ### The counter map (R517) -/

/-- The counters of station pages (R517): offset, width, and the kinds that carry it (1 stirrup, 2 pommel, 4 cantle). -/
def stationCounters : List (Nat × Nat × Nat) :=
  [(0x0C, 4, 7), (0x10, 4, 7), (0x14, 4, 7), (0x18, 4, 7), (0x1C, 4, 7), (0x410, 4, 2), (0x414, 4, 2), (0x418, 4, 2),
    (0x41C, 4, 2), (0x600, 8, 1), (0x608, 8, 1), (0x628, 4, 1), (0x62C, 4, 1), (0x630, 4, 1), (0x680, 8, 2),
    (0x688, 8, 2), (0x690, 8, 2), (0x698, 8, 2)] ++ ((List.range 6).map fun i => (0x6A0 + 4 * i, 4, 2)) ++
    ((List.range 5).map fun i => (0x78C + 4 * i, 4, 2)) ++ [(0x7A0, 4, 2), (0x7A4, 4, 2), (0x7A8, 4, 2), (0x7AC, 4, 2)] ++
    ((List.range 5).map fun i => (0x1104 + 4 * i, 4, 2)) ++ ((List.range 4).map fun i => (0x1120 + 4 * i, 4, 2)) ++
    [(0x201C, 4, 7), (0x2020, 4, 7), (0x2024, 4, 7), (0x2028, 8, 7), (0x2030, 8, 7), (0x2038, 4, 7), (0x203C, 4, 7)] ++
    ((List.range 5).map fun i => (0x2208 + 4 * i, 4, 7)) ++ [(0x2220, 8, 7)] ++
    ((List.range 5).map fun i => (0x2228 + 4 * i, 4, 7)) ++ ((List.range 8).map fun i => (0x3008 + 4 * i, 4, 2)) ++
    ((List.range 9).map fun i => (0x3048 + 4 * i, 4, 2)) ++ ((List.range 6).map fun i => (0x3088 + 4 * i, 4, 2)) ++
    [(0x30C4, 4, 2), (0x30D8, 8, 2), (0x30E0, 8, 2)] ++ ((List.range 5).map fun i => (0x4008 + 4 * i, 4, 4)) ++
    [(0x4020, 8, 4), (0x4028, 8, 4)] ++ ((List.range 11).map fun i => (0x4030 + 4 * i, 4, 4))

/-- TEL_COUNTER_MAP, OD 0xA000.01 (R517). -/
def counterMap : Bytes :=
  stationCounters.foldl (fun b e => b ++ leBytes 2 e.1 ++ leBytes 1 e.2.1 ++ leBytes 1 e.2.2) []

end Sys2Proof.Machine
end

