-- ==== Sys2Proof/Machine/Girth.lean ====
section
/-! DEFINITION. The girth gate's judgement of lanes and links (R482 to R486) and its report. -/

namespace Sys2Proof.Machine

/-- The result of one lane: 1 pass, 2 fail, 3 NO_LOCK (R483). -/
def laneResult (exp : Nat) (l : LaneMeas) : Nat :=
  if !l.locked then 3 else if (l.errors + 3) * 10 ^ exp ≤ l.bits then 1 else 2

/-- The judged lanes of a measurement. -/
def judgeLanes (exp : Nat) (m : PortMeas) : List (Nat × Nat × Nat) :=
  m.lanes.map fun l => (l.bits, l.errors, laneResult exp l)

/-- The 68 lanes of module `i` of a host port: 64 data lanes, then 4 spares. -/
def moduleLanes (ls : List (Nat × Nat × Nat)) (i : Nat) : List (Nat × Nat × Nat) := (ls.drop (68 * i)).take 68

/-- Data lanes of a module that did not pass. -/
def failedData (ls : List (Nat × Nat × Nat)) : Nat := ((ls.take 64).filter fun l => l.2.2 ≠ 1).length

/-- Spares of a module that passed. -/
def passingSpares (ls : List (Nat × Nat × Nat)) : Nat := ((ls.drop 64).filter fun l => l.2.2 = 1).length

/-- Whether a module is usable (R484): its failed data lanes number no more than its passing spares, and no more than
4. -/
def moduleUsable (ls : List (Nat × Nat × Nat)) : Bool :=
  ls.length = 68 && failedData ls ≤ passingSpares ls && failedData ls ≤ 4

/-- The result of a host port (R484). -/
def judgeHost (exp : Nat) (m : PortMeas) : LinkRes :=
  let ls := judgeLanes exp m
  let mods := (List.range 4).map (moduleLanes ls)
  let w := (mods.filter moduleUsable).length
  { verdict := if w = 4 then 1 else if w = 0 then 3 else 2, width := w,
    spares := mods.map fun q => if moduleUsable q then failedData q else 0,
    noLock := ls.any fun l => l.2.2 = 3, lanes := ls }

/-- The result of a cantle port (R484). -/
def judgeCantle (exp : Nat) (m : PortMeas) : LinkRes :=
  let ls := (judgeLanes exp m).take 8
  let ok := ls.length = 8 && ls.all (fun l => l.2.2 = 1) && m.uncorrectable = 0
  { verdict := if ok then 1 else 3, width := if ok then 8 else 0, spares := [], noLock := ls.any fun l => l.2.2 = 3,
    lanes := ls }

/-- The result of a link that no measurement could reach: no module or no alignment (R478, R479). -/
def linkFail : LinkRes := { verdict := 3, width := 0, spares := [], noLock := true, lanes := [] }

/-- The bad data lanes of module `i`, as HST_D2D_BADLANE_i marks them (R483). -/
def badMask (r : LinkRes) (i : Nat) : Nat :=
  (((moduleLanes r.lanes i).take 64).zipIdx).foldl (fun v e => if e.1.2.2 ≠ 1 then v + 2 ^ e.2 else v) 0

/-- The sum of a list. -/
def sumNat (l : List Nat) : Nat := l.foldl (· + ·) 0

/-- Link record `k` of the report (R485). -/
def State.linkRecord (s : State) (k : Nat) : Bytes :=
  match sFind s.bu.girth k with
  | none => leBytes 1 k ++ leBytes 15 0
  | some r =>
    let ori := k < 4 && s.bit (pmReg k 0x3080) 3
    let boot := k < 4 && (if s.bit (pmReg 0 0x30C8) 0 then k = 2 else k = 0)
    let acc := (sGet 0 s.odv (0x2000 * 256 + 0x91)).testBit k
    leBytes 1 k ++ leBytes 1 r.verdict ++ leBytes 1 r.width ++
      leBytes 1 ((r.lanes.filter fun l => l.2.2 ≠ 1).length) ++ leBytes 1 (sumNat r.spares) ++
      leBytes 1 (b2n ori + 2 * b2n boot + 4 * b2n acc + 8 * b2n r.noLock) ++ leBytes 2 0 ++
      leBytes 8 ((r.lanes.map Prod.fst).min?.getD 0)

/-- `n` lane records (R485). -/
def laneRecords (ls : List (Nat × Nat × Nat)) (n : Nat) : Bytes :=
  (List.range n).foldl (fun b i =>
    let l := (ls[i]?).getD (0, 0, 0)
    b ++ leBytes 8 l.1 ++ leBytes 4 (min l.2.1 (2 ^ 32 - 1)) ++ leBytes 1 l.2.2 ++ leBytes 3 0) []

/-- GIRTH_REPORT (R485); zero before the girth gate has run. -/
def State.girthReport (s : State) : Bytes :=
  if s.bu.girth.isEmpty then leBytes 19776 0
  else
    let ls (k : Nat) : List (Nat × Nat × Nat) := match sFind s.bu.girth k with
      | some r => r.lanes
      | none => []
    (List.range 20).foldl (fun b k => b ++ s.linkRecord k) [] ++
      (List.range 4).foldl (fun b k => b ++ laneRecords (ls k) 272) [] ++
      (List.range 16).foldl (fun b p => b ++ laneRecords (ls (4 + p)) 8) []

/-- GIRTH_WAIVED (R486): a cantle with verdict FAIL is accepted. -/
def State.girthWaived (s : State) : Bool :=
  s.bu.girth.any fun e => 4 ≤ e.1 && e.2.verdict = 3 && (sGet 0 s.odv (0x2000 * 256 + 0x91)).testBit e.1

end Sys2Proof.Machine
end

