-- ==== Sys2Proof/Machine/Dict.lean ====
section
/-! DEFINITION. Values of the object dictionary: what a read returns, the ledger image (R52), whether a value is in an
entry's range (R14, R78, R530), and owning units (R92). -/

namespace Sys2Proof.Machine

/-- Pack `n` Booleans into bytes, bit 0 first. -/
def packBits (n : Nat) (f : Nat → Bool) : Bytes :=
  leBytes ((n + 7) / 8) ((List.range n).foldl (fun v i => v + 2 ^ i * b2n (f i)) 0)

/-- GUARDS_PRESENT bit of guard `g`: GRD_STATE.IN_SERVICE (R105, R182). -/
def State.guardIn (s : State) (g : Nat) : Bool := s.bit (grdReg g 4) 0

/-- The register word of partition `p`'s map entry (R451). -/
def partReg (p off : Nat) : Nat := 0x1000 + p * 0x40 + off

/-- CONFIGURED of partition `p`. -/
def State.configured (s : State) (p : Nat) : Bool := s.bit (partReg p 0) 0

/-- The core that holds the duty of core `c` of station `n`: itself while live, else C7 when it is live and holds no other
duty, else the lowest live core (R23). -/
def State.dutyCore (s : State) (n c : Nat) : Nat :=
  match sFind s.rcv.duty (n * 8 + c) with
  | some d => d
  | none => c

/-- The bit of global core `n * 8 + c` in BLK_AWL_HALTED (R526). -/
def State.halted (s : State) (n c : Nat) : Bool := s.bit (0x390 + n / 4 * 4) (n % 4 * 8 + c)

/-- Whether core `c` of station `n` is live and at work: not in self-check, not being reset, not halted (R426, R430, R524). -/
def State.coreUp (s : State) (n c : Nat) : Bool :=
  (s.coresOk n).testBit c && !s.rcv.scrubbing.contains (1, n * 8 + c) && s.rcv.reset ≠ some (1, n, c) && !s.halted n c

/-- Whether the firmware of duty `d` runs at station `n`: the station is enabled, with its firmware loaded, and the core that holds
the duty is at work (R45, R470). -/
def State.firmwareUp (s : State) (n d : Nat) : Bool := s.live n && s.coreUp n (s.dutyCore n d)

/-- The station and core that supervise skirt `k` (R24). -/
def State.supervisor (s : State) (k : Nat) : Nat × Nat :=
  let p := s.livePommel k
  (80 + p, s.dutyCore (80 + p) 0)

/-- Key slots that partition `p` holds (R463): slots not EMPTY whose partition is `p`. -/
def State.keySlots (s : State) (p : Nat) : Nat :=
  ((List.range 512).filter fun i =>
    let w := s.rd (0x2800 + 4 * i)
    getBits w 0 3 ≠ 0 && getBits w 3 6 = p).length

/-- One station record of the ledger image (R52). -/
def wearBytes (w : WearRec) : Bytes :=
  (w.temps.foldl (fun b t => b ++ leBytes 4 (min (t / 10 ^ 12) (2 ^ 32 - 1))) []) ++ leBytes 2 (w.tempMax % 65536).toNat ++ leBytes 2 0 ++
    leBytes 4 w.retrains ++ leBytes 8 w.corrErr ++ leBytes 4 w.leaseBreaks ++ leBytes 16 0

/-- The ledger image (R52). -/
def State.ledgerImage (s : State) : Bytes :=
  leBytes 4 0x4C564843 ++ leBytes 2 1 ++ leBytes 2 100 ++ leBytes 8 s.fuses.serial ++ leBytes 2 s.fuses.powerCycles ++
    leBytes 46 0 ++ leBytes 8 (min (s.led.powerPs / 10 ^ 12) (2 ^ 64 - 1)) ++ leBytes 8 (s.led.hourPs / 10 ^ 6) ++ leBytes 8 s.led.corrErrTotal ++
    leBytes 4 s.led.leaseBreaksTotal ++ leBytes 4 s.led.restoreCount ++ leBytes 6 s.led.lastEpoch ++ leBytes 26 0 ++
    (List.range 100).foldl (fun b n => b ++ wearBytes (if s.fuses.stations.testBit n then sGet {} s.wear n else {})) []

/-- The record of a command as read (R103). -/
def cmdBytes (c : CmdRec) : Bytes :=
  leBytes 1 c.phase ++ leBytes 1 c.status ++ leBytes 1 c.state ++ leBytes 1 0 ++ leBytes 4 c.count ++
    leBytes 8 (leNat (c.arg.take 8))

/-- ASCII bytes of a text. -/
def asciiBytes (t : String) : Bytes := t.toList.map fun c => BitVec.ofNat 8 c.toNat

/-- The straps as latched (R365). -/
def State.straps (s : State) : Nat := s.fld (pmReg 0 0x30C8) 0 8

/-- The boot pommel (R327). -/
def State.bootPm (s : State) : Nat := if s.straps.testBit 0 then 2 else 0

/-- The length of the identity ROM table (R336): the 64-byte header and the records of R337. -/
def romLen : Nat := 736

/-- Entries that by-fuse values fill at step 2, zero before (R469, R470). -/
def State.afterStep2 (s : State) (v : Nat) : Nat := if 2 ≤ s.stepNo then v else 0

/-- Entries that by-fuse values fill at step 3. -/
def State.afterStep3 (s : State) (v : Nat) : Nat := if 3 ≤ s.stepNo then v else 0

/-- INCARNATION (R376): block resets since the last fundamental reset, and the power-cycle count, or once that counter is
full the value drawn at the fundamental reset. -/
def State.incarnation (s : State) : BitVec 16 :=
  let low := if 4096 ≤ s.fuses.powerCycles then (Config.free64 s.bu.incSeq).toNat % 4096 else s.fuses.powerCycles % 4096
  BitVec.ofNat 16 (s.bu.blockResets % 16 * 4096 + low)

/-! ### Measurements and reports (R458, R459) -/

/-- `n` bytes of a number, first byte most significant. -/
def beBytes (n v : Nat) : Bytes := (leBytes n v).reverse

/-- The security configuration that is hashed: the partition map, BLK_ENABLE and HOT_RESET_MODE, in that order. -/
def State.secConfig (s : State) : Bytes :=
  ((List.range 1024).flatMap fun i => leBytes 4 (s.rd (0x1000 + 4 * i)).toNat) ++ leBytes 4 (s.rd 0x0C).toNat ++
    leBytes 1 (s.odNum 0x2000 0x50)

/-- Digest `i` of the report: boot ROM, three station images, gateway image, security configuration (R458). -/
def State.digest (s : State) (i : Nat) : BitVec 384 :=
  if i = 0 then Config.bootRomDigest
  else if i = 5 then Config.sha384 s.secConfig
  else (s.bu.imageDigests[i - 1]?).getD 0

/-- The six digests. -/
def State.digests (s : State) : Bytes := (List.range 6).flatMap fun i => beBytes 48 (s.digest i).toNat

/-- The attestation key (R456): of the device secret and the digests of the boot ROM, the firmware images and the gateway image. -/
def State.attestKey (s : State) : BitVec 384 :=
  Config.attestKey s.fuses.deviceSecret (Config.sha384 ((List.range 5).flatMap fun i => beBytes 48 (s.digest i).toNat))

/-- Bytes 56 to 79 of a report: `touched` is AWL_TOUCHED_P. -/
def State.reportState (s : State) (touched : Bool) : Bytes :=
  leBytes 2 s.fuses.variant ++ leBytes 2 s.fuses.powerCycles ++ leBytes 2 s.straps ++ leBytes 2 0 ++
    leBytes 4 (b2n s.fuses.prodLocked + 2 * b2n (decide (bitsOf s.straps 4 1 = s.fuses.pkgVariant))) ++
    leBytes 4 (1 + 2 * b2n (s.bit 0x2000 2) + 4 * b2n (s.bit 0x2000 3) + 8 * b2n touched) ++
    leBytes 4 s.fuses.version ++ leBytes 4 0

/-- The session that is bound to partition `p`. -/
def State.boundTo (s : State) (p : Nat) : Option Session := s.sec.sessions.find? fun x => x.bound = some p

/-- The attestation report of partition `p` (R458). -/
def State.report (s : State) (p : Nat) (nonce : Bytes) : Bytes :=
  let c := s.rd (partReg p 0)
  let b := leBytes 4 0x54504552 ++ leBytes 2 1 ++ leBytes 2 608 ++ leBytes 1 p ++ leBytes 1 (getBits c 3 1) ++
    leBytes 1 (bitsOf s.straps 7 5) ++ leBytes 1 0 ++ leBytes 4 (s.rd 0x10).toNat ++ nonce.take 32 ++ leBytes (32 - nonce.length) 0 ++
    leBytes 8 s.fuses.serial ++ s.reportState (s.tel.touched.contains p) ++ s.digests ++
    leBytes 4 (s.rd (partReg p 0x14)).toNat ++ leBytes 4 (s.rd (partReg p 0x18)).toNat ++ leBytes 2 (s.rd (partReg p 0x1C)).toNat ++
    leBytes 2 0 ++ leBytes 4 (s.fld (partReg p 4) 0 20) ++ leBytes 4 (s.fld (partReg p 8) 0 21) ++
    leBytes 4 (s.fld (partReg p 0xC) 0 16) ++ leBytes 4 (s.fld (partReg p 0x10) 0 17) ++ leBytes 1 (getBits c 16 8) ++
    leBytes 1 (getBits c 24 8) ++ leBytes 1 (getBits c 0 1 + 2 * getBits c 3 1 + 4 * getBits c 4 1) ++ leBytes 1 (getBits c 8 3) ++
    leBytes 1 ((List.range 64).filter s.configured).length ++ leBytes 3 0 ++ leBytes 4 (s.rd 0x0C).toNat ++
    leBytes 1 (s.odNum 0x2000 0x50) ++ leBytes 7 0 ++
    beBytes 48 ((s.boundTo p).elim 0 (·.th)).toNat ++ beBytes 48 (Config.sha384 s.fuses.certChain).toNat
  b ++ beBytes 96 (Config.signEcdsa s.attestKey b).toNat

/-- The value of a numeric entry, wherever its home is. -/
def State.odVal (s : State) (idx sub : Nat) : Nat :=
  if sub = 0 then (odHighest idx).getD 0
  else if idx = 0x1000 then
    match sub with
    | 0x03 => s.afterStep2 s.fuses.variant
    | 0x04 => s.fuses.version % 2 ^ 24
    | 0x05 => s.afterStep2 s.fuses.serial
    | 0x08 => (s.rd 0x10).toNat
    | 0x0B => s.afterStep3 s.fuses.hbm
    | 0x0C => s.afterStep2 s.devBytes
    | 0x11 => s.straps
    | 0x12 => s.afterStep2 s.fuses.enterprise
    | 0x13 => romLen
    | _ => s.odNum idx sub
  else if idx = 0x2000 then
    match sub with
    | 0x22 => (s.cs.recs.filter fun p => p.2.state ≠ 0).length
    | 0x24 => (s.cs.recs.filter fun p => p.2.pinned).length
    | 0x37 => s.qs.resident.length
    | 0x53 => 80 + s.bootPm
    | 0x70 => s.fuses.paceFuse
    | 0x72 => s.fuses.railMax
    | 0x81 => s.fuses.svnMin
    | 0x96 => b2n s.girthWaived
    | _ => s.odNum idx sub
  else if idx = 0x2F00 ∧ sub = 1 then s.roll.state
  else if idx = 0x2F00 ∧ sub = 4 then s.roll.epoch
  else if 0x4000 ≤ idx ∧ idx < 0x4040 then
    let p := idx - 0x4000
    match sub with
    | 0x01 => s.fld (partReg p 0) 0 1
    | 0x02 => s.fld (partReg p 0) 1 1
    | 0x03 => s.fld (partReg p 0) 2 1
    | 0x05 => s.fld (partReg p 4) 0 20
    | 0x06 => s.fld (partReg p 8) 0 21
    | 0x07 => s.fld (partReg p 0xC) 0 16
    | 0x08 => s.fld (partReg p 0x10) 0 17
    | 0x09 => s.fld (partReg p 0) 16 8
    | 0x0A => s.fld (partReg p 0) 24 8
    | 0x0B => s.fld (partReg p 0) 3 1
    | 0x0C => s.fld (partReg p 0) 4 1
    | 0x0D => (s.rd (partReg p 0x20)).toNat
    | 0x0E => s.keySlots p
    | _ => s.odNum idx sub
  else if idx = 0x5000 ∧ sub = 3 then 16 * s.stackCount * 1571328
  else if idx = 0x5000 ∧ sub = 4 then 16 * s.stackCount * 1571328 * 4096
  else if idx = 0x6000 ∧ sub = 0x15 then s.incarnation.toNat
  else if idx = 0x6000 ∧ sub = 0x14 then
    (List.range 16).foldl (fun v p => v + 2 ^ p * b2n (s.fld (pageOf (84 + p) + 0x4000) 0 2 = 2)) 0
  else if idx = 0x9000 ∧ sub = 3 then s.sec.sessions.length
  else if 0x9100 ≤ idx ∧ idx < 0x9140 ∧ sub = 2 then b2n (s.boundTo (idx - 0x9100)).isSome
  else if idx = 0x8000 then
    match sub with
    | 0x01 => b2n s.led.restored
    | 0x10 => s.fuses.powerCycles
    | 0x11 => s.fuses.hourSteps
    | 0x12 => s.fuses.thermalTrips
    | 0x20 => (s.tagRec 80).epoch
    | 0x21 => s.tagTicks 80
    | _ => s.odNum idx sub
  else s.odNum idx sub

/-- The bytes of an STR, OCTET or DOMAIN entry. -/
def State.odBlob (s : State) (idx sub : Nat) : Bytes :=
  if idx = 0x1000 then
    match sub with
    | 0x01 => asciiBytes "Onoskand"
    | 0x02 => asciiBytes "Chovik"
    | 0x06 => packBits 100 s.present |>.take 13
    | 0x07 => packBits 100 s.lame |>.take 13
    | 0x09 => (List.range 100).map fun n => BitVec.ofNat 8 (s.coresOk n)
    | 0x0A => packBits 80 fun n => s.bit (pageOf n) 15
    | 0x14 => packBits 128 s.guardIn
    | _ => []
  else if idx = 0x2000 ∧ sub = 0x41 then
    let b := s.odBytes idx sub
    if b.isEmpty then leBytes 512 0 else b
  else if idx = 0x2000 ∧ sub = 0x90 then s.girthReport
  else if idx = 0x2000 ∧ sub = 0xA0 then
    let b := s.odBytes idx sub
    if b.isEmpty then leBytes 8 0 else b
  else if idx = 0x2F00 ∧ sub = 3 then (List.range 100).foldl (fun b n => b ++ leBytes 4 (sGet 0 s.roll.epochs n)) []
  else if 0x4000 ≤ idx ∧ idx < 0x4040 ∧ sub = 4 then
    let p := idx - 0x4000
    leBytes 4 (s.rd (partReg p 0x14)).toNat ++ leBytes 4 (s.rd (partReg p 0x18)).toNat ++
      leBytes 2 (s.rd (partReg p 0x1C)).toNat
  else if 0x4000 ≤ idx ∧ idx < 0x4040 ∧ sub = 0x20 then
    let b := s.odBytes idx sub
    if b.isEmpty then leBytes 32 0 else b
  else if idx = 0x6000 then
    let b := s.odBytes idx sub
    if b.isEmpty then leBytes 16 0 else b
  else if idx = 0x7000 ∧ sub = 0x11 then
    ((List.range 4).foldl (fun b k => b ++ [BitVec.ofNat 8 (s.supervisor k).1, BitVec.ofNat 8 (s.supervisor k).2]) []) ++
      [BitVec.ofNat 8 (s.supervisor 0).1, BitVec.ofNat 8 (s.supervisor 0).2]
  else if idx = 0x8000 ∧ sub = 2 then s.ledgerImage
  else if idx = 0x9000 ∧ sub = 1 then s.fuses.certChain
  else if idx = 0x9000 ∧ sub = 2 then s.digests
  else if 0x9100 ≤ idx ∧ idx < 0x9140 ∧ sub = 1 then leBytes 608 0
  else if idx = 0xA000 ∧ sub = 1 then counterMap
  else if idx = 0xA000 ∧ sub = 0x13 then
    let b := s.odBytes idx sub
    if b.isEmpty then leBytes 13 (2 ^ 100 - 1) else b
  else if idx = 0xA000 ∧ (sub = 3 ∨ sub = 4 ∨ sub = 5) then
    let b := s.odBytes idx sub
    if b.isEmpty then leBytes 200 0 else b
  else if idx = 0xA000 ∧ sub = 6 then
    let b := s.odBytes idx sub
    if b.isEmpty then leBytes 128 0 else b
  else s.odBytes idx sub

/-- The whole value of an entry, as a read returns it. -/
def State.odRead (s : State) (idx sub : Nat) (r : OdRow) : Bytes :=
  if idx = 0xF000 ∧ sub ≠ 0 then cmdBytes (s.cmd sub)
  else match r.ty with
    | .str => s.odBlob idx sub
    | .octet => s.odBlob idx sub
    | .domain => s.odBlob idx sub
    | t => leBytes t.size (s.odVal idx sub)

/-- Whether a scalar value lies in the entry's range, judged against the values in force (R14, R530). -/
def State.inRange (s : State) (r : OdRow) (v : Nat) : Bool :=
  (r.min ≤ v && v ≤ r.max || r.rng = .zeroOr && v = 0) &&
  match r.rng with
  | .any => true
  | .zeroOr => true
  | .oneOf l => l.contains v
  | .mask m => Nat.land v m = v
  | .aligned a => v % a = 0
  | .devAligned a => v % a = 0 && v < s.devBytes
  | .devPool k u => v % (2 ^ s.odNum 0x5000 k * u) = 0 && v < s.devBytes
  | .hostRing k u => v % (2 ^ s.odNum (if k = 0x11 then 0xA000 else 0x5000) k * u) = 0

/-- Whether a written value is well formed for its type and in range (R78, R14). -/
def State.valueOk (s : State) (r : OdRow) (b : Bytes) : Bool :=
  match r.ty with
  | .bool => leNat b ≤ 1 && s.inRange r (leNat b)
  | .str => b.all fun c => 0x20 ≤ c.toNat && c.toNat ≤ 0x7E
  | .octet => true
  | .domain => true
  | _ => s.inRange r (leNat b)

/-- Whether the length of a WRITE fits the entry (R85): the type's size, the fixed length of an OCTET; a STR of 1 to 256
bytes. -/
def lenOk (r : OdRow) (n : Nat) : Bool :=
  match r.ty with
  | .str => 1 ≤ n && n ≤ r.len
  | .octet => n = r.len
  | .domain => true
  | t => n = t.size

end Sys2Proof.Machine
end

