-- ==== Sys2Proof/Machine/Counters.lean ====
section
/-! DEFINITION. The counter holding area (R71, R516 to R518): which registers are counters, and where each lies. -/

namespace Sys2Proof.Machine

/-- The counters of the block control page, the mailbox slots and Buckle, in ascending BAR0 offset (R516).
DEDUCED: a register is a counter when its Behaviour, or the sentence above its table, says that it wraps or saturates
(log entry 13). -/
def blockCounters : List Nat :=
  [0x10, 0x1C, 0x20, 0x24, 0x28, 0x2C, 0x30, 0x44, 0x118, 0x11C] ++ ((List.range 12).map fun i => 0x120 + 4 * i) ++
    [0x154, 0x158, 0x22C, 0x230, 0x234, 0x23C, 0x244, 0x310, 0x314, 0x318, 0x384, 0x388, 0x604, 0x608] ++
    ((List.range 64).map fun p => partReg p 0x20) ++ [0x2008, 0x200C, 0x2010] ++
    ((List.range 4).map fun i => 0x10024 + 0x4000 * i) ++ [0x20004, 0x20008, 0x2000C]

/-- The kind bit of a station in TEL_COUNTER_MAP. -/
def kindBit (n : Nat) : Nat := kindCode (kindOf n)

/-- Where the counters of one station lie in its record: (holding offset, page offset), word by word (R517). -/
def stationLayout (kb : Nat) : List (Nat × Nat) :=
  (stationCounters.foldl (fun (acc : Nat × List (Nat × Nat)) e =>
    if !e.2.2.testBit kb then acc else
    let at_ := (acc.1 + e.2.1 - 1) / e.2.1 * e.2.1
    if e.2.1 = 8 then (at_ + 8, acc.2 ++ [(at_, e.1), (at_ + 4, e.1 + 4)]) else (at_ + 4, acc.2 ++ [(at_, e.1)]))
    (16, [])).2

/-- The word of a block counter: Buckle and the mailbox hold their own. -/
def State.blockCounter (s : State) (off : Nat) : W32 :=
  if off = 0x20004 then s.bkl.setcnt0 else if off = 0x20008 then s.bkl.setcnt1 else if off = 0x2000C then s.bkl.setcnt2
  else if 0x10000 ≤ off ∧ off < 0x20000 then (sGet {} s.gw.reqs ((off - 0x10000) / 0x4000)).setcnt
  else s.rd off

/-- The bank shown (R71). -/
def State.bank (s : State) : Smap W32 := if s.bit 0x40 2 then s.tel.bank1 else s.tel.bank0

/-- Put bytes of a multiple of four into a bank. -/
def bankPut (m : Smap W32) (off : Nat) : Bytes → Smap W32
  | a :: b :: c :: d :: bs => bankPut (sPut 0 m off (BitVec.ofNat 32 (leNat [a, b, c, d]))) (off + 4) bs
  | _ => m

/-- Fill a bank with every counter of the block (R71, R516); each station's record starts with its time tag (R517).
DESIGN CHOICE: every counter is captured at the one instant of publication (log entry 14). -/
def State.fillBank (s : State) : Smap W32 × State :=
  let m : Smap W32 := (blockCounters.zipIdx).foldl (fun m e => sPut 0 m (0x100 + 4 * e.2) (s.blockCounter e.1)) []
  let grd : List Nat := [0x08, 0x0C, 0x10, 0x24, 0x28, 0x2C, 0x30, 0x34]
  let m := (List.range 128).foldl (fun m g =>
    (grd.zipIdx).foldl (fun m e => sPut 0 m (0x800 + g * 0x40 + 4 * e.2) (s.rd (grdReg g e.1))) m) m
  (List.range 100).foldl (fun (acc : Smap W32 × State) n =>
    let (m, s) := acc
    if !s.present n || s.lame n then (m, s) else
    let (tg, s) := s.tag n
    let base := 0x2800 + n * 0x200
    ((stationLayout (kindBit n)).foldl (fun m e => sPut 0 m (base + e.1) (s.rd (pageOf n + e.2))) (bankPut m base tg), s))
    (m, s)

/-- The published value of a counter entry of the dictionary (R93): DOORBELL_DENIED of partition `p`. -/
def State.heldDenied (s : State) (p : Nat) : Nat :=
  match (blockCounters.zipIdx).find? fun e => e.1 = partReg p 0x20 with
  | some e => (sGet 0 s.bank (0x100 + 4 * e.2)).toNat
  | none => 0

end Sys2Proof.Machine
end

