-- ==== Sys2Proof/Machine/Gateway.lean ====
section
/-! DEFINITION. The Latigo gateway: mailbox slots, the judgement of a request (R530), DOMAIN segments (R87), the
service of an entry, forwarding to a station's node (R91, R97). -/

namespace Sys2Proof.Machine

/-! ### Requesters and slots (R82, R91) -/

/-- The number of a requester in the gateway's visiting order (R91). -/
def ridOf : Requester → Nat
  | .op k => k
  | .part p k => 4 + 2 * p + k
  | .mgmt => 132

/-- The state of requester `rid`. -/
def State.reqr (s : State) (rid : Nat) : Reqr := sGet {} s.gw.reqs rid

/-- Set the state of requester `rid`. -/
def State.setReqr (s : State) (rid : Nat) (r : Reqr) : State := { s with gw := { s.gw with reqs := sPut {} s.gw.reqs rid r } }

/-- The Buckle source of a slot (R404); the management endpoint has none. -/
def slotIrq (rid : Nat) : Option Nat :=
  if rid < 4 then some (0xC80 + rid) else if rid < 132 then some (0xC00 + (rid - 4)) else none

/-- The partition whose slot `rid` is. -/
def ridPart (rid : Nat) : Option Nat := if 4 ≤ rid ∧ rid < 132 then some ((rid - 4) / 2) else none

/-- Whether the requester exists: the view of a partition exists while it is configured (R326). -/
def State.ridLive (s : State) (rid : Nat) : Bool :=
  match ridPart rid with
  | some p => s.configured p
  | none => rid ≤ 132

/-- A write reached a slot while BUSY was 1 (R84). -/
def State.slotOverrun (s : State) (rid : Nat) : State :=
  let r := s.reqr rid
  s.setReqr rid { r with overrun := true, setcnt := r.setcnt + 1 }

/-- The bytes of a slot's data buffer. -/
def bufBytes (r : Reqr) (n : Nat) : Bytes := rdBytes r.buf 0 n

/-- A response of the management endpoint (R89). -/
def mctpRsp (s : State) (r : Reqr) (status state total : Nat) (data : Bytes) : Bytes :=
  leBytes 1 0x7F ++ leBytes 4 s.fuses.enterprise ++ leBytes 1 (r.op + 4 * b2n r.last) ++ leBytes 2 r.index ++
    leBytes 1 r.sub ++ leBytes 1 status ++ leBytes 4 total ++ leBytes 1 state ++ leBytes 1 0 ++
    leBytes 2 data.length ++ data

/-- Submit a request (R83 step 3): BUSY sets and DONE clears; a requester that is busy loses it (R84, R89). -/
def State.submit (s : State) (rid op index sub offset : Nat) (data : Bytes) (len : Nat) (last irq : Bool) : State :=
  let r := s.reqr rid
  if !s.ridLive rid then s
  else if r.phase ≠ .idle then
    if rid = 132 then
      s.mgmtSay (mctpRsp s { r with op := op, index := index, sub := sub, last := last } 2 2 0 [])
    else s.slotOverrun rid
  else
    let cmd : W32 := BitVec.ofNat 32 (op + 4 * b2n last + 8 * b2n irq + 0x100 * sub + 0x10000 * index)
    s.setReqr rid { r with
      phase := .waiting, op := op, index := index, sub := sub, offset := offset, data := data, len := len, last := last,
      irq := irq, cmdReg := cmd, offReg := BitVec.ofNat 32 offset, lenReg := BitVec.ofNat 32 len,
      buf := if op = 1 then wrBytes r.buf 0 data else r.buf,
      result := putBits r.result 0 2 1 }

/-- Complete a request (R83 step 5): reply data and RLEN, then STATUS, STATE, SEQ, then DONE = 1 and BUSY = 0; the
slot's source is raised when its IRQ bit was 1. A message of the management endpoint carries at most 256 bytes (R89). -/
def State.complete (s : State) (rid : Nat) (status : St) (state : Nat) (data : Bytes) (total : Option Nat := none) : State :=
  let r := s.reqr rid
  if rid = 132 then
    (s.setReqr rid { r with phase := .idle }).mgmtSay (mctpRsp s r status.code state (total.getD 0) (data.take 256))
  else
    let seq := (getBits r.result 24 8 + 1) % 256
    let s := s.setReqr rid { r with
      phase := .idle, buf := wrBytes r.buf 0 data, rlen := BitVec.ofNat 32 data.length,
      total := match total with
        | some t => BitVec.ofNat 32 t
        | none => r.total,
      result := BitVec.ofNat 32 (2 + 0x100 * status.code + 0x10000 * state + 0x1000000 * seq) }
    match r.irq, slotIrq rid with
    | true, some n => s.irq n
    | _, _ => s

/-! ### Rights (R79) -/

/-- Whether requester `rid` may read (`wr` false) or write an entry, by R79 alone, with what R459 opens to partitions. -/
def hasRight (rid idx sub : Nat) (wr : Bool) : Bool :=
  if rid < 4 then (if idx = 0x1000 then !wr else true)
  else match ridPart rid with
  | none => if idx = 0xF000 then sub = 2 || sub = 0 && !wr else !wr
  | some p =>
    if idx = 0x1000 then !wr
    else if idx = 0x4000 + p then !wr || sub = 0x20
    else if idx = 0x9100 + p then !wr
    else if idx = 0x9000 then !wr && (sub = 1 || sub = 2)
    else if idx = 0xA000 then !wr && (sub = 1 || sub = 6)
    else false

/-! ### Owning units (R92) -/

/-- Whether partition ranges or contexts keep ENABLED up (R446). -/
def State.partCtxFree (s : State) (p : Nat) : Bool :=
  let b := s.fld (partReg p 4) 0 20
  let n := s.fld (partReg p 8) 0 21
  s.cs.recs.all fun e => !(b ≤ e.1 && e.1 < b + n && e.2.state ≠ 0)

/-- Recompute ENABLED of partition `p` (R446): it rises with PART_EN, and falls when PART_EN is 0 and every context of
its range is FREE. -/
def State.partEnabled (s : State) (p : Nat) : State :=
  if s.bit (partReg p 0) 1 then s.setBit (partReg p 0) 2 true
  else if s.partCtxFree p then s.setBit (partReg p 0) 2 false else s

/-- Whether a host-bound access is in flight (R310): one that left, a read-back, a copy or writeback of the residency engine. -/
def State.hostInFlight (s : State) : Bool :=
  (s.acc.list.any fun a => a.kind = 1 && a.ph = .ready) ||
    (s.dma.chans.any fun e => e.2.stage = 3 && e.2.paths.any fun p => p.kind = 1 && !p.back) || s.res.migs.any fun e => e.2.stage = 4

/-- Whether the unit that owns an RWD entry is enabled (R63, R92). -/
def State.unitEnabled (s : State) (u : OdUnit) : Bool :=
  match u with
  | .none => false
  | .ctxCache => s.hostWork || s.cs.recs.any fun e => e.2.state ≠ 0
  | .queSched => s.hostWork || s.qs.recs.any fun e => e.2.state ≠ 0
  | .stamp => s.hostWork || !s.x.slots.isEmpty
  | .faultSvc => s.hostWork || !s.flt.entries.isEmpty
  | .residency => s.hostWork || s.res.ctxs.any fun e => e.2.total ≠ 0
  | .router => s.hostWork || s.hostInFlight
  | .partition p => s.bit (partReg p 0) 2
  | .ixcia => s.peerEn || s.peer.conduits.any fun e => !e.2.unacked.isEmpty
  | .trace => s.bit 0x300 1

/-! ### Images (R310, R439) -/

/-- Whether a window-table image is well formed (R310). -/
def cwImageOk (img : Bytes) : Bool :=
  let es := (List.range 32).map (cwEntry img)
  let valid (e : Nat × Nat × Nat) : Bool := e.2.2.testBit 0
  let ok (e : Nat × Nat × Nat) : Bool :=
    e.1 % 4096 = 0 && e.1 < 2 ^ 52 && e.2.2 < 8 &&
      (!valid e || 1 ≤ e.2.1 && e.1 + e.2.1 * 4096 < 2 ^ 52)
  img.length = 512 && es.all ok && ((List.range 32).all fun i => fieldAt img (16 * i + 13) 3 = 0) &&
    (es.zipIdx).all fun a => (es.zipIdx).all fun b =>
      !(a.2 < b.2 && valid a.1 && valid b.1) ||
        a.1.1 + a.1.2.1 * 4096 ≤ b.1.1 || b.1.1 + b.1.2.1 * 4096 ≤ a.1.1

/-- The RWD bits of a station-page word of station `n`. -/
def rwdMask (n o : Nat) : Nat :=
  (regFields (pageOf n + o)).foldl (fun v f => if f.acc = .rwd then v + (2 ^ f.w - 1) * 2 ^ f.lo else v) 0

/-- The stations that STATION byte `b` of a stage item names (R439). -/
def stageStations (b : Nat) : List Nat :=
  if b < 100 then [b] else if b = 0xFF then List.range 100
  else if 0xF0 ≤ b ∧ b < 0xF4 then (List.range 100).filter fun n => skirtOf n = b - 0xF0 else []

/-- Whether one stage item is well formed (R439): every set bit of MASK lies in an RWD field of every station named that
holds the word. -/
def stageItemOk (img : Bytes) (i : Nat) : Bool :=
  let st := fieldAt img (16 * i) 1
  let off := fieldAt img (16 * i + 4) 4
  let mask := fieldAt img (16 * i + 8) 4
  !(stageStations st).isEmpty && fieldAt img (16 * i + 1) 3 = 0 && 0x100 ≤ off && off ≤ 0xFFFC && off % 4 = 0 &&
    ((stageStations st).any fun n => Nat.land mask (rwdMask n off) = mask)

/-- Whether a ROLL_STAGE image is well formed (R439). -/
def stageOk (img : Bytes) : Bool :=
  16 ≤ img.length && img.length ≤ 4096 && img.length % 16 = 0 &&
    (List.range (img.length / 16)).all (stageItemOk img)

/-! ### Partition entries (R446, R447) -/

/-- The ranges of a partition: stirrups, first and count of contexts, first and count of queues. -/
def State.partRanges (s : State) (p : Nat) : Nat × Nat × Nat × Nat × Nat :=
  (leNat (s.odBlob (0x4000 + p) 4), s.fld (partReg p 4) 0 20, s.fld (partReg p 8) 0 21, s.fld (partReg p 0xC) 0 16,
    s.fld (partReg p 0x10) 0 17)

/-- Two ranges of numbers meet. -/
def meets (b n b' n' : Nat) : Bool := 0 < n && 0 < n' && b < b' + n' && b' < b + n

/-- Store an entry of partition `p` in the partition map (R451). -/
def State.partStore (s : State) (p sub : Nat) (b : Bytes) : State :=
  let v := leNat b
  match sub with
  | 0x01 => s.setFld (partReg p 0) 0 1 v
  | 0x02 => (s.setFld (partReg p 0) 1 1 v).partEnabled p
  | 0x04 =>
    -- the tile TLB entries of the stirrups that leave or join go (R449)
    let old := (s.rd (partReg p 0x14)).toNat + 2 ^ 32 * (s.rd (partReg p 0x18)).toNat + 2 ^ 64 * (s.rd (partReg p 0x1C)).toNat
    let t := { s with x := { s.x with tlb := s.x.tlb.filter fun e => !(Nat.xor old v).testBit e.loc || 80 ≤ e.loc } }
    ((t.wr (partReg p 0x14) (BitVec.ofNat 32 v)).wr (partReg p 0x18) (BitVec.ofNat 32 (v / 2 ^ 32))).wr
      (partReg p 0x1C) (BitVec.ofNat 32 (v / 2 ^ 64))
  | 0x05 => s.wr (partReg p 4) (BitVec.ofNat 32 v)
  | 0x06 => s.wr (partReg p 8) (BitVec.ofNat 32 v)
  | 0x07 => s.wr (partReg p 0xC) (BitVec.ofNat 32 v)
  | 0x08 => s.wr (partReg p 0x10) (BitVec.ofNat 32 v)
  | 0x09 => s.setFld (partReg p 0) 16 8 v
  | 0x0A => s.setFld (partReg p 0) 24 8 v
  | 0x0B => s.setFld (partReg p 0) 3 1 v
  | 0x0C => s.setFld (partReg p 0) 4 1 v
  | 0x20 => s.odPutBytes (0x4000 + p) 0x20 b
  | _ => s

/-- Whether partition `p`, as `s` configures it, shares a stirrup, context or queue with another configured
partition. -/
def State.partOverlap (s : State) (p : Nat) : Bool :=
  s.configured p && (List.range 64).any fun q =>
    q ≠ p && s.configured q &&
      (let a := s.partRanges p
       let b := s.partRanges q
       Nat.land a.1 b.1 ≠ 0 || meets a.2.1 a.2.2.1 b.2.1 b.2.2.1 || meets a.2.2.2.1 a.2.2.2.2 b.2.2.2.1 b.2.2.2.2)

/-- The sum of a share over the configured partitions (R447): `lo` is 16 for HOST_SHARE, 24 for PEER_SHARE. -/
def State.shareSum (s : State) (lo : Nat) : Nat :=
  (List.range 64).foldl (fun t p => if s.configured p then t + s.fld (partReg p 0) lo 8 else t) 0

/-- The value checks of R447 that give INVALID, on the state the write would leave. -/
def State.partInvalid (s t : State) (p sub : Nat) : Bool :=
  (sub = 0x09 && s.shareSum 16 < t.shareSum 16 && 256 < t.shareSum 16) ||
  (sub = 0x0A && s.shareSum 24 < t.shareSum 24 && 256 < t.shareSum 24) ||
  ((sub = 0x05 || sub = 0x06) && 1048576 < t.fld (partReg p 4) 0 20 + t.fld (partReg p 8) 0 21) ||
  ((sub = 0x07 || sub = 0x08) && 65536 < t.fld (partReg p 0xC) 0 16 + t.fld (partReg p 0x10) 0 17)

/-! ### Judgement (R530) -/

/-- The IDs of block-internal owner words that the chapters define (R114). -/
def internalIds : List Nat := [0x1, 0x2, 0x3, 0x4, 0x5, 0x10, 0x11, 0x20, 0x30, 0x31, 0x40]

/-- Whether an owner word may be given to frames (R114): not kind 00, [23:20] zero, a defined ID for kind 11. -/
def ownerOk (w : Nat) : Bool :=
  bitsOf w 25 24 ≠ 0 && bitsOf w 23 20 = 0 && (bitsOf w 25 24 ≠ 3 || internalIds.contains (bitsOf w 19 0))

/-- The argument of CTX_REST and CTX_RESUME is well formed (R495): bits `hi` down to 20 are zero, the context ID lies in the
table, the image address is that of a 4 KiB page below 2^52. -/
def restArgOk (s : State) (b : Bytes) (hi : Nat) : Bool :=
  bitsOf (fieldAt b 0 4) hi 20 = 0 && fieldAt b 0 4 % 2 ^ 20 < 2 ^ s.odNum 0x2000 0x21 && fieldAt b 8 8 % 4096 = 0 &&
    fieldAt b 8 8 < 2 ^ 52

/-- The argument checks of the commands under 0xF000 that give INVALID (R103, R481, R488, R495). -/
def cmdArgOk (s : State) (sub : Nat) (b : Bytes) : Bool :=
  let v := leNat b
  match sub with
  | 3 =>
    let sc := bitsOf v 3 0
    v < 2 ^ 14 && 1 ≤ sc && sc ≤ 4 &&
      (if sc = 1 ∨ sc = 2 then bitsOf v 10 4 < 100 else if sc = 3 then bitsOf v 10 4 < 64 else true)
  | 7 =>
    let pfn := fieldAt b 0 8
    let n := fieldAt b 8 4
    let w := fieldAt b 12 4
    1 ≤ n && n ≤ 262144 && ownerOk w && bitsOf w 25 24 = 3 && pfn + n ≤ s.devBytes / 4096
  | 5 => restArgOk s b 30
  | 6 => restArgOk s b 31
  | 8 =>
    let k := bitsOf v 1 0
    let i := bitsOf v 6 2
    v < 2 ^ 8 && (k = 1 && i < 4 || k = 2 && i < 16 || k = 3 && i < 8)
  | _ => true

/-- The open image of an entry. -/
def State.openImg (s : State) (key : Nat) : Option OpenImg := s.gw.opens.find? fun o => o.key = key

/-- Discard open images that saw no segment for 100,000 ticks (R87). -/
def State.purgeOpens (s : State) : State :=
  { s with gw := { s.gw with opens := s.gw.opens.filter fun o => s.tk 80 - o.since < 100000 } }

/-- Whether a DOMAIN segment of a WRITE is malformed for its requester (R87). -/
def State.segBad (s : State) (rid : Nat) (r : Reqr) (row : OdRow) : Bool :=
  let key := odKey r.index r.sub
  let held := match s.openImg key with
    | some o => if o.rid = rid then some o.data.length else none
    | none => none
  r.offset % 32 ≠ 0 || (rid = 132 && 256 < r.data.length) || 1048576 < r.offset + r.data.length ||
    (r.offset ≠ 0 && held ≠ some r.offset) ||
    (r.last &&
      (let img := (match s.openImg key with
          | some o => if r.offset = 0 then [] else o.data
          | none => []) ++ r.data
       row.len < img.length || (key = odKey 0x2000 0x41 && !cwImageOk img) || (key = odKey 0x2F00 2 && !stageOk img)))

/-- The INVALID cases of R530. -/
def State.judgeInvalid (s : State) (rid : Nat) (r : Reqr) (row : OdRow) : Bool :=
  r.op = 3 || 4096 < r.len ||
  (r.op = 1 && (if row.ty = .domain then s.segBad rid r row
    else !lenOk row r.data.length || !s.valueOk row r.data || (r.index = 0xF000 && !cmdArgOk s r.sub r.data) ||
      (0x4000 ≤ r.index && r.index < 0x4040 &&
        s.partInvalid (s.partStore (r.index - 0x4000) r.sub r.data) (r.index - 0x4000) r.sub))) ||
  (r.op = 0 && row.ty = .domain &&
    (r.offset % 32 ≠ 0 || r.offset ≠ 0 && (r.capt.map Prod.fst) ≠ some (odKey r.index r.sub)))

/-- The DENIED cases of R530. -/
def judgeDenied (rid : Nat) (r : Reqr) (row : OdRow) : Bool :=
  !hasRight rid r.index r.sub (r.op = 1) || (r.op = 1 && (row.acc = .ro || row.acc = .const)) ||
    (r.op = 0 && row.acc = .wo && r.index ≠ 0xF000)

/-- Whether every owner word behind stack `k` is free or belongs to a reserved frame (R489). -/
def State.stackFree (s : State) (k : Nat) : Bool :=
  s.own.all fun e => s.stackOf e.1 ≠ k || e.1 ≤ s.odNum 0x2000 0x60 &&
    (bitsOf e.2.toNat 19 0 = 5 || bitsOf e.2.toNat 19 0 = 0x40)

/-- Refusals of a reset because its unit cannot be reset (R433). -/
def State.resetLame (s : State) (v : Nat) : Bool :=
  let st := bitsOf v 10 4
  match bitsOf v 3 0 with
  | 1 => !s.present st || s.lame st || !(s.coresOk st).testBit (bitsOf v 13 11)
  | 2 => !s.present st || s.lame st
  | _ => false

/-- The generation that CTX_REST or CTX_RESUME must name (R495): zero for a FREE target of a resume. -/
def State.restGen (s : State) (sub c : Nat) : Nat := if sub = 6 ∧ (s.ctx c).state = 0 then 0 else (s.ctx c).gen

/-- The STALE cases of the commands under 0xF000 (R495). -/
def State.judgeStale (s : State) (r : Reqr) : Bool :=
  r.op = 1 && r.index = 0xF000 && (r.sub = 5 || r.sub = 6) && fieldAt r.data 4 4 ≠ s.restGen r.sub (fieldAt r.data 0 4 % 2 ^ 20)

/-- The LAME case of RESET_UNIT, judged before NOT_NOW (R131, R433). -/
def State.judgeLame (s : State) (r : Reqr) : Bool :=
  r.op = 1 && r.index = 0xF000 && r.sub = 3 && s.resetLame (leNat r.data)

/-- The state code of the NOT_NOW that applies to a request, if one does (R530, R104 and each entry's chapter). -/
def State.judgeNotNow (s : State) (rid : Nat) (r : Reqr) (row : OdRow) : Option Nat :=
  let key := odKey r.index r.sub
  let v := leNat r.data
  if 0x3000 ≤ r.index ∧ r.index < 0x3064 ∧ s.stepNo < 4 ∧ s.phase = 1 then some 9
  else if r.op ≠ 1 then none
  else if s.inOrphan ∧ !(r.index = 0xF000 && (r.sub = 2 || r.sub = 3 && bitsOf v 3 0 = 4)) then some 6
  else if row.ty = .domain && (s.openImg key).any (fun o => o.rid ≠ rid) then some 5
  else if r.index = 0xF000 then
    -- the commands whose own rows name the refusal answer by them first (log entry 73)
    if r.sub = 2 ∧ s.bit 0x40 1 then some 4
    else if r.sub = 4 ∧ s.roll.active then some 7
    else if s.cmdRunning r.sub then some 2
    else match r.sub with
    | 1 => if s.phase = 1 ∧ v = s.stepNo + 1 then none else some 3
    | 3 => if !s.rcv.presets.isEmpty then some 2 else if s.roll.active ∧ bitsOf v 3 0 ≠ 4 then some 7 else none
    | 5 =>
      let st := (s.ctx (fieldAt r.data 0 4 % 2 ^ 20)).state
      if st = 1 ∨ st = 2 then none else some (0x20 + st)
    | 6 =>
      let st := (s.ctx (fieldAt r.data 0 4 % 2 ^ 20)).state
      if st = 0 ∨ st = 4 then none else some (0x20 + st)
    | 7 => if s.stepNo < 7 then some 3 else if s.hostWork then some 0x3A else none
    | 8 =>
      if bitsOf v 1 0 = 1 ∧ bitsOf v 6 2 = s.bootPm then some 0x39
      else if bitsOf v 1 0 = 3 ∧ !s.stackFree (bitsOf v 6 2) then some 0x38 else none
    | _ => none
  else if r.index = 0x2000 ∧ r.sub = 0x80 ∧ 5 ≤ s.stepNo then some 3
  else if r.index = 0x2000 ∧ r.sub = 0x91 ∧ !(s.phase = 1 && s.stepNo = 8) then some 3
  else if r.index = 0x2000 ∧ r.sub = 0x36 ∧ s.qs.q0Draining ∧ v = 1 then some 2
  else if r.index = 0x2F00 ∧ r.sub = 2 ∧ s.roll.active then some 7
  else if r.index = 0x8000 ∧ r.sub = 2 ∧ s.phase = 1 ∧ s.stepNo < 4 then some 9
  else if 0x4000 ≤ r.index ∧ r.index < 0x4040 then
    let p := r.index - 0x4000
    let tdi := s.fld (partReg p 0) 8 3
    if rid < 4 ∧ (tdi = 1 ∨ tdi = 2) then some 0x32
    else if (s.partStore p r.sub r.data).partOverlap p ∧ (r.sub = 1 || 4 ≤ r.sub && r.sub ≤ 8) &&
        s.odRead r.index r.sub row ≠ r.data then some 0x34
    else none
  else none

/-! ### Service -/

/-- Entries whose WRITE is carried out by an operation of its own. -/
def ownWrite (idx sub : Nat) : Bool :=
  (idx = 0x2000 && (sub = 0x10 || sub = 0x36)) || (idx = 0x8000 && sub = 2) ||
    (0x4000 ≤ idx && idx < 0x4040 && sub = 0x30)

/-- Entries whose READ at offset 0 is carried out by an operation of its own. -/
def ownRead (idx sub : Nat) : Bool := (idx = 0x8000 && sub = 2) || (0x9100 ≤ idx && idx < 0x9140 && sub = 1)

/-- What a partition function sees of a value it reads (R453, R528). -/
def partFilter (p idx sub : Nat) (b : Bytes) : Bytes :=
  if idx = 0xA000 ∧ sub = 6 then
    (List.range 64).foldl (fun o q => o ++ leBytes 2 (if q = p then fieldAt b (2 * q) 2 / 500 * 500 else 0)) []
  else if idx = 0x4000 + p ∧ sub = 0x0D then leBytes 4 (leNat b / 1024 * 1024)
  else b

/-- Reply with the segment at `off` of a captured image (R87); ODM_TOTAL is set at offset 0 (R82), and a message carries TOTAL at
every offset (R89). DESIGN CHOICE: at or beyond the image's end the reply is OK with no data (log entry 74). -/
def State.segReply (s : State) (rid off : Nat) (img : Bytes) : State :=
  let seg := (img.drop off).take (if rid = 132 then 256 else 4096)
  s.complete rid .ok 0 seg (if off = 0 ∨ rid = 132 then some img.length else none)

/-- Capture an image for a requester and reply with its first segment (R87). -/
def State.captureReply (s : State) (rid : Nat) (img : Bytes) : State :=
  let r := s.reqr rid
  let t := s.setReqr rid { r with capt := some (odKey r.index r.sub, img) }
  t.segReply rid 0 img

/-- The default of an entry (R80): its table's, or what the fuses, the silicon or the straps give it. -/
def State.odDefault (s : State) (idx sub : Nat) (row : OdRow) : Nat :=
  if row.acc = .const || idx = 0x1000 && (sub = 0x0B || sub = 0x0C) || idx = 0x2000 && sub = 0x53 ||
      idx = 0x5000 && (sub = 3 || sub = 4) || idx = 0x8000 && 0x10 ≤ sub && sub ≤ 0x12 then
    s.odVal idx sub
  else row.dflt

/-- MIN of an entry: the least value of its Range (R80). DEDUCED: 0 where the Range is 0 or a range above it (log entry 11). -/
def State.odMin (_s : State) (row : OdRow) : Nat := if row.rng = .zeroOr then 0 else row.min

/-- MAX of an entry: the greatest value of its Range (R80). DEDUCED: where device memory bounds an address, the greatest aligned
address below DEVMEM_BYTES in force (log entry 11). -/
def State.odMax (s : State) (row : OdRow) : Nat :=
  let below (a : Nat) : Nat := if a = 0 then 0 else (s.devBytes - 1) / a * a
  match row.rng with
  | .devAligned a => below a
  | .devPool k u => below (2 ^ s.odNum 0x5000 k * u)
  | _ => row.max

/-- The 32-byte descriptor of an entry (R80). -/
def State.infoBytes (s : State) (idx sub : Nat) (row : OdRow) : Bytes :=
  let n := row.ty.size ≠ 0
  leBytes 1 row.ty.code ++ leBytes 1 row.acc.code ++ leBytes 2 0 ++ leBytes 4 row.len ++
    leBytes 8 (if n then s.odDefault idx sub row else 0) ++ leBytes 8 (if n then s.odMin row else 0) ++
    leBytes 8 (if n then s.odMax row else 0)

/-- Serve a READ of an entry that the gateway holds. -/
def State.serveRead (s : State) (rid : Nat) (r : Reqr) (row : OdRow) : State :=
  if row.ty = .domain ∧ r.offset ≠ 0 then
    match r.capt with
    | some c => s.segReply rid r.offset c.2
    | none => s
  else if ownRead r.index r.sub then s.setReqr rid { r with phase := .own }
  else if 0x4000 ≤ r.index ∧ r.index < 0x4040 ∧ r.sub = 0x0D then
    if s.bit 0x40 1 then s.setReqr rid { r with phase := .snap }
    else
      let b := leBytes 4 (s.heldDenied (r.index - 0x4000))
      s.complete rid .ok 0 (match ridPart rid with
        | some p => partFilter p r.index r.sub b
        | none => b)
  else
    let b := s.odRead r.index r.sub row
    let b := match ridPart rid with
      | some p => partFilter p r.index r.sub b
      | none => b
    if row.ty = .domain then s.captureReply rid b else s.complete rid .ok 0 b

/-- Store a scalar or OCTET value in the entry's home. -/
def State.odStore (s : State) (idx sub : Nat) (row : OdRow) (b : Bytes) : State :=
  if 0x4000 ≤ idx ∧ idx < 0x4040 then
    let p := idx - 0x4000
    let s' := s.partStore p sub b
    if sub = 1 ∧ leNat b = 1 then { s' with tel := { s'.tel with touched := s'.tel.touched.filter (· ≠ p) } } else s'
  else match row.ty with
    | .octet => s.odPutBytes idx sub b
    | .str => s.odPutBytes idx sub b
    | .domain => s.odPutBytes idx sub b
    | _ => s.odSet idx sub (leNat b)

/-- A write of an RW or RWD value at its unit (R92). -/
def State.serveValue (s : State) (rid : Nat) (r : Reqr) (row : OdRow) (b : Bytes) : State :=
  if row.acc = .rwd ∧ s.odRead r.index r.sub row = b then s.complete rid .ok 0 []
  else if row.acc = .rwd ∧ s.unitEnabled row.unit then (s.wwe 0 false).complete rid .notNow 1 []
  else (s.odStore r.index r.sub row b).complete rid .ok 0 []

/-- Accept a command under 0xF000 (R103): its record turns to RUNNING and the write completes with OK. -/
def State.serveCmd (s : State) (rid : Nat) (r : Reqr) : State :=
  let c := s.cmd r.sub
  (s.setCmd r.sub { c with phase := 1, count := (c.count + 1) % 2 ^ 32, arg := r.data }).complete rid .ok 0 []

/-- Serve a WRITE of an entry that the gateway holds. -/
def State.serveWrite (s : State) (rid : Nat) (r : Reqr) (row : OdRow) : State :=
  let key := odKey r.index r.sub
  if row.ty = .domain then
    let prev := match s.openImg key with
      | some o => if r.offset = 0 then [] else o.data
      | none => []
    let img := prev ++ r.data
    let others := s.gw.opens.filter fun o => o.key ≠ key
    if r.last then
      let s := { s with gw := { s.gw with opens := others } }
      if ownWrite r.index r.sub then s.setReqr rid { r with phase := .own, data := img }
      else s.serveValue rid r row img
    else
      ({ s with gw := { s.gw with opens := { key := key, rid := rid, data := img, since := s.tk 80 } :: others } } :
        State).complete rid .ok 0 []
  else if ownWrite r.index r.sub then s.setReqr rid { r with phase := .own }
  else if r.index = 0xF000 then s.serveCmd rid r
  else s.serveValue rid r row r.data

/-- CRC-16 with polynomial 0x1021 and initial value 0xFFFF (R96). DESIGN CHOICE: each byte enters most significant bit first, and
the CRC is not reflected (log entry 75). -/
def crc16 (bs : Bytes) : BitVec 16 :=
  bs.foldl (fun c b =>
    (List.range 8).foldl (fun (c : BitVec 16) _ =>
      if c.getLsbD 15 then (c <<< 1) ^^^ 0x1021#16 else c <<< 1) (c ^^^ ((b.setWidth 16 : BitVec 16) <<< 8))) 0xFFFF#16

/-- The bytes of a frame before its CRC (R96). -/
def frameBytes (f : Frame) : Bytes :=
  leBytes 1 (f.type + 0x10 * b2n f.accepted + 0x20 * b2n f.corrupt + 0x40 * b2n f.nack) ++ leBytes 1 f.dst ++
    leBytes 1 f.src ++ leBytes 1 f.tag ++ leBytes 2 f.index ++ leBytes 1 f.sub ++ leBytes 1 f.payload.length ++
    leBytes 2 f.offset ++ leBytes 1 f.status ++ leBytes 1 f.state ++ f.payload

/-- Give a frame its CRC. -/
def sealFrame (f : Frame) : Frame := { f with crc := crc16 (frameBytes f) }

/-- Whether a frame's CRC and TYPE are good (R96, R99). -/
def frameOk (f : Frame) : Bool := f.crc = crc16 (frameBytes f) && f.type ≤ 7

/-- A frame of the gateway. -/
def gwFrame (type dst tag idx sub off : Nat) (pl : Bytes) : Frame :=
  sealFrame { type := type, accepted := false, corrupt := false, nack := false, dst := dst, src := 0, tag := tag,
              index := idx, sub := sub, offset := off, status := 0, state := 0, payload := pl, crc := 0 }

/-- Whether the gateway may forward a request now (R91, R97): at most 16 outstanding, at most 4 to the node, none for the
same entry. -/
def State.canForward (s : State) (r : Reqr) : Bool :=
  let node := r.index - 0x3000 + 1
  s.gw.out.length < 16 && (s.gw.out.filter fun o => o.frame.dst = node).length < 4 &&
    !(s.gw.out.any fun o => o.frame.index = r.index && o.frame.sub = r.sub)

/-- Forward a request to the node of its station (R91, R97, R98). -/
def State.forward (s : State) (rid : Nat) (r : Reqr) : State :=
  let f := gwFrame (if r.op = 0 then 1 else 2) (r.index - 0x3000 + 1) s.gw.nextTag r.index r.sub (r.offset / 32)
    (if r.op = 1 then r.data.take 32 else [])
  let s := s.setReqr rid { r with phase := .out }
  ({ s with gw := { s.gw with
      nextTag := (s.gw.nextTag + 1) % 256,
      out := s.gw.out ++ [{ tag := f.tag, rid := rid, frame := f, sends := 1, accepted := false, since := s.tk 80 }] } } :
    State).emit (.latigo f)

/-- Forward what the outstanding limits now allow of the requests held, in the order of their acceptance (R91, R97). -/
def State.gwPump (s : State) : State :=
  s.gw.held.foldl (fun s rid =>
    if s.canForward (s.reqr rid) then
      ({ s with gw := { s.gw with held := s.gw.held.filter (· ≠ rid) } } : State).forward rid (s.reqr rid)
    else s) s

/-- A request for a station is accepted: it goes out as soon as the limits allow. -/
def State.gwSend (s : State) (rid : Nat) : State :=
  (({ s with gw := { s.gw with held := s.gw.held ++ [rid] } } : State).setReqr rid { s.reqr rid with phase := .out }).gwPump

/-- Discard the open images that `p` selects (R87). -/
def State.dropOpens (s : State) (p : OpenImg → Bool) : State :=
  { s with gw := { s.gw with opens := s.gw.opens.filter fun o => !p o } }

/-- Judge the request of `rid` (R530) and serve, forward or refuse it. A length above 4,096 is INVALID whatever the request, and
discards the slot's open image (R82; DESIGN CHOICE: whichever entry it names, log entry 99). -/
def State.serve (s : State) (rid : Nat) : State :=
  let r := s.reqr rid
  if 4096 < r.len then (s.dropOpens fun o => o.rid = rid).complete rid .invalid 0 []
  else match odRow r.index r.sub with
  | none => s.complete rid .invalid 0 []
  | some row =>
    if s.judgeInvalid rid r row then
      (s.dropOpens fun o => row.ty = .domain && r.op = 1 && o.key = odKey r.index r.sub && o.rid = rid).complete rid .invalid 0 []
    else if judgeDenied rid r row then s.complete rid .denied 0 []
    else if s.judgeStale r then s.complete rid .stale 0 []
    else if s.judgeLame r then s.complete rid .lame 0 []
    else match s.judgeNotNow rid r row with
      | some c => s.complete rid .notNow c []
      | none =>
        if r.op = 2 then
          s.complete rid .ok 0 (s.infoBytes r.index r.sub row) (if row.ty = .domain then some (s.odBlob r.index r.sub).length else none)
        else if 0x3000 ≤ r.index ∧ r.index < 0x3064 then
          if s.ringBrokenBit then s.complete rid .timeout 0 [] else s.gwSend rid
        else if r.op = 0 then s.serveRead rid r row else s.serveWrite rid r row

/-- Whether requester `rid` has a request pending. -/
def State.takeable (s : State) (rid : Nat) : Bool := (s.reqr rid).phase = .waiting

/-- Whether an accepted request for the entry still waits for the operation of that entry. -/
def State.entryBusy (s : State) (idx sub : Nat) : Bool :=
  s.gw.reqs.any fun e => e.2.phase = .own && e.2.index = idx && e.2.sub = sub

/-- Round robin (R91): take the first requester from the pointer on, in the fixed order, and move the pointer past it. Requests to
one entry take effect in the order of acceptance, so the gateway first ends an earlier one that it is serving. -/
def State.gwServe (s : State) : State :=
  let s := s.purgeOpens
  match ((List.range 133).map fun i => (s.gw.ptr + i) % 133).find? s.takeable with
  | none => s
  | some rid =>
    let r := s.reqr rid
    if s.entryBusy r.index r.sub then s
    else
      ((({ s with gw := { s.gw with ptr := (rid + 1) % 133, accepts := s.gw.accepts + 1 } } : State).setReqr rid
        { r with seq := s.gw.accepts }).serve rid)

/-- Of the accepted requests that wait for the operation of their entry, by `p` of index, subindex and operation (0 read, 1 write),
the one accepted first (R91). -/
def State.ownReq (s : State) (ph : ReqPhase) (p : Nat → Nat → Nat → Bool) : Option Nat :=
  let l := s.gw.reqs.filter fun e => e.2.phase = ph && p e.2.index e.2.sub e.2.op
  (l.find? fun e => l.all fun o => e.2.seq ≤ o.2.seq).map Prod.fst

end Sys2Proof.Machine
end

