-- ==== Sys2Proof/Machine/Dictionary.lean ====
section
/-! DEFINITION. Dictionary requests (R83, R87, R91), counter snapshots (R71 to R73, R93), the wear ledger (R52 to R55) and
host epochs (R45, R49). -/

namespace Sys2Proof.Machine

/-- The management endpoint takes transfers once ENTDAA gave it an address (R88). -/
def State.reaches (s : State) (r : Requester) : Bool :=
  match r with
  | .mgmt => s.mgmt.addr ≠ 0
  | _ => true

/-- R83: a READ is submitted. -/
def execDictRead (r : Requester) (index sub offset : Nat) (irq : Bool) (s : State) : Out :=
  up s fun s => if s.reaches r then s.submit (ridOf r) 0 index sub offset [] 0 false irq else s

/-- R83: a WRITE is submitted with its data. -/
def execDictWrite (r : Requester) (index sub offset : Nat) (data : Bytes) (last irq : Bool) (s : State) : Out :=
  up s fun s => if s.reaches r then s.submit (ridOf r) 1 index sub offset data data.length last irq else s

/-- R80: an INFO request is submitted. -/
def execDictInfo (r : Requester) (index sub : Nat) (irq : Bool) (s : State) : Out :=
  up s fun s => if s.reaches r then s.submit (ridOf r) 2 index sub 0 [] 0 false irq else s

/-- R91: the gateway takes the next pending request. -/
def execGatewayServe (s : State) : Out := up s fun s => s.gwServe

/-- R87: an open image of a requester with no new segment for 100,000 ticks is discarded. -/
def execDomainImageDiscard (r : Requester) (s : State) : Out :=
  up s fun s => { s with gw := { s.gw with
    opens := s.gw.opens.filter fun o => !(o.rid = ridOf r && 100000 ≤ s.tk 80 - o.since) } }

/-! ### Snapshots -/

/-- A snapshot starts (R71): BUSY sets. -/
def State.snapStart (s : State) : State := s.setBit 0x40 1 true

/-- A write of SNAP = 1 (R72): ignored while BUSY, and SNAP_IGNORED sets. -/
def State.snapWrite (s : State) : State := if s.bit 0x40 1 then s.blkFlag 4 else s.snapStart

/-- Complete the requests that waited for the publication (R72, R93): reads of the ledger image, and of counter
entries. -/
def State.snapReplies (s : State) : State :=
  (s.gw.reqs.map Prod.fst).foldl (fun s rid =>
    let r := s.reqr rid
    if r.phase ≠ .snap then s
    else if r.index = 0x8000 then s.captureReply rid s.ledgerImage
    else
      let b := leBytes 4 (s.heldDenied (r.index - 0x4000))
      s.complete rid .ok 0 (match ridPart rid with
        | some p => partFilter p r.index r.sub b
        | none => b)) s

/-- Publish the filled bank (R71): BANK toggles, BLK_SNAP_SEQ counts, BUSY clears; then what waited for it completes. -/
def State.snapPublish (s : State) : State :=
  if !s.bit 0x40 1 then s else
  let (m, s) := s.fillBank
  let s := (s.setBit 0x40 2 (!s.bit 0x40 2)).inc 0x44
  let (tg, s) := s.tag 0x80
  let m := bankPut m 0 (leBytes 4 0x54534E43 ++ leBytes 4 (s.rd 0x44).toNat ++ leBytes 4 (s.rd 0x10).toNat ++
    leBytes 4 0 ++ tg)
  let s := if s.bit 0x40 2 then { s with tel := { s.tel with bank1 := m, part1 := s.tel.moved } }
    else { s with tel := { s.tel with bank0 := m, part0 := s.tel.moved } }
  let s := s.setBit 0x40 1 false
  let s := if s.tel.snapCmd then ({ s with tel := { s.tel with snapCmd := false } } : State).cmdEnd 2 0 0 else s
  s.snapReplies

/-- R71, R72: a write of SNAP = 1. -/
def execSnapshotRequest (s : State) : Out := up s fun s => s.snapWrite

/-- R71: the hidden bank is published. -/
def execSnapshotPublish (s : State) : Out := up s fun s => s.snapPublish

/-- R93: the SNAPSHOT command, once accepted, starts a snapshot. -/
def execSnapshot (s : State) : Out :=
  up s fun s => if s.cmdRunning 2 then { s.snapStart with tel := { s.tel with snapCmd := true } } else s

/-! ### Host epochs -/

/-- Set TICK_EST of station `n` from two adoptions (R45): the difference of the epochs over the ticks between them, in
picoseconds, when it lies in the band. DESIGN CHOICE: the quotient is rounded down to a whole picosecond (log entry 15). -/
def State.measureTick (s : State) (n de dt : Nat) : State :=
  let est := de * 1000000 / dt
  if dt ≠ 0 ∧ 800000 ≤ est ∧ est ≤ 1200000 then s.odSet (0x3000 + n) 0x20 est else s

/-- One station, or the block-level parts as 0x80, adopts a host epoch (R45, R49): its TICKS restart. DEDUCED: two
adoptions are at least 1 s apart when their epochs differ by at least 1,000,000 (log entry 15). The measurement is the work of the
firmware on C6: while that does not run, none is made and none is begun. H0's epoch is kept in the ledger (R52). -/
def State.adopt (s : State) (st e : Nat) : State :=
  let r := s.tagRec st
  let now := s.tk st
  let set (s : State) (ref : Option (Nat × Nat)) : State :=
    { s with tags := sPut {} s.tags st { s.tagRec st with epoch := e, valid := true, adopted := now, ref := ref },
             led := { s.led with lastEpoch := if st = 80 then e else s.led.lastEpoch } }
  if !s.firmwareUp st 6 then set s none
  else match r.ref with
  | none => set s (some (e, now))
  | some (e0, t0) =>
    if e < e0 then set s (some (e, now))
    else if 1000000 ≤ e - e0 then set (s.measureTick st (e - e0) (now - t0)) (some (e, now))
    else set s (some (e0, t0))

/-- R49: the accepted write of HOST_EPOCH is broadcast over Latigo, and completes. -/
def execHostEpochWrite (s : State) : Out :=
  up s fun s =>
    match s.ownReq .own fun i b _ => i = 0x2000 && b = 0x10 with
    | none => s
    | some rid =>
      let f := gwFrame 5 0x7F 0 0x2000 0x10 0 (leBytes 6 (leNat (s.reqr rid).data))
      (if s.ringBrokenBit then s else ({ s with gw := { s.gw with bcast := some f } } : State).emit (.latigo f)).complete rid .ok 0 []

/-! ### The wear ledger -/

/-- The tick period of station `n` in picoseconds: TICK_EST where it is known, else 1 µs (R52, R55). -/
def State.tickPs (s : State) (n : Nat) : Nat :=
  let e := s.odNum (0x3000 + n) 0x20
  if e = 0 then 1000000 else e

/-- 64 hours in picoseconds. -/
def hourPs : Nat := 230400000000 * 10 ^ 6

/-- R55: each 64 hours in HOUR_ACCUM blow one hour-step fuse bit, unless the counter is full, and the accumulator drops by that
amount. -/
def State.hourStep (s : State) : State :=
  if s.led.hourPs < hourPs then s else
  { s with led := { s.led with hourPs := s.led.hourPs % hourPs },
           fuses := { s.fuses with hourSteps := min (s.fuses.hourSteps + s.led.hourPs / hourPs) 2304 } }

/-- R55. -/
def execHourStep (s : State) : Out := up s fun s => s.hourStep

/-- The band of TEMP_S for a temperature (R52). -/
def tempBand (t : Int) : Nat :=
  if t < 45 then 0 else if t < 60 then 1 else if t < 75 then 2 else if t < 85 then 3 else if t < 95 then 4
  else if t ≤ 105 then 5 else 6

/-- Add to one band. -/
def addBand : List Nat → Nat → Nat → List Nat
  | [], _, _ => []
  | x :: xs, 0, d => (x + d) :: xs
  | x :: xs, n + 1, d => x :: addBand xs n d

/-- Put a 16-bit number into the place of station `n` in a telemetry entry (R519, R528). -/
def State.telPut (s : State) (sub n v : Nat) : State :=
  let b := s.odBlob 0xA000 sub
  s.odPutBytes 0xA000 sub (b.take (2 * n) ++ leBytes 2 v ++ b.drop (2 * n + 2))

/-- R52, R519: 1,000 ticks after its last sample, station `st` samples its sensor and adds the elapsed time to one band. DEDUCED:
the ticks count at their nominal microsecond, since TICK_EST serves the hour accumulator and powered time alone (R45, log entry 76). -/
def execTempSample (st : Nat) (temp : Int) (s : State) : Out :=
  up s fun s =>
    if st < 100 && s.fuses.stations.testBit st && 1000 ≤ s.tk st - (sGet {} s.wear st).sampled then
      let w := sGet {} s.wear st
      let s := s.telPut 4 st (temp % 65536).toNat
      { s with wear := sPut {} s.wear st { w with
          temps := addBand w.temps (tempBand temp) ((s.tk st - w.sampled) * 10 ^ 6),
          tempMax := if w.seen then max w.tempMax temp else temp, seen := true, sampled := s.tk st } }
    else s

/-- Add one station record of a ledger image to the station's counts, and take the larger TEMP_MAX (R53). DESIGN CHOICE: a station
that has not sampled counts with the 0 of its record (log entry 77). -/
def wearAdd (w : WearRec) (img : Bytes) (n : Nat) : WearRec :=
  let o := 128 + n * 64
  let tm := (fieldAt img (o + 28) 2 : Int)
  let tm := if tm < 32768 then tm else tm - 65536
  { w with
    temps := (w.temps.zipIdx).map fun e => e.1 + fieldAt img (o + 4 * e.2) 4 * 10 ^ 12
    tempMax := max w.tempMax tm
    seen := true
    retrains := satAdd 32 w.retrains (fieldAt img (o + 32) 4)
    corrErr := satAdd 64 w.corrErr (fieldAt img (o + 36) 8)
    leaseBreaks := satAdd 32 w.leaseBreaks (fieldAt img (o + 44) 4) }

/-- Add an image to the live ledger (R53). -/
def State.ledgerAdd (s : State) (img : Bytes) : State :=
  let l := s.led
  let s := { s with
    led := { l with
      powerPs := l.powerPs + fieldAt img 64 8 * 10 ^ 12, hourPs := l.hourPs + fieldAt img 72 8 * 10 ^ 6,
      corrErrTotal := satAdd 64 l.corrErrTotal (fieldAt img 80 8),
      leaseBreaksTotal := satAdd 32 l.leaseBreaksTotal (fieldAt img 88 4),
      restoreCount := satAdd 32 l.restoreCount (fieldAt img 92 4 + 1), restored := true },
    wear := (List.range 100).foldl (fun m n =>
      if s.fuses.stations.testBit n then sPut {} m n (wearAdd (sGet {} m n) img n) else m) s.wear }
  s.hourStep

/-- Whether a ledger image may be restored (R53). -/
def State.ledgerOk (s : State) (img : Bytes) : Bool :=
  img.length = 6528 && fieldAt img 0 4 = 0x4C564843 && fieldAt img 4 2 = 1 && fieldAt img 6 2 = 100 &&
    fieldAt img 8 8 = s.fuses.serial && fieldAt img 16 2 ≤ s.fuses.powerCycles

/-- R53: the accepted write of LEDGER_IMAGE restores the ledger, or is refused and leaves it unchanged. -/
def execLedgerRestore (s : State) : Out :=
  up s fun s =>
    match s.ownReq .own fun i b o => i = 0x8000 && b = 2 && o = 1 with
    | none => s
    | some rid =>
      let img := (s.reqr rid).data
      if !s.ledgerOk img then s.complete rid .invalid 0 []
      else if s.led.restored then s.complete rid .notNow 8 []
      else (s.ledgerAdd img).complete rid .ok 0 []

/-- R54, R72: the accepted read of LEDGER_IMAGE takes a snapshot; while one is BUSY it waits for the next. The image is
returned at the publication. -/
def execLedgerExport (s : State) : Out :=
  up s fun s =>
    match s.ownReq .own fun i b o => i = 0x8000 && b = 2 && o = 0 with
    | none => s
    | some rid =>
      if s.bit 0x40 1 then s
      else
        let t := s.setReqr rid { s.reqr rid with phase := .snap }
        t.snapStart

end Sys2Proof.Machine
end

