-- ==== Sys2Proof/Machine/Latigo.lean ====
section
/-! DEFINITION. The Latigo ring (R95 to R102) and the management endpoint (R88, R89). -/

namespace Sys2Proof.Machine

/-- The node of station `st`. -/
def State.node (s : State) (st : Nat) : Node := sGet {} s.nodes st

/-- Set the node of station `st`. -/
def State.setNode (s : State) (st : Nat) (n : Node) : State := { s with nodes := sPut {} s.nodes st n }

/-- A node switched its input between the primary hop and the skip hop (R95): counted, and reported as a node alarm
event. DESIGN CHOICE: the alarm's payload is the new input, 1 for the skip hop (log entry 16). -/
def State.hopSwitch (s : State) (st : Nat) (skip : Bool) : State :=
  let n := s.node st
  let f : Frame := { type := 4, accepted := false, corrupt := false, nack := false, dst := 0, src := st + 1,
                     tag := n.evSeq, index := 0, sub := 0, offset := 0, status := 0, state := 0,
                     payload := [BitVec.ofNat 8 (b2n skip)], crc := 0 }
  (s.setNode st { n with skip := skip, evSeq := (n.evSeq + 1) % 256,
                         events := n.events ++ [{ seq := n.evSeq, frame := sealFrame f, sent := none }] }).inc
    (pageOf st + 0x1C)

/-- Whether the node before `st` on the ring is alive; the gateway precedes node 0x01. -/
def State.predAlive (s : State) (st : Nat) : Bool := st = 0 || (s.node (st - 1)).alive

/-- A frame passes the live node of `st` (R95, R99): a bad one is marked CORRUPT, counted and otherwise ignored; a good
one on a primary input that carries again switches the input back, and is handed to `f`. -/
def State.atNode (s : State) (st type : Nat) (fr : Frame) (f : State → State) : State :=
  if !(st < 100 && (s.node st).alive) then s
  else if !frameOk fr then
    (s.inc (pageOf st + 0x18)).emit (.latigo { fr with corrupt := true })
  else
    let s := if (s.node st).skip && s.predAlive st then s.hopSwitch st false else s
    if fr.type = type && !fr.corrupt then f s else s

/-- Reply of a node to a request: STATUS, STATE, payload (R96). -/
def replyFrame (fr : Frame) (status : St) (pl : Bytes) : Frame :=
  sealFrame { fr with type := 3, accepted := false, nack := false, dst := 0, src := fr.dst, status := status.code,
                      state := 0, payload := pl }

/-- A request reaches its node (R98): a repeated TAG is answered from the kept replies; with no buffer free the frame
takes NACK; else it takes ACCEPTED and the request is executed, which gives the reply. -/
def State.nodeRequest (s : State) (st : Nat) (fr : Frame) (free : Bool) (run : State → Frame × State) : State :=
  let n := s.node st
  match n.kept.find? fun k => k.1 = fr.tag with
  | some k =>
    (s.setNode st { n with replies := n.replies ++ [k.2] }).emit (.latigo (sealFrame { fr with accepted := true }))
  | none =>
    if !free then s.emit (.latigo (sealFrame { fr with nack := true }))
    else
      let (rep, s) := run s
      let n := s.node st
      (s.setNode st { n with replies := n.replies ++ [rep], kept := ((fr.tag, rep) :: n.kept).take 4 }).emit
        (.latigo (sealFrame { fr with accepted := true }))

/-- R98: a READ frame at its node. -/
def execLatigoRead (f : Frame) (free : Bool) (s : State) : Out :=
  up s fun s =>
    if f.dst = 0 then s else
    s.atNode (f.dst - 1) 1 f fun s => s.nodeRequest (f.dst - 1) f free fun s =>
      match odRow f.index f.sub with
      | some row =>
        if f.index = 0x3000 + (f.dst - 1) then (replyFrame f .ok (s.odRead f.index f.sub row), s)
        else (replyFrame f .invalid [], s)
      | none => (replyFrame f .invalid [], s)

/-- R98: a WRITE frame at its node. The entries of a station are read-only (R45), so the node that executes it
refuses. -/
def execLatigoWrite (f : Frame) (free : Bool) (s : State) : Out :=
  up s fun s =>
    if f.dst = 0 then s else
    s.atNode (f.dst - 1) 2 f fun s => s.nodeRequest (f.dst - 1) f free fun s =>
      if f.index = 0x3000 + (f.dst - 1) ∧ (odRow f.index f.sub).isSome then (replyFrame f .denied [], s)
      else (replyFrame f .invalid [], s)

/-- Remove the outstanding request with a tag. -/
def State.dropOut (s : State) (tag : Nat) : State :=
  { s with gw := { s.gw with out := s.gw.out.filter fun o => o.tag ≠ tag } }

/-- Send an outstanding request again with the same TAG, or complete it with TIMEOUT after four sends (R98). -/
def State.resend (s : State) (o : LtgReq) : State :=
  if 4 ≤ o.sends then ((s.dropOut o.tag).complete o.rid .timeout 0 []).gwPump
  else
    ({ s with gw := { s.gw with out := s.gw.out.map fun p =>
        if p.tag = o.tag then { p with sends := p.sends + 1, accepted := false, since := s.tk 80 } else p } } :
      State).emit (.latigo o.frame)

/-- R98, R100: a frame of the gateway returns. A broadcast that came to harm is sent again as it was; a request is known by its TYPE,
its node and its TAG (log entry 78). -/
def execLatigoFrameReturn (f : Frame) (s : State) : Out :=
  up s fun s =>
    let bad := f.corrupt || !frameOk f
    if f.type = 5 then
      (match s.gw.bcast with
      | none => s
      | some b => if bad then s.emit (.latigo b) else { s with gw := { s.gw with bcast := none } })
    else match s.gw.out.find? fun o => o.tag = f.tag && o.frame.type = f.type && o.frame.dst = f.dst with
    | none => s
    | some o =>
      if bad || f.nack then s.resend o
      else if f.accepted then
        { s with gw := { s.gw with out := s.gw.out.map fun p =>
            if p.tag = f.tag then { p with accepted := true, since := s.tk 80 } else p } }
      else s

/-- R98, R99: a REPLY at the gateway completes its request; a corrupt one is discarded. -/
def execLatigoReply (f : Frame) (s : State) : Out :=
  up s fun s =>
    if f.corrupt || !frameOk f || f.type ≠ 3 then s
    else match s.gw.out.find? fun o => o.tag = f.tag && o.frame.dst = f.src with
    | none => s
    | some o =>
      let st := ([St.ok, .invalid, .notNow, .noResource, .denied, .fault, .checksum, .poison, .aborted, .timeout, .stale,
        .lame][f.status]?).getD .invalid
      ((s.dropOut f.tag).complete o.rid st f.state f.payload).gwPump

/-- R98: 250 ticks of H0 passed without a take, or without a reply after one. -/
def execLatigoResendTimeout (tag : Nat) (s : State) : Out :=
  up s fun s =>
    match s.gw.out.find? fun o => o.tag = tag with
    | none => s
    | some o => if s.tk 80 - o.since < 250 then s else s.resend o

/-- R97: an EMPTY frame passes a node, which may overwrite it: a REPLY first, else an EVENT when the node's address is
at least FIRST. -/
def execLatigoEmpty (st : Nat) (f : Frame) (s : State) : Out :=
  up s fun s => s.atNode st 0 f fun s =>
    let n := s.node st
    match n.replies with
    | r :: rs => (s.setNode st { n with replies := rs }).emit (.latigo r)
    | [] =>
      if st + 1 < f.index % 256 then s
      else match n.events.find? fun e => e.sent.isNone with
      | none => s
      | some e =>
        (s.setNode st { n with events := n.events.map fun x =>
          if x.seq = e.seq then { x with sent := some (s.tk st) } else x }).emit (.latigo e.frame)

/-- R97, R99: an EVENT at the gateway is answered by an EVENT_ACK that echoes its sequence; a corrupt one is
discarded. -/
def execLatigoEvent (f : Frame) (s : State) : Out :=
  up s fun s =>
    if f.corrupt || !frameOk f || f.type ≠ 4 then s else s.emit (.latigo (gwFrame 7 f.src f.tag 0 0 0 []))

/-- R99: an EVENT_ACK ends the resending of its event. -/
def execLatigoEventAck (st : Nat) (f : Frame) (s : State) : Out :=
  up s fun s => s.atNode st 7 f fun s =>
    if f.dst ≠ st + 1 then s else
    let n := s.node st
    s.setNode st { n with events := n.events.filter fun e => e.seq ≠ f.tag }

/-- R99: events sent 100 ticks ago and not acknowledged are sent again. -/
def execEventResendTimer (st : Nat) (s : State) : Out :=
  up s fun s =>
    if !(st < 100 && (s.node st).alive) then s else
    let n := s.node st
    s.setNode st { n with events := n.events.map fun e =>
      match e.sent with
      | some t => if 100 ≤ s.tk st - t then { e with sent := none } else e
      | none => e }

/-- R49, R100: a BROADCAST passes a node; a live station adopts HOST_EPOCH, and with H0 the block-level parts. -/
def execLatigoBroadcast (st : Nat) (f : Frame) (s : State) : Out :=
  up s fun s => s.atNode st 5 f fun s =>
    if f.index = 0x2000 ∧ f.sub = 0x10 ∧ s.present st && !s.lame st then
      let e := leNat (f.payload.take 6)
      let s := s.adopt st e
      if st = 80 then s.adopt 0x80 e else s
    else s

/-- R101: 4,000 ticks of H0 after the last, the gateway sends a HEARTBEAT with all node bits clear. -/
def execLatigoHeartbeatTimer (s : State) : Out :=
  up s fun s =>
    if s.ringBrokenBit || !s.timerDue .heartbeat 0 80 4000 then s
    else (({ s with gw := { s.gw with hbOut := true } } : State).timerSet .heartbeat 0 80).emit (.latigo (gwFrame 6 0x7F 0 0 0 0 (leBytes 16 0)))

/-- R101: a live node sets its bit in the passing HEARTBEAT. -/
def execLatigoHeartbeat (st : Nat) (f : Frame) (s : State) : Out :=
  up s fun s => s.atNode st 6 f fun s =>
    s.emit (.latigo (sealFrame { f with payload := leBytes 16 (Nat.lor (leNat f.payload) (2 ^ (st + 1))) }))

/-- R95: after 30 ticks with no bit on its primary input a node switches to the skip hop. Where the node before it is dead the ticks
count from its death; where a wire failed, the command is what tells of it. -/
def execSkipHopSwitch (st : Nat) (s : State) : Out :=
  up s fun s =>
    if st < 100 && (s.node st).alive && !(s.node st).skip && (s.predAlive st || s.timerDue .skipHop (st - 1) st 30) then
      s.hopSwitch st true
    else s

/-- R102: no frame returned for 100 µs: the ring is broken, a floor-plan event follows, and every station request
completes with TIMEOUT. -/
def State.breakRing (s : State) : State :=
  let s := (s.odSet 0x7000 0x10 1).fpEvent []
  let rids := s.gw.out.map (·.rid) ++ s.gw.held
  rids.foldl (fun s rid => s.complete rid .timeout 0 [])
    { s with gw := { s.gw with out := [], held := [], bcast := none, hbOut := false } }

/-- R102. -/
def execRingBroken (s : State) : Out := up s fun s => if s.ringBrokenBit then s else s.breakRing

/-! ### The management endpoint -/

/-- A response to an MCTP control message: type 0, the command code, a completion code, data.
PRESUMED: command codes and layouts of the MCTP base specification (log entry 17). -/
def State.mctpCtl (s : State) (code cc : Nat) (b : Bytes) : State :=
  if s.mgmt.addr = 0 then s else s.mgmtSay (leBytes 1 0 ++ leBytes 1 code ++ leBytes 1 cc ++ b)

/-- R89: Set Endpoint ID. Values 0 and 0xFF name no endpoint. -/
def execSetEndpointId (eid : Nat) (s : State) : Out :=
  up s fun s =>
    if s.mgmt.addr = 0 then s
    else if eid = 0 ∨ 255 ≤ eid then s.mctpCtl 1 2 []
    else ({ s with mgmt := { s.mgmt with eid := eid } } : State).mctpCtl 1 0 (leBytes 1 eid)

/-- R89: Get Endpoint ID. -/
def execGetEndpointId (s : State) : Out := up s fun s => s.mctpCtl 2 0 (leBytes 1 s.mgmt.eid)

/-- R89: Get MCTP Version Support. -/
def execGetMctpVersionSupport (msgType : Nat) (s : State) : Out :=
  up s fun s =>
    if msgType = 0 ∨ msgType = 0x7F ∨ msgType = 5 ∨ msgType = 0xFF then s.mctpCtl 4 0 (leBytes 1 1) else s.mctpCtl 4 0x80 []

/-- R89: Get Message Type Support: the vendor-defined IANA type, and SPDM (R456). -/
def execGetMessageTypeSupport (s : State) : Out := up s fun s => s.mctpCtl 5 0 (leBytes 1 2 ++ leBytes 1 5 ++ leBytes 1 0x7F)

/-- R89: Get Vendor Defined Message Support: one set, the enterprise number of OD 0x1000.12. -/
def execGetVendorDefinedMsgSupport (selector : Nat) (s : State) : Out :=
  up s fun s =>
    if selector = 0 then s.mctpCtl 6 0 (leBytes 1 0xFF ++ leBytes 1 1 ++ leBytes 4 s.fuses.enterprise) else s.mctpCtl 6 2 []

/-- R88: ENTDAA gives the endpoint its dynamic address. -/
def execEntdaa (addr : Nat) (s : State) : Out :=
  up s fun s => if s.mgmt.addr = 0 then { s with mgmt := { s.mgmt with addr := addr } } else s

end Sys2Proof.Machine
end

