-- ==== Sys2Proof/Machine/Trace.lean ====
section
/-! DEFINITION. Trace records (R520, R521) and the link events of side stream 5 (R361). -/

namespace Sys2Proof.Machine

/-- A trace record is dropped (R521). -/
def State.traceDrop (s : State) : State := (s.raise 0x30C 0 0x310).inc 0x318

/-- Whether the trace buffer has reached its threshold (R521). -/
def State.traceHigh (s : State) : Bool := s.odNum 0xA000 0x14 ≤ (s.rd 0x308 - s.rd 0x304).toNat

/-- An event of trace class `cls` at station `st` (R520, R521): nothing unless class and station are selected; over the
station's rate it is suppressed, and the next record of the class carries RATE_GAP; with the writer disabled, the ring
full or in ORPHAN it is dropped. -/
def State.trace (s : State) (cls st obj arg : Nat) : State :=
  if !(s.odNum 0xA000 0x12).testBit cls || !(leNat (s.odBlob 0xA000 0x13)).testBit st then s
  else if s.odNum 0xA000 0x15 ≤ sGet 0 s.tel.traceRate st then
    { s with tel := { s.tel with traceGaps := (st, cls) :: s.tel.traceGaps.filter (· ≠ (st, cls)) } } |>.inc 0x318
  else
    let s := { s with tel := { s.tel with traceRate := sMod 0 s.tel.traceRate st (· + 1) } }
    let gap := s.tel.traceGaps.contains (st, cls)
    let n := 2 ^ s.odNum 0xA000 0x11
    let tail := (s.rd 0x308).toNat
    if !s.bit 0x300 1 || s.inOrphan || n ≤ (s.rd 0x308 - s.rd 0x304).toNat then s.traceDrop
    else
      let (tg, s) := s.tag st
      let s := { s with tel := { s.tel with traceGaps := s.tel.traceGaps.filter (· ≠ (st, cls)) } }
      let b := leBytes 1 (cls + 1) ++ leBytes 1 (b2n (tail / n % 2 = 0) + 2 * b2n gap) ++ leBytes 1 st ++ leBytes 1 0 ++
        leBytes 4 obj ++ leBytes 8 arg ++ tg
      let s := (s.hostCtlWrite 0 (s.odNum 0xA000 0x10 + tail % n * 32) b).inc 0x308
      if s.traceHigh && s.tel.traceArmed then
        ({ s with tel := { s.tel with traceArmed := false } } : State).irq 0xCE7
      else s

/-- Send LINK_EVENT `ev` of pommel `k` over pommel `via` (R361). -/
def State.linkEvent (s : State) (via k ev : Nat) : State :=
  let sp := s.rd (pmReg k 0x30C0)
  let spares := getBits sp 0 4 + getBits sp 4 4 + getBits sp 8 4 + getBits sp 12 4
  (s.sideMsg via 5 2 (80 + k + 256 * ev) (leBytes 1 (s.fld (pmReg k 0x3080) 4 3) ++ leBytes 1 spares)).trace 7 (80 + k)
    (80 + k) ev

end Sys2Proof.Machine
end

