-- ==== Sys2Proof/Machine/Floor.lean ====
section
/-! DEFINITION. The floor plan as units fail (R21 to R24, R39, R435), leases (R424 to R429), the state of host links and
cantle ports (R361 to R368, R397), frames and their guards (R172). -/

namespace Sys2Proof.Machine

/-! ### Leases -/

/-- Length L of a lease of a kind, in ticks of its supervisor (R425). -/
def leaseLen (kind : Nat) : Nat :=
  match kind with
  | 1 => 4000 | 2 => 2000 | 3 => 2000 | 4 => 2000 | 5 => 4000 | 6 => 8000 | 7 => 40000 | _ => 8000

/-- The key of a lease in the table. -/
def leaseKey (kind res : Nat) : Nat := kind * 2 ^ 40 + res

/-- Remove a lease from its table. -/
def State.leaseEnd (s : State) (kind res : Nat) : State :=
  { s with rcv := { s.rcv with leases := sDel s.rcv.leases (leaseKey kind res) } }

/-- The skirt of a lease's resource. -/
def State.leaseSkirt (s : State) (kind res : Nat) : Nat :=
  match kind with
  | 1 => skirtOf (res / 8)
  | 2 => res % 4
  | 3 => skirtOf (res / 2 ^ 20)
  | 4 => skirtOf res
  | 5 => (s.que res).skirt
  | _ => if res < 2 ^ 24 then (s.que res).skirt else if res < 2 ^ 25 then res % 4 else (s.que (res - 2 ^ 25)).skirt

/-- The supervisor that breaks a lease (R425, R429): 0 to 3 a skirt's, 4 the block's. -/
def State.leaseSup (s : State) (key : Nat) : Nat :=
  let kind := key / 2 ^ 40
  let res := key % 2 ^ 40
  let next := (s.supervisor 1).1 - 80
  if kind = 7 then 4
  else if kind = 8 then (if res = 4 then next else 4)
  else if kind = 1 ∧ s.supervisor 0 = (res / 8, res % 8) then next
  else if kind = 1 ∧ (List.range 4).any (fun k => s.supervisor k = (res / 8, res % 8)) then 4
  else s.leaseSkirt kind res

/-- The ticks of supervisor `k`, by which its leases run (R424). -/
def State.supTk (s : State) (k : Nat) : Nat := s.tk (s.supervisor (if k = 4 then 0 else k)).1

/-- Start a lease, or restart its expiry at full length, in ticks of its supervisor (R424). -/
def State.leaseStart (s : State) (kind res : Nat) : State :=
  let key := leaseKey kind res
  { s with rcv := { s.rcv with leases := sIns s.rcv.leases key { expiry := s.supTk (s.leaseSup key) + leaseLen kind } } }

/-- The supervisors that sit where `p` says. -/
def State.supsAt (s : State) (p : Nat × Nat → Bool) : List Nat :=
  let ks := (List.range 4).filter fun k => p (s.supervisor k)
  if ks.contains 0 then ks ++ [4] else ks

/-- New supervisors read their tables and restart every expiry at full length (R429), the heartbeat lease's among them
(R504). -/
def State.leaseRestart (s : State) (ks : List Nat) : State :=
  let ls := sMap s.rcv.leases fun k l =>
    if ks.contains (s.leaseSup k) || k / 2 ^ 40 = 8 && ks.contains (k % 2 ^ 40) then
      { expiry := s.supTk (s.leaseSup k) + leaseLen (k / 2 ^ 40) } else l
  let s := { s with rcv := { s.rcv with leases := ls } }
  if ks.contains 4 then { s with orph := { s.orph with expiry := s.supTk 4 + s.orph.leaseLen, hbFlagged := false } } else s

/-! ### Cores and stations marked LAME -/

/-- The duties that core `c` of station `n` holds. -/
def State.dutiesOf (s : State) (n c : Nat) : List Nat := (List.range 8).filter fun d => s.dutyCore n d = c

/-- The core that takes a duty over in a station whose core `c` left (R23): C7 when it is live and holds no other
duty, else the lowest live core. -/
def State.takeover (s : State) (n c : Nat) : Option Nat :=
  if c ≠ 7 && s.coreUp n 7 && (s.dutiesOf n 7).all (· = 7) then some 7
  else (List.range 8).find? fun d => d ≠ c && s.coreUp n d

/-- Set the core of a duty. -/
def State.setDuty (s : State) (n d c : Nat) : State :=
  { s with rcv := { s.rcv with duty := sPut d s.rcv.duty (n * 8 + d) c } }

/-- Move the duties of core `c` of station `n`, which is no longer live (R23). The duty of the spare core is none. -/
def State.moveDuties (s : State) (n c : Nat) : State :=
  (s.dutiesOf n c).foldl (fun s d =>
    if d = 7 then s.setDuty n 7 7
    else match s.takeover n c with
      | some t => s.setDuty n d t
      | none => s) s

/-- Give core `c` of station `n` its own duty back (R429, R430). -/
def State.returnDuty (s : State) (n c : Nat) : State := s.setDuty n c c

/-- A hand-over of the supervisors `ks` (R24, R429): their expiries restart, and each changes the floor plan by itself (R39). -/
def State.handover (s : State) (ks : List Nat) : State := ks.foldl (fun s _ => s.fpEvent []) (s.leaseRestart ks)

/-- The link of pommel `k` leaves use: DOWN, and its die's carrier duty passes on (R363, R368). -/
def State.linkOff (s : State) (k : Nat) : State :=
  let s := ((s.setFld (pmReg k 0x3080) 0 2 0).setFld (pmReg k 0x3080) 4 3 0).setBit (pmReg k 0x3040) 2 false
  s.pickCarrier (k / 2)

/-- A link reached DOWN (R368): LINK_DOWN sets, and DOWN is sent over the other pommel facing the die. The boot link's fall
is noted, for R505. -/
def State.linkDown (s : State) (k : Nat) : State :=
  let fell := k = s.bootPm && (s.phase = 2 || s.phase = 4) && s.fld (pmReg k 0x3080) 0 2 ≠ 0
  let s := (s.linkOff k).raise (pmReg k 0x3084) 3 (pmReg k 0x3094)
  let s := if fell then { s with orph := { s.orph with bootFell := true } } else s
  let o := Nat.xor k 1
  if s.linkActive o then s.linkEvent o k 5 else s

/-- The port of a station that leaves service drops to link down (R37). -/
def State.portOff (s : State) (n : Nat) : State :=
  match kindOf n with
  | .stirrup => s
  | .pommel => if s.fld (pmReg (n - 80) 0x3080) 0 2 = 0 then s else s.linkDown (n - 80)
  | .cantle => s.setFld (pageOf n + 0x4000) 0 2 0

/-- Mark station `n` LAME (R434, R435); its loss is taken up under R436 or R437. `ev` is false inside a bring-up step, which raises its one event itself (R39). -/
def State.lameStation (s : State) (n : Nat) (ev : Bool) : State :=
  if s.lame n then s else
  let sup := s.supsAt fun x => x.1 = n
  let s := { s with rcv := { s.rcv with fell := s.rcv.fell ++ [n] } }
  let s := (s.setBit (pageOf n) 13 true).err { cls := 6, code := 0x0603, station := n, detail := 8 + 256 * n }
  let s := if ev then s.fpEvent [n] else s
  let s := s.portOff n
  if sup.isEmpty then s else if ev then s.handover sup else s.leaseRestart sup

/-- Core `c` of station `n` fails: CORES_OK clears, its duties move, and a station with no live core is marked LAME. A core
of the first bring-up is excluded without a mark (R474, R477). -/
def State.dropCore (s : State) (n c : Nat) (mark ev : Bool) : State :=
  if !(s.coresOk n).testBit c then s else
  let sup := s.supsAt fun x => x = (n, c)
  let s := s.setFld (pageOf n) 16 8 (s.coresOk n - 2 ^ c)
  let s := (s.leaseEnd 1 (n * 8 + c)).moveDuties n c
  let s := if mark then s.err { cls := 6, code := 0x0603, station := n, detail := 1 + 256 * c } else s
  let s := if mark ∧ ev then s.fpEvent [n] else s
  if s.coresOk n = 0 then (if mark then s.lameStation n ev else s.setBit (pageOf n) 12 false)
  else if !sup.isEmpty ∧ mark ∧ ev then s.handover sup else s

/-! ### Host links -/

/-- Set the link of pommel `k` after training (R364, R368): orientation, modules and spares in use, up to four of each. -/
def State.setLink (s : State) (k : Nat) (rotated : Bool) (modules : Nat) (spares : List Nat) : State :=
  let o := pmReg k 0x3080
  let s := (((s.setFld o 0 2 (if modules = 0 then 0 else 2)).setBit o 2 rotated).setBit o 3
    (rotated ≠ (2 ≤ k : Bool))).setFld o 4 3 modules
  (s.setPort k { s.port k with usable := modules }).wr (pmReg k 0x30C0)
    (BitVec.ofNat 32 ((spares.take 4).zipIdx.foldl (fun v e => v + min e.1 4 * 16 ^ e.2) 0))

/-- A retrain of pommel `k` starts (R368 step 1): RETRAIN_START is sent, the state is RETRAINING and the carrier duty is
handed over. -/
def State.retrainStart (s : State) (k : Nat) : State :=
  let s := if s.linkActive k then s.linkEvent k k 2 else s
  let s := s.setPort k { s.port k with preWidth := s.fld (pmReg k 0x3080) 4 3, retrainSince := s.tk (80 + k),
                                       charges := [], failRun := 0, failLanes := [], replaying := false }
  ((s.setFld (pmReg k 0x3080) 0 2 3).setBit (pmReg k 0x3040) 2 false).pickCarrier (k / 2)

/-- A retrain of pommel `k` ends ACTIVE (R368 step 4): RETRAIN_DONE, and NARROWED when the width fell; the retrain counts
in the wear ledger (R52). DEDUCED: modules that training did not find usable stay out (log entry 97). -/
def State.retrainUp (s : State) (k : Nat) (rotated : Bool) (modules : Nat) (spares : List Nat) : State :=
  let pre := (s.port k).preWidth
  let s := (s.setLink k rotated modules spares).inc (pmReg k 0x309C)
  let w := sGet {} s.wear (80 + k)
  let s := { s with wear := sPut {} s.wear (80 + k) { w with retrains := satAdd 32 w.retrains 1 } }
  let s := s.linkEvent k k 3
  let s := if modules < pre then (s.linkEvent k k 4).raise (pmReg k 0x3084) 2 (pmReg k 0x3090) else s
  s.pickCarrier (k / 2)

/-- The retrain of pommel `k` ends: ACTIVE with at least one module, else DOWN. A module dropped before stays out of use (R368). -/
def State.retrainEnd (s : State) (k : Nat) (t : PortTrain) : State :=
  let m := min t.modules (s.port k).usable
  if m = 0 then s.linkDown k else s.retrainUp k t.rotated m t.spares

/-! ### Frames (R172, R173) -/

/-- Frames below this number are usable (R172). -/
def State.usable (s : State) : Nat := 16 * s.stackCount * 1571328

/-- The guard of a frame (R172). -/
def State.guardOf (s : State) (f : Nat) : Nat := 16 * s.stackOf f + f / s.stackCount % 16

/-- Whether guard `g` serves requests (R174, R489): in service, and its stack not under retraining. -/
def State.guardUp (s : State) (g : Nat) : Bool := s.guardIn g && s.rcv.stackBusy ≠ some (g / 16)

/-- Whether some frame of a run lies behind a guard that is out of service (R174). -/
def State.runOut (s : State) (f n : Nat) : Bool :=
  (List.range (min n (16 * s.stackCount))).any fun i => !s.guardUp (s.guardOf (f + i))

/-- Whether every frame of a run is usable and free. -/
def State.runFree (s : State) (f n : Nat) : Bool :=
  f + n ≤ s.usable && s.own.all fun e => !(f ≤ e.1 && e.1 < f + n)

/-- Set the owner words of a run of frames; the free word lists nothing. -/
def ownRun (m : Smap W32) (f n : Nat) (w : W32) : Smap W32 :=
  (m.filter fun e => e.1 < f) ++ (if w = 0 then [] else (List.range n).map fun i => (f + i, w)) ++
    m.filter fun e => f + n ≤ e.1

end Sys2Proof.Machine
end

