-- ==== Sys2Proof/Machine/BringUp.lean ====
section
/-! DEFINITION. From supply and reset to READY (R469 to R489): the fundamental reset, the ten bring-up steps,
BOOT_FRAME_SET and RETRAIN, fuses and rails. -/

namespace Sys2Proof.Machine

/-! ### Supply and reset -/

/-- The state in which a fundamental reset leaves the block (R36, R345): everything at its reset value, but the fuses,
what the surroundings hold (host memory, and device memory, whose contents nobody promises), the model's own counters
and the commands waiting. DESIGN CHOICE: device memory keeps its bytes (log entry 18). -/
def State.coldReset (s : State) (p : Power) : State :=
  { State.reset with pending := s.pending, freeSeq := s.freeSeq, out := s.out, power := p, pins := s.pins,
                     fuses := s.fuses, dev := s.dev, host := s.host }

/-- R2, R513: the rails go; nothing is kept but the fuses and the surroundings. -/
def execPowerRemoved (s : State) : Out :=
  .next { s.coldReset .off with dev := {} }

/-- R2, R43, R56: the rails come up, with the fundamental reset input asserted. -/
def execPowerApplied (s : State) : Out :=
  .next (if s.power = .off then s.coldReset .held else s)

/-- R35, R473: the fundamental reset input is asserted: whatever ran is abandoned. -/
def execFundamentalResetAssert (s : State) : Out :=
  .next (if s.power = .off then s else s.coldReset .held)

/-- The three straps as bits [7:0] of STRAPS, latched in every pommel (R365). -/
def State.latchStraps (s : State) (pins : Byte) : State :=
  (List.range 4).foldl (fun s k => s.wr (pmReg k 0x30C8) (pins.setWidth 32)) s

/-- Store the marks and counts of a measurement of pommel `k` (R370, R483). -/
def State.markLanes (s : State) (k : Nat) (r : LinkRes) : State :=
  let s := (List.range 4).foldl (fun s i =>
    let o := pmReg k (0x30A0 + 8 * i)
    s.wr64 o (Nat.lor (s.rd64 o) (badMask r i))) s
  (s.inc64 (pmReg k 0x30D8) (sumNat (r.lanes.map fun l => l.2.1))).inc64 (pmReg k 0x30E0)
    (sumNat (r.lanes.map Prod.fst))

/-- The boot port is trained and measured with the default dwell and exponent (R365, R469). -/
def State.bootTrain (s : State) (boot : PortMeas) : State :=
  let r := judgeHost 9 boot
  let k := s.bootPm
  let t := (s.markLanes k r).setLink k boot.rotated r.width r.spares
  { t with bu := { t.bu with bootRes := some r } }

/-- R365, R469: the reset input is released: the straps are latched, the boot port is trained and measured, and the block is in
BRING_UP with STEP 0. The value of INCARNATION is drawn (R376). The management endpoint asks to join its bus (R88). -/
def execFundamentalReset (pins : Byte) (boot : PortMeas) (s : State) : Out :=
  .next (if s.power = .held then
    ((({ s with power := .up, pins := pins, freeSeq := s.freeSeq + 1, bu := { s.bu with incSeq := s.freeSeq } } :
      State).latchStraps pins).bootTrain boot).emit (.i3c 0)
  else s)

/-- R365: a strap pin changes; the latched straps stay. -/
def execStrapChange (pins : Byte) (s : State) : Out := .next { s with pins := pins }

/-! ### The steps -/

/-- Whether bring-up step `n` is running (R103, R470). -/
def State.stepRunning (s : State) (n : Nat) : Bool := s.cmdRunning 1 && s.cmdArg 1 0 1 = n

/-- Step `n` completes with OK: STEP takes its number. -/
def State.stepDone (s : State) (n : Nat) : State := (s.setFld 0x08 4 4 n).cmdEnd 1 0 0

/-- A step fails with a status and a detail (R471); STEP stays. -/
def State.stepFail (s : State) (st : St) (detail : Nat) : State := s.cmdEnd 1 st.code detail

/-- Train port `k`, unless it is the boot port, blocked or LAME (R364, R365, R478): without a module that works it stays DOWN. -/
def State.trainPort (s : State) (ts : List (Nat × PortTrain)) (k : Nat) : State :=
  if k = s.bootPm || s.bu.blocked || s.lame (80 + k) then s
  else match ts.find? fun t => t.1 = k with
  | some t => s.setLink k t.2.rotated (min t.2.modules 4) t.2.spares
  | none => s.setLink k false 0 []

/-- R364, R470, R478: step 1 trains the three other ports. -/
def execTrainHostPorts (ts : List (Nat × PortTrain)) (s : State) : Out :=
  up s fun s =>
    if !s.stepRunning 1 then s else ((List.range 4).foldl (fun s k => s.trainPort ts k) s).stepDone 1

/-- Take the other host ports DOWN by link disable, for good (R365). -/
def State.blockPorts (s : State) : State :=
  let s := (List.range 4).foldl (fun s k =>
    if k = s.bootPm then s else
    (s.setPort k { s.port k with linkDisabled := true }).linkDown k) s
  { s with bu := { s.bu with blocked := true } }

/-- R336, R365, R470: step 2 reads the identity fuses and compares the package variant. -/
def execReadIdentityFuses (readable : Bool) (s : State) : Out :=
  up s fun s =>
    if !s.stepRunning 2 then s
    else if !readable then s.stepFail .poison 2
    else if bitsOf s.straps 4 1 ≠ s.fuses.pkgVariant then s.blockPorts.stepFail .denied 1
    else s.stepDone 2

/-- The mask of live cores that self-test gives station `n`. -/
def goodCores (r : SelfTest) (n : Nat) : Nat :=
  (List.range 8).foldl (fun m c => if r.badCores.contains (n, c) then m else m + 2 ^ c) 0

/-- The first self-test of one station (R474). -/
def State.firstStation (s : State) (r : SelfTest) (n : Nat) : State :=
  if !s.fuses.stations.testBit n then s else
  let c := goodCores r n
  let pr := !r.badStations.contains n && c ≠ 0
  let tile := n < 80 && r.tilesAnswering.contains n
  let skv := pr && !r.badSkiving.contains n
  let o := pageOf n
  let s := ((s.setBit o 12 pr).setBit o 15 tile).setFld o 16 8 c
  let s := s.setBit (o + 0x2200) 0 skv
  let s := (List.range 8).foldl (fun s d => if c.testBit d then s else s.moveDuties n d) s
  { s with bu := { s.bu with
      presentFirst := s.bu.presentFirst + 2 ^ n * b2n pr, coresFirst := sPut 0 s.bu.coresFirst n c,
      tilesFirst := s.bu.tilesFirst + 2 ^ n * b2n tile, skvFirst := s.bu.skvFirst + 2 ^ n * b2n skv } }

/-- The first run of step 3 over the whole floor plan. -/
def State.firstPlan (s : State) (r : SelfTest) : State :=
  let s := (List.range 100).foldl (fun s n => s.firstStation r n) s
  (List.range 128).foldl (fun s g =>
    let ok := s.fuses.guards.testBit g && s.fuses.hbm.testBit (g / 16) && !r.badGuards.contains g
    let s := s.setBit (grdReg g 4) 0 ok
    { s with bu := { s.bu with guardsFirst := s.bu.guardsFirst + 2 ^ g * b2n ok } }) s

/-- A later run for one station: what passed first and fails now is marked LAME (R474), and what the first bring-up cleared stays
clear; TILE_OK says whether the tile answers. -/
def State.againStation (s : State) (r : SelfTest) (n : Nat) : State :=
  if s.lame n || !s.present n || !s.bu.presentFirst.testBit n then s
  else if r.badStations.contains n then s.lameStation n false
  else
    let s := (List.range 8).foldl (fun s c =>
      if (sGet 0 s.bu.coresFirst n).testBit c && r.badCores.contains (n, c) then s.dropCore n c true false else s) s
    let s := if s.bu.tilesFirst.testBit n then s.setBit (pageOf n) 15 (r.tilesAnswering.contains n) else s
    if s.bu.skvFirst.testBit n && r.badSkiving.contains n && !s.bit (pageOf n + 0x2200) 1 then
      (((s.setBit (pageOf n + 0x2200) 1 true).setBit (pageOf n + 0x2200) 0 false).err
        { cls := 6, code := 0x0603, station := n, detail := 4 })
    else s

/-- A later run of step 3 over the whole floor plan. -/
def State.againPlan (s : State) (r : SelfTest) : State :=
  let s := (List.range 100).foldl (fun s n => s.againStation r n) s
  (List.range 128).foldl (fun s g =>
    if s.bu.guardsFirst.testBit g && s.guardIn g && !s.bit (grdReg g 4) 2 && r.badGuards.contains g then
      (((s.setBit (grdReg g 4) 2 true).setBit (grdReg g 4) 0 false).err
        { cls := 6, code := 0x0603, station := 80 + g / 32, detail := 5 + 256 * g })
    else s) s

/-- The stations whose STN_IDENT entry differs between two states, IN_RESET and FP_GEN left out (R39). -/
def identChanged (a b : State) : List Nat :=
  (List.range 100).filter fun n => (a.rd (pageOf n) ^^^ b.rd (pageOf n)) &&& 0x00FFBFFF#32 ≠ 0

/-- One floor-plan event for a step that changed any entry (R39). -/
def stepEvent (a b : State) : State :=
  let ch := identChanged a b
  if ch.isEmpty && (List.range 128).all (fun g => a.guardIn g = b.guardIn g) then b else b.fpEvent ch

/-- R55, R473: blow the power-cycle bit at the first successful run of step 3. -/
def State.blowCycle (s : State) : State :=
  if s.bu.pcBlown then s else
  { s with bu := { s.bu with pcBlown := true },
           fuses := { s.fuses with powerCycles := min (s.fuses.powerCycles + 1) 4096 } }

/-- R474: step 3. DEDUCED: a step that fails fills in nothing (log entry 19). -/
def execFloorPlanSelfTest (r : SelfTest) (s : State) : Out :=
  up s fun s =>
    if !s.stepRunning 3 then s
    else if !r.fusesReadable then s.stepFail .poison 2
    else if !r.blockPartsOk then s.stepFail .lame 3
    else
      let t := if s.bu.firstRun3 then s.againPlan r else s.firstPlan r
      let b := 80 + s.bootPm
      if t.coresOk b = 0 then s.stepFail .lame 4
      else
        let t := ({ t with bu := { t.bu with firstRun3 := true } } : State).blowCycle
        (stepEvent s t).stepDone 3

/-- R101, R474: step 4 compares the heartbeat's bitmap with PRESENT. -/
def execLatigoEnumeration (marked : List Nat) (returned : Bool) (s : State) : Out :=
  up s fun s =>
    if !s.stepRunning 4 then s
    else if !returned || s.ringBrokenBit then s.stepFail .timeout 5
    else
      let t := (List.range 100).foldl (fun s n =>
        if !s.present n || s.lame n || marked.contains n then s
        else if s.bu.again then s.lameStation n false
        else s.setBit (pageOf n) 12 false) s
      (stepEvent s t).stepDone 4

/-! ### Firmware (R475 to R477) -/

/-- Image descriptor `i` of a bundle: kind, offset, size. -/
def fwImage (b : Bytes) (i : Nat) : Nat × Nat × Nat :=
  (fieldAt b (16 + 64 * i) 1, fieldAt b (16 + 64 * i + 4) 4, fieldAt b (16 + 64 * i + 8) 4)

/-- Whether a bundle is laid out as R475 says. -/
def fwOk (b : Bytes) : Bool :=
  let n := fieldAt b 12 4
  let is := (List.range 4).map (fwImage b)
  368 ≤ b.length && fieldAt b 0 4 = 0x57464B43 && fieldAt b 4 2 = 1 && fieldAt b 6 2 = 4 && n = b.length &&
    (is.all fun i => 1 ≤ i.1 && i.1 ≤ 4 && 1 ≤ i.2.2 && i.2.2 ≤ 262144 && 272 ≤ i.2.1 && i.2.1 + i.2.2 ≤ n - 96) &&
    ((is.zipIdx).all fun p => (is.zipIdx).all fun q =>
      p.2 = q.2 || p.1.1 ≠ q.1.1 && (p.1.2.1 + p.1.2.2 ≤ q.1.2.1 || q.1.2.1 + q.1.2.2 ≤ p.1.2.1))

/-- The digest that a bundle names for image `i`, first byte most significant. -/
def fwDigest (b : Bytes) (i : Nat) : BitVec 384 :=
  BitVec.ofNat 384 (((b.drop (16 + 64 * i + 16)).take 48).foldl (fun v x => 256 * v + x.toNat) 0)

/-- Whether image `i` matches its digest. -/
def fwMatches (b : Bytes) (i : Nat) : Bool :=
  let d := fwImage b i
  Config.sha384 ((b.drop d.2.1).take d.2.2) = fwDigest b i

/-- The digest of the image of a kind (1 stirrup, 2 pommel, 3 cantle, 4 gateway). -/
def fwOfKind (b : Bytes) (k : Nat) : BitVec 384 :=
  match (List.range 4).find? fun i => (fwImage b i).1 = k with
  | some i => fwDigest b i
  | none => 0

/-- Step 5 completes when every core that is live has acknowledged (R477). -/
def State.fwFinish (s : State) : State :=
  let waits := (List.range 100).any fun n => s.present n && !s.lame n &&
    (List.range 8).any fun c => (s.coresOk n).testBit c && !s.bu.acked.contains (n * 8 + c)
  if waits then s else
  let s := if s.bu.changed5.isEmpty then s else s.fpEvent s.bu.changed5
  let s := { s with bu := { s.bu with changed5 := [] } }
  if s.coresOk (80 + s.bootPm) = 0 || s.lame (80 + s.bootPm) then s.stepFail .lame 4
  else (s.setBit 0x2000 4 true).stepDone 5

/-- Send every present station's image to its live cores (R477). -/
def State.fwSend (s : State) : State :=
  (List.range 100).foldl (fun s n =>
    if !s.present n || s.lame n then s else
    (List.range 8).foldl (fun s c =>
      if (s.coresOk n).testBit c then
        ({ s with bu := { s.bu with loads := sPut 0 s.bu.loads (n * 8 + c) 1 } } : State).emit (.image n c)
      else s) s) s

/-- R476: step 5 checks the bundle and broadcasts it. -/
def execFirmwareLoad (s : State) : Out :=
  up s fun s =>
    if !s.stepRunning 5 then s else
    let b := s.odBytes 0x2000 0x80
    if !fwOk b then s.stepFail .invalid 6
    else if s.coresOk (80 + s.bootPm) = 0 then s.stepFail .lame 4
    else if !Config.verifyOnoskand (b.take (b.length - 96)) (b.drop (b.length - 96)) ||
        fieldAt b 8 4 < s.fuses.svnMin then s.stepFail .denied 7
    else if !((List.range 4).all (fwMatches b)) then s.stepFail .denied 0x0A
    else
      let s := { s with bu := { s.bu with
        imageDigests := (List.range 4).map fun k => fwOfKind b (k + 1), loads := [], acked := [], changed5 := [] } }
      s.fwSend.fwFinish

/-- R477: a core returns its digest: accepted, loaded again up to twice more, or excluded (marked LAME in a run after a
block reset). -/
def execCoreDigestAck (st c : Nat) (digest : BitVec 384) (s : State) : Out :=
  up s fun s =>
    let k := st * 8 + c
    let n := sGet 0 s.bu.loads k
    if !(s.stepRunning 5 && st < 100 && c < 8 && n ≠ 0 && s.present st && (s.coresOk st).testBit c &&
        !s.bu.acked.contains k) then s
    else if some digest = s.bu.imageDigests[kindCode (kindOf st)]? then
      ({ s with bu := { s.bu with acked := k :: s.bu.acked } } : State).fwFinish
    else if n < 3 then
      ({ s with bu := { s.bu with loads := sPut 0 s.bu.loads k (n + 1) } } : State).emit (.image st c)
    else
      let s := s.dropCore st c s.bu.again false
      let ch := if s.bu.changed5.contains st then s.bu.changed5 else st :: s.bu.changed5
      ({ s with bu := { s.bu with changed5 := ch } } : State).fwFinish

/-! ### Streams, cantle ports, stacks -/

/-- Step 6 completes when every present cantle's port is aligned or NO_LOCK. -/
def State.pcsFinish (s : State) : State :=
  if s.bu.pcs.any fun e => e.2 = 1 then s else s.stepDone 6

/-- Streams 1 to 3 run on pommel `k` if its link is ACTIVE (R478). -/
def State.streamsOn (s : State) (k : Nat) : State :=
  if s.linkActive k then s.setPort k { s.port k with streams := true } else s

/-- PMD training of cantle `p` is requested, if the cantle is present and the ports are not blocked (R479). -/
def State.pmdStart (s : State) (p : Nat) : State :=
  if s.present (84 + p) && !s.lame (84 + p) && !s.bu.blocked then
    ((({ s with bu := { s.bu with pcs := sPut 0 s.bu.pcs p 1 } } : State).setFld (pageOf (84 + p) + 0x4000) 0 2 1).emit
      (.start 0 (84 + p))).timerSet .pcsAlign p (84 + p)
  else s

/-- What step 6 starts: the streams, the carriers, the training of the cantles' ports. -/
def State.step6 (s : State) : State :=
  let s := (((List.range 4).foldl State.streamsOn s).pickCarrier 0).pickCarrier 1
  (List.range 16).foldl State.pmdStart { s with bu := { s.bu with pcs := [] } }

/-- R478, R479: step 6 starts streams 1 to 3, chooses carriers, and requests PMD training. -/
def execStartStreamsAndPmd (s : State) : Out :=
  up s fun s => if !s.stepRunning 6 then s else s.step6.pcsFinish

/-- Record what step 6 found of a cantle. -/
def State.pcsSet (s : State) (cn v : Nat) : State :=
  if s.stepRunning 6 && sGet 0 s.bu.pcs cn = 1 then
    ({ s with bu := { s.bu with pcs := sPut 0 s.bu.pcs cn v } } : State).pcsFinish
  else s

/-- R479: a cantle's PCS aligned. -/
def execPcsAligned (cn : Nat) (s : State) : Out := up s fun s => s.pcsSet cn 2

/-- R479: a cantle did not align within 50,000 ticks; its port stays DOWN. -/
def execPcsAlignTimeout (cn : Nat) (s : State) : Out :=
  up s fun s =>
    if s.stepRunning 6 && sGet 0 s.bu.pcs cn = 1 && s.timerDue .pcsAlign cn (84 + cn) 50000 then
      (s.pcsSet cn 3).setFld (pageOf (84 + cn) + 0x4000) 0 2 0
    else s

/-- R480: step 7 starts the training of every enabled stack. -/
def execStackTraining (s : State) : Out :=
  up s fun s =>
    if !s.stepRunning 7 then s else
    { s with bu := { s.bu with training := true },
             out := (((List.range 8).filter s.fuses.hbm.testBit).map fun k => OutMsg.start 1 k).reverse ++ s.out }

/-- The lowest `n` usable frames whose guards are in service, from frame `f` on. -/
def State.claim (s : State) (f n : Nat) : Nat → List Nat
  | 0 => []
  | fuel + 1 =>
    if n = 0 ∨ s.usable ≤ f then []
    else if s.guardIn (s.guardOf f) then f :: s.claim (f + 1) (n - 1) fuel else s.claim (f + 1) n fuel

/-- Take the guards of a stack out of service. -/
def State.stackOut (s : State) (k : Nat) : State :=
  (List.range 16).foldl (fun s i => (s.setBit (grdReg (16 * k + i) 4) 0 false).setBit (grdReg (16 * k + i) 4) 1 false) s

/-- R480: the owner-word table is built and the reserved frames are claimed. -/
def State.buildOwners (s : State) : State :=
  let fs := s.claim 0 1024 131072
  if fs.length < 1024 then s.stepFail .lame 8 else
  let s := { s with own := fs.zipIdx.map fun (e : Nat × Nat) => (e.1, if e.2 < 16 then 0x03000005#32 else 0x03000040#32),
                    bu := { s.bu with ledgerInFrames := true, ownersBuilt := true } }
  (s.odSet 0x2000 0x60 (fs.getLast?.getD 0)).stepDone 7

/-- The STACK_TRAIN bytes: 0 for a stack that is not enabled. -/
def State.trainBytes (s : State) (rs : List Nat) : Bytes :=
  (List.range 8).map fun k => if s.fuses.hbm.testBit k then BitVec.ofNat 8 ((rs[k]?).getD 3) else 0

/-- The result of step 7 (R480). -/
def State.step7 (s : State) (rs : List Nat) : State :=
  let t := { s.odPutBytes 0x2000 0xA0 (s.trainBytes rs) with bu := { s.bu with training := false } }
  let t := (List.range 8).foldl (fun t k =>
    if t.fuses.hbm.testBit k && (rs[k]?).getD 3 ≠ 1 then t.stackOut k else t) t
  (stepEvent s t).buildOwners

/-- Whether a frame is one of the reserved frames of R480. -/
def State.reserved (s : State) (f : Nat) (w : W32) : Bool :=
  f ≤ s.odNum 0x2000 0x60 && (bitsOf w.toNat 19 0 = 5 || bitsOf w.toNat 19 0 = 0x40) && bitsOf w.toNat 25 24 = 3

/-- The result of a stack RETRAIN (R489): the owner words of the stack turn free but for its reserved frames, whose data alone is
kept, and its guards return to service, or leave it. DEDUCED: the command completes with OK either way (log entry 20). -/
def State.stackRetrained (s : State) (k res : Nat) : State :=
  let st := (s.odBlob 0x2000 0xA0).set k (BitVec.ofNat 8 res)
  let t := { s.odPutBytes 0x2000 0xA0 st with rcv := { s.rcv with stackBusy := none } }
  let t := (List.range 16).foldl (fun t i => t.setBit (grdReg (16 * k + i) 4) 1 false) t
  let keep (f : Nat) : Bool := t.stackOf f ≠ k || t.own.any fun e => e.1 = f && t.reserved e.1 e.2
  let t := { t with dev := { bytes := t.dev.bytes.filter fun e => keep (e.1 / 4096),
                             poison := t.dev.poison.filter fun e => keep (e.1 / 64) } }
  let t := if res = 1 then { t with own := t.own.filter fun e => t.stackOf e.1 ≠ k || t.reserved e.1 e.2 }
    else
      -- each bit of GUARDS_PRESENT that changes counts on its own (R39)
      let u := t.stackOut k
      ((List.range 16).filter fun i => t.guardIn (16 * k + i) && !u.guardIn (16 * k + i)).foldl (fun u _ => u.fpEvent []) u
  t.cmdEnd 8 0 0

/-- R480, R489: the stacks' training results arrive. -/
def execStackTrainResult (rs : List Nat) (s : State) : Out :=
  up s fun s =>
    if s.stepRunning 7 && s.bu.training then s.step7 rs
    else match s.rcv.stackBusy with
    | some k => s.stackRetrained k ((rs[k]?).getD 3)
    | none => s

/-! ### The girth gate -/

/-- The next host port of the gate, in ascending station index: a non-boot port that is ACTIVE and not measured yet. -/
def State.nextDwell (s : State) : Option Nat :=
  ([0, 1, 2, 3] : List Nat).find? fun k => k ≠ s.bootPm && s.linkActive k && (sFind s.bu.girth k).isNone

/-- Start the next host dwell, or none. -/
def State.startDwell (s : State) : State :=
  match s.nextDwell with
  | some k => (({ s with bu := { s.bu with dwell := some k } } : State).timerSet .dwell k (80 + k)).retrainStart k
  | none => { s with bu := { s.bu with dwell := none } }

/-- Record the result of a link. -/
def State.setGirth (s : State) (k : Nat) (r : LinkRes) : State :=
  { s with bu := { s.bu with girth := sIns s.bu.girth k r } }

/-- GIRTH_ACCEPT at the end of step 8: the links that passed (R486). -/
def State.passMask (s : State) : Nat := s.bu.girth.foldl (fun v e => if e.2.verdict = 3 then v else v + 2 ^ e.1) 0

/-- Step 8 completes when no host port is out and every aligned cantle is measured. -/
def State.girthFinish (s : State) : State :=
  let open_ := (List.range 16).any fun p => sGet 0 s.bu.pcs p = 2 && (sFind s.bu.girth (4 + p)).isNone
  if s.bu.dwell.isSome || open_ then s
  else (({ s with bu := { s.bu with girthRun := false } } : State).odSet 0x2000 0x91 s.passMask).stepDone 8

/-- What step 8 starts with (R482): the boot port's record is the measurement of R469, and a port without a module and a cantle
without alignment read FAIL. -/
def State.step8 (s : State) : State :=
  let s := { s with bu := { s.bu with girthRun := true, girth := [] } }
  let s := (List.range 16).foldl (fun s p => s.timerSet .dwell (4 + p) (84 + p)) s
  let s := s.setGirth s.bootPm (s.bu.bootRes.getD linkFail)
  let s := (List.range 4).foldl (fun s k =>
    if k = s.bootPm || s.linkActive k || !s.present (80 + k) then s else s.setGirth k linkFail) s
  (List.range 16).foldl (fun s p =>
    if s.present (84 + p) && sGet 0 s.bu.pcs p ≠ 2 then s.setGirth (4 + p) linkFail else s) s

/-- R482: step 8 starts with the records that no dwell measures, and the first host dwell begins. -/
def execGirthGate (s : State) : Out :=
  up s fun s => if !s.stepRunning 8 then s else s.step8.startDwell.girthFinish

/-- R483: a dwell has lasted its ticks (R482) and ends: lanes and link are judged, a host port's failed lanes are marked and the port is retrained. -/
def execGirthDwellEnd (k : Nat) (m : PortMeas) (s : State) : Out :=
  up s fun s =>
    if !(s.stepRunning 8 && s.bu.girthRun) then s
    else if k < 4 then
      if s.bu.dwell ≠ some k || !s.timerDue .dwell k (80 + k) (s.odNum 0x2000 0x92) then s else
      let r := judgeHost (s.odNum 0x2000 0x94) m
      let s := (s.markLanes k r).setGirth k r
      let s := if r.width = 0 then s.linkDown k else s.retrainUp k m.rotated r.width r.spares
      s.startDwell.girthFinish
    else if sGet 0 s.bu.pcs (k - 4) = 2 && k < 20 && (sFind s.bu.girth k).isNone &&
        s.timerDue .dwell k (80 + k) (s.odNum 0x2000 0x93) then
      (s.setGirth k (judgeCantle (s.odNum 0x2000 0x95) m)).girthFinish
    else s

/-! ### Enable and READY -/

/-- Whether a link record is accepted for use (R486, R487): a host port with verdict FAIL never is. -/
def State.accepted (s : State) (k : Nat) : Bool :=
  (s.odNum 0x2000 0x91).testBit k && !(k < 4 && (sFind s.bu.girth k).any fun r => r.verdict = 3)

/-- Put one station in service (R487): IN_RESET clears, its time tags restart at 0, its leases start. -/
def State.enableStation (s : State) (n : Nat) : State :=
  if !s.present n || s.lame n then s else
  let s := s.setBit (pageOf n) 14 false
  let r := s.tagRec n
  let s := { s with tags := sPut {} s.tags n { r with seq := 0, wrapped := false } }
  (List.range 8).foldl (fun s c => if (s.coresOk n).testBit c then s.leaseStart 1 (n * 8 + c) else s) s

/-- A host link that is not accepted goes DOWN by link disable (R486, R487). -/
def State.enableHostLink (s : State) (k : Nat) : State :=
  if s.accepted k then s else (s.setPort k { s.port k with linkDisabled := true }).linkDown k

/-- The port of cantle `p` is UP where it is present, accepted and not blocked, else DOWN (R486, R487). -/
def State.enableCantle (s : State) (p : Nat) : State :=
  s.setFld (pageOf (84 + p) + 0x4000) 0 2 (if s.present (84 + p) && s.accepted (4 + p) && !s.bu.blocked then 2 else 0)

/-- What step 9 enables: every present station, the block-level scanners' leases, every accepted link. -/
def State.step9 (s : State) : State :=
  let s := (List.range 5).foldl (fun s k => s.leaseStart 8 k) ((List.range 100).foldl State.enableStation s)
  (List.range 16).foldl State.enableCantle ((List.range 4).foldl State.enableHostLink s)

/-- R487: step 9 enables every present station and every accepted link. -/
def execStationEnable (bootEnabled : Bool) (s : State) : Out :=
  up s fun s =>
    if !s.stepRunning 9 then s
    else if !bootEnabled then s.stepFail .lame 9
    else s.step9.stepDone 9

/-- R470, R487: step 10 sets BLK_STATE to READY and raises the command's source. -/
def execSetReady (s : State) : Out :=
  up s fun s => if s.stepRunning 10 then (s.setFld 0x08 0 4 2).stepDone 10 else s

/-! ### BOOT_FRAME_SET and RETRAIN -/

/-- R481: every frame is checked before any is written. -/
def execBootFrameSet (s : State) : Out :=
  up s fun s =>
    if !s.cmdRunning 7 then s else
    let f := s.cmdArg 7 0 8
    let n := s.cmdArg 7 8 4
    if s.runOut f n then s.cmdEnd 7 St.lame.code 0
    else if !s.runFree f n then s.cmdEnd 7 St.notNow.code 0x27
    else ({ s with own := ownRun s.own f n (BitVec.ofNat 32 (s.cmdArg 7 12 4)) } : State).cmdEnd 7 0 0

/-- The kind and index of a running RETRAIN (R488). -/
def State.retrainArg (s : State) : Nat × Nat := (bitsOf (s.cmdArg 8 0 4) 1 0, bitsOf (s.cmdArg 8 0 4) 6 2)

/-- A RETRAIN names a link of a station that is not in service, or a stack that is not enabled. DEDUCED: it ends with LAME (R435,
log entry 20). -/
def State.retrainGone (s : State) (kind k : Nat) : Bool :=
  match kind with
  | 1 => !s.present (80 + k) || s.lame (80 + k)
  | 2 => !s.present (84 + k) || s.lame (84 + k)
  | _ => !s.fuses.hbm.testBit k

/-- R489: a stack's guards drain and then refuse every request, and its training starts. -/
def execRetrainStack (s : State) : Out :=
  up s fun s =>
    let (kind, k) := s.retrainArg
    if !(s.cmdRunning 8 && kind = 3 && k < 8 && s.rcv.stackBusy.isNone) then s
    else if s.retrainGone 3 k then s.cmdEnd 8 11 0 else
    let s := (List.range 16).foldl (fun s i => s.setBit (grdReg (16 * k + i) 4) 1 true) s
    ({ s with rcv := { s.rcv with stackBusy := some k } } : State).emit (.start 1 k)

/-! ### Fuses and rails -/

/-- R55: a sensor at 115 °C or more blows a thermal-trip bit, unless the rail collapsed first, and the block enters
thermal shutdown. -/
def execThermalTrip (st : Nat) (temp : Int) (blown : Bool) (s : State) : Out :=
  up s fun s =>
    if !(st < 100 && s.fuses.stations.testBit st) || temp < 115 then s else
    let s := if blown then
        { s with fuses := { s.fuses with thermalTrips := min (s.fuses.thermalTrips + 1) 256 } }
      else s
    s.emit (.start 2 st)

/-- R493: a rail monitor 10 mV or more above RAIL_MAX_MV sets RAIL_OVER, which halves every station's PACE. -/
def execRailOverDetect (st mv : Nat) (s : State) : Out :=
  up s fun s =>
    if st < 100 && (s.fuses.railMax + 10 ≤ mv || !s.rcv.railOver.isEmpty && s.fuses.railMax < mv) then
      let t := s.odSet 0x2000 0x73 1
      { t with rcv := { t.rcv with railOver := if t.rcv.railOver.contains st then t.rcv.railOver else st :: t.rcv.railOver } }
    else s

/-- R493: a station's monitor reads RAIL_MAX_MV or less again; RAIL_OVER clears when none reads above it. -/
def execRailOverEnd (st mv : Nat) (s : State) : Out :=
  up s fun s =>
    if s.fuses.railMax < mv then s else
    let s := { s with rcv := { s.rcv with railOver := s.rcv.railOver.filter (· ≠ st) } }
    if s.rcv.railOver.isEmpty then s.odSet 0x2000 0x73 0 else s

/-- The effective PACE in 256ths of the issue slots (R492, R493). -/
def State.pace (s : State) : Nat :=
  let p := min s.fuses.paceFuse (s.odNum 0x2000 0x71)
  if s.rcv.railOver.isEmpty then p else p / 2

end Sys2Proof.Machine
end

