-- ==== Sys2Proof/Machine/Buckle.lean ====
section
/-! DEFINITION. Buckle (R402 to R412): claims, DONE, the target-control, target-set and source words, and the level
snapshots. Function 0 is the operator; function k acts through the view of partition k - 1. -/

namespace Sys2Proof.Machine

/-- Whether function `fn` reaches what carries this owner (R412): the operator everything, a VF what its configured
partition owns. -/
def State.fnReaches (s : State) (fn : Nat) (owned : Bool) (part : Nat) : Bool :=
  fn = 0 || owned && part = fn - 1 && s.configured (fn - 1)

/-- The sources that qualify for a claim of target `t` (R406). -/
def Buckle.claimable (b : Buckle) (t : Nat) : List (Nat × Src) :=
  if !(b.tgt t).en then [] else
  b.srcs.filter fun p => p.2.st = .pending && p.2.target = some t && p.2.enable && (b.tgt t).thresh ≤ p.2.prio

/-- The better of two sources (R406): the higher PRIO, and among equals the higher number. -/
def bestSrc : List (Nat × Src) → Option (Nat × Src)
  | [] => none
  | a :: l => match bestSrc l with
    | none => some a
    | some b => if b.2.prio < a.2.prio then some a else some b

/-- What a read of BKL_CLAIM returns, and Buckle after it. -/
def Buckle.claim (b : Buckle) (t : Nat) : Nat × Buckle :=
  match bestSrc (b.claimable t) with
  | none => (0, b)
  | some (n, v) => (n + 0x1000 * v.prio + 0x80000000, b.setSrc n { v with st := .inService })

/-- R406: a read of BKL_CLAIM of target `t`. A block that is not up gives all ones (R4, R35). -/
def execBklClaim (fn t : Nat) (s : State) : Out :=
  upElse s (.barData fn 0 (0x21000 + t * 0x10) (BitVec.allOnes 64)) fun s =>
    let off := 0x21000 + t * 0x10
    let g := s.bkl.tgt t
    if !s.fnReaches fn g.owned g.part then s.emit (.barData fn 0 off 0)
    else
      let (v, b) := s.bkl.claim t
      let s := s.onBkl fun _ => b
      (if v = 0 then s else s.trace 8 80 t (v % 4096)).emit (.barData fn 0 off (BitVec.ofNat 64 v))

/-- R406: a write of BKL_DONE of target `t` names `src`; a source not IN_SERVICE under `t` sets BAD_DONE. -/
def State.bklDone (s : State) (fn t src : Nat) : State :=
  let g := s.bkl.tgt t
  if 256 ≤ t || !s.fnReaches fn g.owned g.part then s
  else s.onBkl fun b =>
    let v := b.src src
    if v.st = .inService ∧ v.target = some t then b.setSrc src { v with st := .idle, target := none } else b.flag 1

/-- R406: a write of BKL_DONE. -/
def execBklDone (fn t src : Nat) (s : State) : Out := up s fun s => s.bklDone fn t src

/-- R402, R412: a write of BKL_SET. -/
def State.bklSet (s : State) (fn src : Nat) : State :=
  let v := s.bkl.src src
  if 0xCE8 ≤ src || !s.fnReaches fn v.owned v.part then s else s.irq src

/-- R402: a write of BKL_SET. -/
def execBklSet (fn src : Nat) (s : State) : Out := up s fun s => s.bklSet fn src

/-- Choose again for every PENDING source without a target, in ascending number (R405). -/
def Buckle.rechoose (b : Buckle) : Buckle :=
  (b.srcs.map Prod.fst).foldl (fun b n =>
    let v := b.src n
    if v.st = .pending ∧ v.target = none then b.assign n else b) b

/-- Choose again for every unclaimed source delivered to target `t` (R405). -/
def Buckle.evict (b : Buckle) (t : Nat) : Buckle :=
  (b.srcs.map Prod.fst).foldl (fun b n =>
    let v := b.src n
    if v.st = .pending ∧ v.target = some t then b.assign n else b) b

/-- Set the control of target `t`, with the new choices that a change of EN brings. -/
def Buckle.setTgt (b : Buckle) (t : Nat) (g : Tgt) : Buckle :=
  let was := (b.tgt t).en
  let b := { b with tgts := sPut {} b.tgts t g }
  if g.en && !was then b.rechoose else if was && !g.en then b.evict t else b

/-- R405, R411, R412: a write of a target's control. THRESH above 16 is a value fault. -/
def State.bklTgtWrite (s : State) (fn t : Nat) (v : W32) : State :=
  let g := s.bkl.tgt t
  if 256 ≤ t || !s.fnReaches fn g.owned g.part then s else
  let th := getBits v 4 5
  let g := { g with en := v.getLsbD 0, thresh := if th ≤ 16 then th else g.thresh }
  let g := if fn = 0 then { g with part := getBits v 16 6, owned := v.getLsbD 22 } else g
  let s := s.onBkl fun b => b.setTgt t g
  if th ≤ 16 then s else s.accessErr fn 0 (0x21008 + t * 0x10)

/-- R411: a write of BKL_TGT_CTRL. -/
def execBklTgtCtrlWrite (fn t : Nat) (v : W32) (s : State) : Out := up s fun s => s.bklTgtWrite fn t v

/-- R405: a write of word `w` of the mask of set `m`. -/
def State.bklTsetWrite (s : State) (m w : Nat) (v : W32) : State :=
  if 64 ≤ m || 8 ≤ w then s else
  s.onBkl fun b =>
    let old := sGet 0 b.tsets m
    let low := old % 2 ^ (32 * w)
    let high := old / 2 ^ (32 * w + 32)
    { b with tsets := sPut 0 b.tsets m (low + v.toNat * 2 ^ (32 * w) + high * 2 ^ (32 * w + 32)) }.rechoose

/-- R411: a write of BKL_TSET. -/
def execBklTsetWrite (m w : Nat) (v : W32) (s : State) : Out := up s fun s => s.bklTsetWrite m w v

/-- R407, R411, R412: a write of a source's word. The owner of a partition mailbox source is fixed; a view writes only
PRIO and ENABLE. DESIGN CHOICE: a cleared ENABLE acts at once, with no mask window (log entry 100). -/
def State.bklSrcWrite (s : State) (fn n : Nat) (v : W32) : State :=
  let r := s.bkl.src n
  if 0xCE8 ≤ n || !s.fnReaches fn r.owned r.part then s else
  let r := { r with prio := getBits v 0 4, enable := v.getLsbD 10 }
  let r := if fn = 0 then { r with set := getBits v 4 6 } else r
  let r := if fn = 0 ∧ !(0xC00 ≤ n && n < 0xC80) then { r with part := getBits v 22 6, owned := v.getLsbD 28 } else r
  s.onBkl fun b => b.setSrc n r

/-- R411: a write of BKL_SRC. -/
def execBklSrcWrite (fn n : Nat) (v : W32) (s : State) : Out := up s fun s => s.bklSrcWrite fn n v

/-- R362: every 1,000 ticks while any target of a die is asserted, its carrier sends both LEVEL_SNAPSHOT words. -/
def execLevelSnapshotTimer (die : Nat) (s : State) : Out :=
  up s fun s =>
    match s.carrier die with
    | none => s
    | some k =>
      if s.timerDue .levels k (80 + k) 1000 && s.bkl.tgts.any fun p => p.1 / 128 = die && s.bkl.level p.1 then
        (s.timerSet .levels k (80 + k)).levelSnapshot k
      else s

/-- The word of source `n` as function `fn` reads it (R411, R412). -/
def Buckle.srcWord (b : Buckle) (fn n : Nat) : W32 :=
  let v := b.src n
  let w := v.prio + (if fn = 0 then 0x10 * v.set else 0) + 0x400 * b2n v.enable +
    0x800 * b2n (v.st = .pending : Bool) + 0x1000 * b2n (v.st = .inService : Bool) + 0x4000 * v.target.getD 0 +
    (if fn = 0 then 0x400000 * v.part + 0x10000000 * b2n v.owned else 0)
  BitVec.ofNat 32 w

/-- The control word of target `t` as function `fn` reads it. -/
def Buckle.tgtWord (b : Buckle) (fn t : Nat) : W32 :=
  let g := b.tgt t
  BitVec.ofNat 32 (b2n g.en + 2 * b2n (b.level t) + 0x10 * g.thresh +
    (if fn = 0 then 0x10000 * g.part + 0x400000 * b2n g.owned else 0))

/-- 32 bits of BKL_PENDING or BKL_INSERVICE from source `n` on. -/
def State.srcBits (s : State) (fn n : Nat) (st : SrcSt) : W32 :=
  BitVec.ofNat 32 ((List.range 32).foldl (fun v i =>
    let r := s.bkl.src (n + i)
    v + 2 ^ i * b2n (r.st = st && s.fnReaches fn r.owned r.part)) 0)

/-- A read of Buckle's range at offset `o` without a side effect (R411, R412). -/
def State.bklRead (s : State) (fn o : Nat) : W32 :=
  let b := s.bkl
  if o < 0x800 then
    if fn ≠ 0 then 0
    else if o = 0 then b.status else if o = 4 then b.setcnt0 else if o = 8 then b.setcnt1 else if o = 0xC then b.setcnt2
    else if o = 0x10 then BitVec.ofNat 32 b.lostLast else 0
  else if o < 0x1000 then
    if fn ≠ 0 then 0 else BitVec.ofNat 32 (sGet 0 b.tsets ((o - 0x800) / 0x20) / 2 ^ (8 * (o % 0x20)))
  else if o < 0x2000 then
    let t := (o - 0x1000) / 0x10
    if o % 0x10 = 8 && s.fnReaches fn (b.tgt t).owned (b.tgt t).part then b.tgtWord fn t else 0
  else if o < 0x2200 then s.srcBits fn ((o - 0x2000) * 8) .pending
  else if o < 0x2400 then s.srcBits fn ((o - 0x2200) * 8) .inService
  else if 0x4000 ≤ o ∧ o < 0x8000 then
    let n := (o - 0x4000) / 4
    if n < 0xCE8 && s.fnReaches fn (b.src n).owned (b.src n).part then b.srcWord fn n else 0
  else 0

end Sys2Proof.Machine
end

