-- ==== Sys2Proof/Machine/Guard.lean ====
section
/-! DEFINITION. Frame guards (R172 to R182) and what an access does at its home: device memory behind a guard, host memory
through a pommel (R309 to R314), the fence atomics (R120). -/

namespace Sys2Proof.Machine

/-! ### Poison per byte -/

/-- Which of the `n` bytes at `a` lie in a marked line. -/
def Mem.flags (m : Mem) (a : Nat) : Nat → List Bool
  | 0 => []
  | n + 1 => sGet false m.poison (a / 64) :: m.flags (a + 1) n

/-- Write bytes of which some are poisoned: the lines that hold a poisoned byte are marked, a line wholly covered by good
bytes loses its mark (R180). -/
def Mem.writeP (m : Mem) (a : Nat) (bs : Bytes) (pz : List Bool) : Mem :=
  let m := m.write a bs
  { m with poison := (pz.zipIdx).foldl (fun p e => if e.1 then sPut false p ((a + e.2) / 64) true else p) m.poison }

/-! ### Owner words (R114, R115, R175) -/

/-- An owner word: partition, kind and ID (R115). -/
def ownerWord (part kind id : Nat) : W32 := BitVec.ofNat 32 (part % 64 * 2 ^ 26 + kind % 4 * 2 ^ 24 + id % 2 ^ 20)

/-- The owner word of frame `f`; a frame of the owner-word table carries its implicit word (R173). -/
def State.ownerOf (s : State) (f : Nat) : W32 := if s.usable ≤ f then 0x03000004 else sGet 0 s.own f

/-- The owner expected through a leaf of context `c` with OWN_SEL `sel` (R165, R175). -/
def State.expectOf (s : State) (c sel : Nat) : W32 :=
  let r := s.ctx c
  if sel = 0 then ownerWord r.part 1 c else ownerWord r.part 2 ((r.groups[sel - 1]?).getD 0)

/-- The owner expected of the table pages of context `c`. -/
def State.expectTables (s : State) (c : Nat) : W32 := ownerWord (s.ctx c).part 3 2

/-- Where the owner word of usable frame `f` lies in device memory (R173): in the part of the table that the frame's own guard
holds. -/
def State.ownerAddr (s : State) (f : Nat) : Nat :=
  let w := 16 * s.stackCount
  (f % w + w * (1571328 + f / w / 1024)) * 4096 + f / w % 1024 * 4

/-- The frames whose owner words lie in the 64 B line number `l` of device memory (R173, R179). -/
def State.owLine (s : State) (l : Nat) : List Nat :=
  let w := 16 * s.stackCount
  if l / 64 < s.usable then []
  else (List.range 16).map fun i => l / 64 % w + w * ((l / 64 / w - 1571328) * 1024 + l % 64 * 16 + i)

/-- The guard looks an owner word up in its cache of 4,096 lines; a miss is counted (R179). Which line a full cache gives
up is free. -/
def State.owcTouch (s : State) (g f : Nat) : State :=
  let key := s.ownerAddr f / 64
  let l := sGet [] s.acc.owc g
  if l.contains key then s else
  let s := s.inc (grdReg g 0x24)
  let (k, s) := if l.length < 4096 then (0, s) else s.draw
  let l := if l.length < 4096 then l else l.eraseIdx (Config.victim k % 4096)
  { s with acc := { s.acc with owc := sPut [] s.acc.owc g (key :: l) } }

/-- Set a flag of a guard (R182). -/
def State.grdFlag (s : State) (g b : Nat) : State := s.raise (grdReg g 0) b (grdReg g (0x28 + 4 * b))

/-- Who makes a request at a guard: the context, where it has one, and the station. -/
structure Asker where
  ctx : Option Nat
  station : Nat

/-- A guard refuses a request (R177): it counts, records frame, word found and word expected, and writes an error record
unless it wrote one for the same context within GRD_RECORD_INTERVAL ticks; the context counts the error either way (R128). DESIGN
CHOICE: requests that have no context share one interval (log entry 79). -/
def State.guardRefuse (s : State) (g f : Nat) (found expect : W32) (who : Asker) : State :=
  let s := (s.grdFlag g 0).inc (grdReg g 8)
  let s := ((s.wr (grdReg g 0x14) found).wr64 (grdReg g 0x18) (f % 2 ^ 36)).wr (grdReg g 0x20) expect
  let key := g * 2 ^ 21 + (match who.ctx with
    | some c => c + 1
    | none => 0)
  let iv := s.odNum 0x7000 0x30
  let held := iv ≠ 0 && match sFind s.flt.lastRec key with
    | some t => s.tk (80 + g / 32) - t < iv
    | none => false
  if held then (s.inc (grdReg g 0x0C)).errCount who.ctx
  else
    let s := { s with flt := { s.flt with lastRec := sIns s.flt.lastRec key (s.tk (80 + g / 32)) } }
    let det := found.toNat + 2 ^ 32 * expect.toNat
    match who.ctx with
    | some c => s.errCtx c 3 0x0303 who.station 4 f det
    | none => s.err { cls := 3, code := 0x0303, part := some (expect.toNat / 2 ^ 26), station := who.station, status := 4,
                      addr := f, detail := det }

/-- Whether a guard admits a request for frame `f` (R174, R176, R179). -/
def State.guardOk (s : State) (f : Nat) (expect : W32) : Bool :=
  s.guardUp (s.guardOf f) && f < s.usable && !s.acc.owBad.contains f && s.ownerOf f = expect && bitsOf expect.toNat 25 24 ≠ 0

/-- A guard's check of one frame (R174, R176, R179): OK, LAME or DENIED. -/
def State.guardCheck (s : State) (f : Nat) (expect : W32) (who : Asker) : Nat × State :=
  let g := s.guardOf f
  if !s.guardUp g then (11, s)
  else if s.usable ≤ f then (4, s.guardRefuse g f (s.ownerOf f) expect who)
  else if s.acc.owBad.contains f then (4, s.guardRefuse g f 0x00F00000 expect who)
  else
    let s := s.owcTouch g f
    let w := s.ownerOf f
    if w = expect && bitsOf w.toNat 25 24 ≠ 0 then (0, s) else (4, s.guardRefuse g f w expect who)

/-- Read `n` bytes of device memory that lie in one frame, after the guard's check: status, data, poison (R180). -/
def State.devRead (s : State) (a n : Nat) (expect : W32) (who : Asker) (bad : Bool := false) :
    Nat × Bytes × List Bool × State :=
  let (st, s) := s.guardCheck (a / 4096) expect who
  if st ≠ 0 then (st, [], [], s)
  else
    let pz := if bad then List.replicate n true else s.dev.flags a n
    let g := s.guardOf (a / 4096)
    let s := if pz.any id then (s.grdFlag g 1).inc (grdReg g 0x10) else s
    (if pz.any id then 7 else 0, s.dev.read a n, pz, s)

/-- Write bytes of device memory that lie in one frame, after the guard's check. -/
def State.devWrite (s : State) (a : Nat) (bs : Bytes) (pz : List Bool) (expect : W32) (who : Asker) : Nat × State :=
  let (st, s) := s.guardCheck (a / 4096) expect who
  if st ≠ 0 then (st, s) else (0, { s with dev := s.dev.writeP a bs pz })

/-! ### Fence words (R120, R121) -/

/-- One atomic operation on a fence word: the new word, and 1 late, 2 refused. -/
def fenceSignal (w v : Nat) : Nat × Nat :=
  if 2 ^ 63 ≤ v then (w, 2)
  else if 2 ^ 63 ≤ w then (w, 1)
  else if v < w then (w, 1)
  else (v, 0)

/-- What a wait for `x` finds in word `w` (R121): 0 satisfied, 8 ABORTED, 255 pending. -/
def waitEval (w x : Nat) : Nat := if x ≤ w % 2 ^ 63 then 0 else if 2 ^ 63 ≤ w then 8 else 255

/-- Count a late or refused signal of context `c` (R107, R120). -/
def State.lateSignal (s : State) (c : Nat) : State :=
  s.setCtx c { s.ctx c with late := satAdd 32 (s.ctx c).late 1 }

/-- Count a refused signal. -/
def State.refusedSignal (s : State) (c : Nat) : State :=
  s.setCtx c { s.ctx c with refused := satAdd 32 (s.ctx c).refused 1 }

/-- Tell the wait entries on a device fence that its word changed (R151): every pending WAIT whose fence lies there. -/
def State.wakeDev (s : State) (a : Nat) : State :=
  let ws := s.qs.jobs.filter fun j => j.phase = 2 && j.aux = a && j.aux2 % 4 = 2
  { s with cw := { s.cw with woken := s.cw.woken ++ ws.map fun j => (j.queue, j.ri) } }

/-! ### The coherent window caches (R313 to R315) -/

/-- The line that the host takes away is gone from the cache of its pommel; its watcher is to act (R143, R151, R221). -/
def State.lineGone (s : State) (l : CwLine) : State :=
  let cw := { s.cw with lines := s.cw.lines.filter (· ≠ l) }
  match l.use with
  | .fetch => { s with cw := cw }
  | .tail q => { s with cw := { cw with rung := if cw.rung.contains q then cw.rung else cw.rung ++ [q] } }
  | .wait q ri => { s with cw := { cw with woken := if cw.woken.contains (q, ri) then cw.woken else cw.woken ++ [(q, ri)] } }
  | .ctl c => { s with cw := { cw with moved := if cw.moved.contains c then cw.moved else cw.moved ++ [c] } }

/-- The set of the line at `a`: 16,384 sets of 16 (R313). -/
def cwSet (a : Nat) : Nat := Config.cwHash (a / 64) % 16384

/-- A cache takes a line (R313), in place of what the same user held. A full set gives one up, of those that only descriptor fetch
holds if there are any; one with a holder is invalidated, and its holder reads it again (log entry 57). -/
def State.cwHold (s : State) (l : CwLine) : State :=
  let rest := s.cw.lines.filter fun o => o.use ≠ l.use || l.use = .fetch && o ≠ l
  let here := rest.filter fun o => o.pm = l.pm
  let put (s : State) : State := { s with cw := { s.cw with lines := s.cw.lines ++ [l] } }
  let s : State := { s with cw := { s.cw with lines := rest } }
  if here.length < 16 then put s
  else
    let set := ((here.filter fun o => cwSet o.line = cwSet l.line).map CwLine.line).eraseDups
    if set.length < 16 || set.contains l.line then put s
    else
      let idle := set.filter fun a => here.all fun o => o.line ≠ a || o.use = .fetch
      let cands := if idle.isEmpty then set else idle
      let (k, s) := s.draw
      match cands[Config.victim k % cands.length]? with
      | some v => put ((here.filter fun o => o.line = v).foldl State.lineGone s)
      | none => put s

/-! ### Host memory (R309 to R314) -/

/-- The stream of an access to host-physical `a` (R309, R311): 1 in a coherent window or where forced, else 2. -/
def State.streamOf (s : State) (a : Nat) (forced : Bool) : Nat := if forced || (s.hostClass a).testBit 1 then 1 else 2

/-- A write on stream 1 takes the lines that it touches out of every cache (R313, R315). -/
def State.hostTouched (s : State) (a n : Nat) : State :=
  (s.cw.lines.filter fun l => a < l.line + 64 && l.line < a + n).foldl State.lineGone s

/-- Write host memory through pommel `k` (R313, R314, R340): dropped in ORPHAN. -/
def State.hostWrite (s : State) (k a : Nat) (bs : Bytes) (pz : List Bool) (forced : Bool) : State :=
  if s.inOrphan then s.dropWrite k 1
  else
    let st := s.streamOf a forced
    let s := s.countWrite k st (lineCount a bs.length)
    let s := if st = 1 then (s.inc (pmReg k 0x300C) (partLines a bs.length)).hostTouched a bs.length else s
    { s with host := s.host.writeP a bs pz }

/-! ### Reads and writes of the block's own (R113): stream 1, clean, of the operator -/

/-- Read host memory for the block itself: status and data (POISON when a line is marked, LAME without a path). -/
def State.ctlRead (s : State) (skirt a n : Nat) : Nat × Bytes :=
  if hostRange a n then (5, [])
  else if s.inOrphan || (s.route skirt (s.homeDie a)).isNone then (11, [])
  else if s.host.poisoned a n then (7, [])
  else (0, s.host.read a n)

/-- Write host memory for the block itself: status. -/
def State.ctlWrite (s : State) (skirt a : Nat) (bs : Bytes) (forced : Bool) : Nat × State :=
  if hostRange a bs.length then (5, s)
  else match s.route skirt (s.homeDie a) with
  | none => (11, s)
  | some k =>
    if s.inOrphan then (11, s.dropWrite k 1) else (0, s.hostWrite k a bs (List.replicate bs.length false) forced)

end Sys2Proof.Machine
end

