-- ==== Sys2Proof/Machine/Xlat.lean ====
section
/-! DEFINITION. Translation (R158 to R171, R184 to R193): the caches, regions, walks and runs; page faults (R210 to R226);
host translation requests (R169, R350). -/

namespace Sys2Proof.Machine

/-! ### Accesses -/

/-- The access with a number. -/
def State.acc? (s : State) (id : Nat) : Option Access := s.acc.list.find? fun a => a.id = id

/-- Replace the access that has the number of `a`. -/
def State.setAcc (s : State) (a : Access) : State :=
  { s with acc := { s.acc with list := s.acc.list.map fun b => if b.id = a.id then a else b } }

/-- Forget an access. -/
def State.dropAcc (s : State) (id : Nat) : State :=
  { s with acc := { s.acc with list := s.acc.list.filter fun a => a.id ≠ id } }

/-- Add an access; its number is the next one. -/
def State.addAcc (s : State) (a : Access) : Nat × State :=
  let id := s.acc.next
  (id, { s with acc := { s.acc with list := s.acc.list ++ [{ a with id := id }], next := id + 1 } })

/-- End an access with a status. -/
def State.endAcc (s : State) (id st : Nat) : State :=
  match s.acc? id with
  | none => s
  | some a => s.setAcc { a with ph := .done, status := st, entry := none, since := none }

/-- The other part of an access that straddles two pages. -/
def State.sibling (s : State) (a : Access) : Option Access :=
  match a.src with
  | .tile st tag p re => if p = 0 then none else s.acc.list.find? fun b => b.src = .tile st tag (3 - p) re
  | _ => none

/-- Whether an access is one part of a straddling store. -/
def Access.storePart (a : Access) : Bool :=
  match a.src, a.op with
  | .tile _ _ p _, .store _ _ => p ≠ 0
  | _, _ => false

/-- Whether the commit of a straddling store is on its way or done: both of its parts are written, whatever becomes of its unit
(R38, R229). -/
def State.committing (s : State) (a : Access) : Bool :=
  a.storePart && (a.sent || (s.sibling a).any fun b => b.sent || (b.ph = .done && b.status = 0))

/-- Whether a translated access goes in class C (R25): a fence signal; any other goes in class D. -/
def Access.control (a : Access) : Bool :=
  match a.op with
  | .signal _ => true
  | _ => false

/-- Whether no access of the same class is ahead of `a` on the path from its station to its guard (R26). -/
def State.firstOnPath (s : State) (a : Access) : Bool :=
  !s.acc.list.any fun b => b.kind = 2 && b.ph = .ready && b.station = a.station && b.iss < a.iss &&
    s.guardOf (b.pa / 4096) = s.guardOf (a.pa / 4096) && b.control = a.control && !b.storePart

/-- Who an access is, for a guard. -/
def Access.who (a : Access) : Asker := { ctx := some a.ctx, station := a.station }

/-! ### Virtual addresses and regions (R158, R159) -/

/-- Whether a 64-bit virtual address is canonical (R158). -/
def canonical (va : Nat) : Bool := bitsOf va 63 57 = (if va.testBit 56 then 127 else 0)

/-- The page of a virtual address, VA[56:12]. -/
def vpage (va : Nat) : Nat := va / 4096 % 2 ^ 45

/-- The canonical address of a page. -/
def pageVa (p : Nat) : Nat := p * 4096 + if p.testBit 44 then 2 ^ 64 - 2 ^ 57 else 0

/-- The region of a context that holds page `p` (R159): entries of KIND 0 translate nothing. -/
def CtxRec.regionOf (r : CtxRec) (p : Nat) : Option Region :=
  r.regions.find? fun g => g.kind ≠ 0 && vpage g.base.toNat ≤ p && p < vpage g.base.toNat + g.pages

/-- The pommel whose home context `c` is (R108, R213), as adopted (R437). -/
def State.homeOf (s : State) (c : Nat) : Nat := s.livePommel (c % 4)

/-! ### Samples (R247) -/

/-- A sample is dropped (R247, R263). -/
def State.sampleDrop (s : State) (pm : Nat) : State :=
  (s.inc (pmReg pm 0x1114)).raise (pmReg pm 0x1100) 0 (pmReg pm 0x1120)

/-- A sample reaches the queue of its home pommel, which holds 256 (R247). -/
def State.sampleQueue (s : State) (c p : Nat) (host : Option Nat) : State :=
  let pm := s.homeOf c
  if 256 ≤ (s.res.samples.filter fun x => x.pm = pm).length then s.sampleDrop pm
  else { s with res := { s.res with samples := s.res.samples ++ [{ pm := pm, ctx := c, page := p, host := host }] } }

/-- Whether an access is of a kind that stations sample (R247). -/
def Access.sampled (a : Access) : Bool :=
  match a.src, a.op with
  | .tile _ _ _ _, .load => true
  | .tile _ _ _ _, .store _ _ => true
  | .chan _ _, _ => true
  | _, _ => false

/-- Whether page `p` of context `c` is one whose accesses are sampled: migratable, of a context with MODE.RESIDENCY (R247). -/
def State.sampledPage (s : State) (c p : Nat) : Bool :=
  (s.ctx c).mode.testBit 1 && match (s.ctx c).regionOf p with
    | some g => g.kind = 4
    | none => false

/-- The station counts an access that leaves it and picks one in 2^RES_SAMPLE_LOG2 (R247). -/
def State.samplePick (s : State) (a : Access) : Bool × State :=
  if !a.sampled || !s.sampledPage a.ctx (vpage a.va) then (false, s)
  else
    let n := (sGet 0 s.res.counts a.station + 1) % 2 ^ s.odNum 0x5000 0x35
    (n = 0, { s with res := { s.res with counts := sPut 0 s.res.counts a.station n } })

/-- An access leaves its station, translated; one to device memory that is sampled gives its sample (R247). -/
def State.onPath (s : State) (a : Access) : State :=
  let (smp, s) := s.samplePick a
  let s := if smp && a.kind ≠ 1 then s.sampleQueue a.ctx (vpage a.va) none else s
  ({ s with acc := { s.acc with issued := s.acc.issued + 1 } } : State).setAcc
    { a with iss := s.acc.issued, born := s.tk a.station, smp := smp && a.kind = 1 }

/-- A sampled host-path access has ended: its sample carries its latency (R247). -/
def State.sampleHost (s : State) (a : Access) : State :=
  if a.smp then s.sampleQueue a.ctx (vpage a.va) (some (s.tk a.station - a.born)) else s

/-- A context ID that lies in the context table (R106). -/
def State.ctxInTable (s : State) (c : Nat) : Bool := c < 2 ^ s.odNum 0x2000 0x21

/-! ### Leaves and table entries (R162 to R168) -/

/-- The frame number of an entry (R162). -/
def ptePfn (e : W64) : Nat := bitsOf e.toNat 47 12

/-- Whether a non-leaf entry is bad (R163): a reserved bit is set, or its PFN is no usable frame. -/
def State.tableBad (s : State) (e : W64) : Bool :=
  bitsOf e.toNat 11 2 ≠ 0 || bitsOf e.toNat 62 48 ≠ 0 || s.usable ≤ ptePfn e

/-- Whether a valid leaf is bad (R168) in a region of context `r`. -/
def State.leafBad (s : State) (r : CtxRec) (g : Region) (e : W64) : Bool :=
  let v := e.toNat
  let sel := bitsOf v 52 48
  bitsOf v 11 8 ≠ 0 || bitsOf v 55 53 ≠ 0 || 9 < bitsOf v 7 4 || 16 < sel ||
    (1 ≤ sel && sel ≤ 16 && !((r.groups[sel - 1]?).getD 0).testBit 31) || s.usable ≤ ptePfn e ||
    (if g.kind = 2 then bitsOf v 62 56 ≠ 0 else !v.testBit 62 || v.testBit 61 && !g.attr.testBit 1)

/-- Whether two leaves agree in the fields that a run shares (R189). -/
def leafLike (a b : W64) : Bool :=
  a.getLsbD 1 = b.getLsbD 1 && bitsOf a.toNat 7 4 = bitsOf b.toNat 7 4 && bitsOf a.toNat 52 48 = bitsOf b.toNat 52 48 &&
    bitsOf a.toNat 62 56 = bitsOf b.toNat 62 56

/-! ### The translation caches (R184 to R193) -/

/-- Sets of the cache `loc`: 256 of a tile TLB, 8,192 of a shared cache. -/
def tlbSets (loc : Nat) : Nat := if loc < 80 then 256 else 8192

/-- Ways of the cache `loc`. -/
def tlbWays (loc : Nat) : Nat := if loc < 80 then 8 else 16

/-- The set of an entry (R184). -/
def tlbSet (loc c page : Nat) : Nat := Config.tlbHash c (page / 512) % tlbSets loc

/-- Whether a run serves an access of context `c` to page `p` (R186). -/
def Run.hits (e : Run) (loc c p : Nat) (write : Bool) : Bool :=
  e.loc = loc && e.ctx = c && e.base ≤ p && p < e.base + e.len && (!write || e.wr)

/-- Look up a cache. -/
def State.tlbFind (s : State) (loc c p : Nat) (write : Bool) : Option Run :=
  s.x.tlb.find? fun e => e.hits loc c p write

/-- Whether two runs of the shared cache merge (R191). -/
def Run.joins (a b : Run) : Bool :=
  a.loc = b.loc && a.ctx = b.ctx && a.kind = b.kind && a.base / 512 = b.base / 512 && a.wr = b.wr &&
    a.ownSel = b.ownSel && a.own = b.own && a.fmt = b.fmt && a.n = b.n && a.mig = b.mig && a.node = b.node && a.len + b.len ≤ 512 &&
    (a.base + a.len = b.base && a.frame + a.len = b.frame || b.base + b.len = a.base && b.frame + b.len = a.frame)

/-- An entry of a cache is used: it becomes the most recently used (R184). -/
def State.tlbUse (s : State) (e : Run) : State :=
  if s.x.tlb.getLast? = some e then s else { s with x := { s.x with tlb := s.x.tlb.erase e ++ [e] } }

/-- Place a run in its cache (R184). DESIGN CHOICE: every entry of the context that the new one overlaps goes (log entry 80). A full
set gives up an entry by pseudo-LRU: any but the most recently used one (DEDUCED, log entry 81). -/
def State.tlbPlace (s : State) (e : Run) : State :=
  let same := s.x.tlb.filter fun o =>
    !(o.loc = e.loc && o.ctx = e.ctx && o.base < e.base + e.len && e.base < o.base + o.len)
  let set := same.filter fun o => o.loc = e.loc && tlbSet o.loc o.ctx o.base = tlbSet e.loc e.ctx e.base
  if set.length < tlbWays e.loc then { s with x := { s.x with tlb := same ++ [e] } }
  else
    let (k, s) := s.draw
    match set[Config.victim k % (tlbWays e.loc - 1)]? with
    | some v => { s with x := { s.x with tlb := same.erase v ++ [e] } }
    | none => { s with x := { s.x with tlb := same ++ [e] } }

/-- Insert a run in the shared cache of a skirt, merged with its neighbours (R191). -/
def State.tlbInsert (s : State) (e : Run) : State :=
  let k := e.loc - 100
  let one (e : Run) (s : State) : Run × State :=
    match s.x.tlb.find? fun o => o.joins e with
    | some o =>
      ({ e with base := min o.base e.base, len := o.len + e.len, frame := min o.frame e.frame },
        ({ s with x := { s.x with tlb := s.x.tlb.erase o } } : State).inc (pmReg k 0x6A0))
    | none => (e, s)
  let (e, s) := one e s
  let (e, s) := one e s
  s.tlbPlace e

/-! ### What a translated access carries -/

/-- Give an access the translation that a run holds (R175, R185). -/
def Run.give (e : Run) (a : Access) : Access :=
  let n := e.frame + (vpage a.va - e.base)
  let f := if e.kind = 2 || e.mig then n % 2 ^ 40 else n
  let pa := f * 4096 + a.va % 4096
  { a with ph := .ready, entry := none, since := none, wasFault := false, fcount := 0,
           kind := if e.kind = 2 || e.mig then 2 else if e.kind = 3 then 3 else 1, pa := pa, node := e.node,
           expect := e.own }

/-- An access of the stamp service, which raises no fault and writes no record (R195). -/
def Access.isStamp (a : Access) : Bool := match a.src with
  | .stamp _ _ => true
  | _ => false

/-- An access ends at once with FAULT and an error record bound to its context (R158 to R160, R210). -/
def State.noPath (s : State) (a : Access) (code addr : Nat) : State :=
  (if a.isStamp then s else s.errCtx a.ctx 3 code a.station 5 addr 0).endAcc a.id 5

/-! ### Requests to the host's translation service (R169, R329, R350) -/

/-- Where the words of a function's extended capabilities stand in its configuration space: ATS, PRI, PASID and SR-IOV.
PRESUMED: the register layouts within a capability are those of the PCI Express specification; the capability offsets are
the model's (log entry 21). -/
def cfgAts : Nat := 0x204
/-- PRI control and status. -/
def cfgPri : Nat := 0x224
/-- PRI allocation. -/
def cfgPriAlloc : Nat := 0x22C
/-- PASID control. -/
def cfgPasid : Nat := 0x244
/-- SR-IOV control. -/
def cfgVfCtl : Nat := 0x168
/-- SR-IOV NumVFs. -/
def cfgNumVfs : Nat := 0x170

/-- What a writable configuration word holds after its reset. PRESUMED: the values of the PCI Express specification for Device
Control, the AER masks and severity, and SR-IOV's page size (log entry 21). -/
def cfgInit (fn off : Nat) : W32 :=
  if fn ≠ 0 then 0
  else if off = 0x68 then 0x2810
  else if off = 0x10C then 0x40000
  else if off = 0x114 then 0x2000
  else if off = 0x180 then 1
  else 0

/-- A configuration word of a function. -/
def State.cfg (s : State) (fn off : Nat) : W32 := sGet (cfgInit fn off) s.ep.cfg (fn * 4096 + off)

/-- Set a configuration word of a function. -/
def State.setCfg (s : State) (fn off : Nat) (v : W32) : State :=
  { s with ep := { s.ep with cfg := sPut (cfgInit fn off) s.ep.cfg (fn * 4096 + off) v } }

/-- Whether VF `k` exists now: VF Enable is set and NumVFs reaches it (R329). -/
def State.vfOn (s : State) (k : Nat) : Bool := (s.cfg 0 cfgVfCtl).getLsbD 0 && k ≤ getBits (s.cfg 0 cfgNumVfs) 0 16

/-- The function that issues the requests of context `c` (R329). -/
def State.fnOf (s : State) (c : Nat) : Nat := if s.vfOn ((s.ctx c).part + 1) then (s.ctx c).part + 1 else 0

/-- ATS Enable of a function. -/
def State.atsOn (s : State) (fn : Nat) : Bool := (s.cfg fn cfgAts).getLsbD 31

/-- Any pommel that can carry requests of skirt `k`: its own, else another (R28, R169). -/
def State.anyPm (s : State) (k : Nat) : Option Nat := [k, Nat.xor k 2, Nat.xor k 1, Nat.xor k 3].find? s.pmUsable

/-- Host translation requests outstanding at a pommel (R187). -/
def State.atsOut (s : State) (k : Nat) : Nat := (s.x.walks.filter fun w => w.host = 2 && w.via = k).length

/-- Set a walk. -/
def State.setWalk (s : State) (w : Walk) : State :=
  { s with x := { s.x with walks := s.x.walks.map fun v => if v.id = w.id then w else v } }

/-- The status of HST_EP_STATUS flags: set flag `b` of pommel `k` (R357). -/
def State.epFlag (s : State) (k b : Nat) : State := s.raise (pmReg k 0x3044) b (pmReg k (0x3048 + 4 * b))

/-! ### Page faults (R213 to R224) -/

/-- A fault entry. -/
def State.entryOf (s : State) (c p : Nat) : Option FltEntry := s.flt.entries.find? fun e => e.ctx = c && e.page = p

/-- Entries that context `c` holds. -/
def State.ctxEntries (s : State) (c : Nat) : Nat := (s.flt.entries.filter fun e => e.ctx = c).length

/-- The lowest free entry index of pommel `k`. -/
def State.freeEntry (s : State) (k : Nat) : Option Nat :=
  let used := (s.flt.entries.filter fun e => e.pm = k).map (·.idx)
  if 2048 ≤ used.length then none else (List.range 2048).find? fun i => !used.contains i

/-- Whether the fault ring of a context has no room (R221). -/
def CtxRec.ringFull (r : CtxRec) : Bool := 2 ^ r.faultLog2 ≤ (r.frTail + 2 ^ 32 - r.frHead) % 2 ^ 32

/-- The phase bit of entry `j` of a ring of `n` (R147, R220). -/
def ringPhase (j n : Nat) : Nat := if j / n % 2 = 0 then 1 else 0

/-- The SOURCE and its ID and ring index in a fault record (R220). -/
def State.faultSource (s : State) (a : Access) : Nat × Nat × Nat :=
  match a.src with
  | .tile st _ _ _ => (0, st, 0)
  | .chan st ch =>
    let c := sGet {} s.dma.chans (st * 2 ^ 20 + ch)
    (if 16 ≤ ch then 2 else 1, c.queue, c.ri.toNat)
  | .job q ri =>
    let op := match s.qs.jobs.find? fun j => j.queue = q && j.ri = ri with
      | some j => bitsOf j.desc.toNat 7 0
      | none => 0
    (if op = 0x42 then 4 else if op = 0x45 then 5 else 3, q, ri.toNat)
  | .inbound k => (6, k % 65536, 0)
  | .stamp _ _ => (5, 0, 0)

/-- Write a notice of context `c` at home pommel `k`, and raise the skirt's fault source (R223). -/
def State.notice (s : State) (k c : Nat) : State :=
  let base := s.odNum 0x5000 (0x20 + k)
  let n := 2 ^ s.odNum 0x5000 0x24
  let t := sGet 0 s.flt.notices k
  let s := { s with flt := { s.flt with noted := c :: s.flt.noted } }
  let s :=
    if base = 0 then s
    else if n ≤ (t + 2 ^ 32 - (s.rd (pmReg k 0x784)).toNat) % 2 ^ 32 then s.raise (pmReg k 0x780) 0 (pmReg k 0x7A0)
    else
      ({ s with flt := { s.flt with notices := sPut 0 s.flt.notices k ((t + 1) % 2 ^ 32) } } : State).hostCtlWrite k
        (base + t % n * 8) (leBytes 8 (c + 2 ^ 63 * ringPhase t n))
  s.irq (0xC90 + k)

/-- Write the record of a device-side fault to its context's ring (R220), with a notice when the ring was empty and none
is outstanding (R223). -/
def State.faultRecord (s : State) (a : Access) (tag : Nat) : State :=
  let r := s.ctx a.ctx
  let n := 2 ^ r.faultLog2
  let (src, sid, ri) := s.faultSource a
  let strad := match a.src with
    | .tile _ _ part _ => part ≠ 0
    | _ => false
  let (tg, s) := s.tag a.station
  let b := leBytes 1 a.fTyp ++ leBytes 1 a.fLevel ++ leBytes 1 src ++
    leBytes 1 (b2n a.write + 2 * b2n (1 < a.fcount) + 4 * b2n strad + 128 * ringPhase r.frTail n) ++
    leBytes 4 a.ctx ++ leBytes 4 a.gen ++ leBytes 4 tag ++ leBytes 8 (pageVa (vpage a.va)) ++ leBytes 8 a.fPa ++
    leBytes 4 sid ++ leBytes 4 ri ++ leBytes 8 0 ++ tg
  let at_ := r.faultRing + r.frTail % n * 64
  let s := (s.rangeRec (some a.ctx) a.station at_ 64).hostCtlWrite (a.ctx % 4) at_ b
  let s := s.setCtx a.ctx { s.ctx a.ctx with frTail := (r.frTail + 1) % 2 ^ 32 }
  if r.frTail = r.frHead && !s.flt.noted.contains a.ctx then s.notice (s.homeOf a.ctx) a.ctx else s

/-- Whether PRI works now (R352): enabled, and no Response Failure waiting for a Control Reset. -/
def State.priOn (s : State) : Bool := (s.cfg 0 cfgPri).getLsbD 0 && !(s.cfg 0 cfgPri).getLsbD 16

/-- Send the page requests that wait, oldest entry first, while the pommel has an index and the host's allocation lasts
(R217). -/
def State.sendPris (s : State) : State :=
  s.flt.entries.foldl (fun s e =>
    if !e.host || e.pri.isSome || !s.priOn || s.inOrphan then s else
    let out := s.flt.entries.filter (·.pri.isSome)
    let used := (out.filter fun x => x.pm = e.pm).filterMap (·.pri)
    if (s.cfg 0 cfgPriAlloc).toNat ≤ out.length then s
    else match (List.range 128).find? fun i => !used.contains i, s.anyPm e.pm with
    | some i, some _ =>
      ({ s with flt := { s.flt with entries := s.flt.entries.map fun x =>
          if x.pm = e.pm && x.idx = e.idx then { x with pri := some i, since := s.tk (80 + e.pm) } else x } } : State).emit
        (.pageReq e.pm (s.fnOf e.ctx) (s.ctx e.ctx).pasid (e.pm * 128 + i) (pageVa e.page) e.write)
    | _, _ => s) s

/-- Create a fault entry for a held access (R213): its tag carries the entry's use count. A device-side entry writes its
record; a host-side one asks the host. -/
def State.makeEntry (s : State) (a : Access) : State :=
  let k := s.homeOf a.ctx
  match s.freeEntry k with
  | none => s
  | some i =>
    let u := (sGet 0 s.flt.uses (k * 2048 + i) + 1) % 2 ^ 19
    let tag := i + 2048 * k + 8192 * u
    let e : FltEntry := { pm := k, idx := i, tag := tag, ctx := a.ctx, gen := a.gen, page := vpage a.va, host := a.fHost,
                          write := a.write, since := s.tk (80 + k) }
    let s := { s with flt := { s.flt with entries := s.flt.entries ++ [e], uses := sPut 0 s.flt.uses (k * 2048 + i) u } }
    let a := { a with entry := some (k, i), since := none, fcount := a.fcount + 1 }
    let s := (s.setAcc a).trace 3 (80 + k) a.ctx (pageVa (vpage a.va))
    if a.fHost then
      let s' := s.sendPris
      if (s'.flt.entries.any fun x => x.pm = k && x.idx = i && x.pri.isNone) then s'.inc (pmReg k 0x790) else s'
    else s.faultRecord a tag

/-- Whether a held access can have its entry now (R213, R222). -/
def State.entryRoom (s : State) (a : Access) : Bool :=
  s.ctxEntries a.ctx < s.odNum 0x5000 0x28 && (s.freeEntry (s.homeOf a.ctx)).isSome &&
    (a.fHost || !(s.ctx a.ctx).ringFull && !s.inOrphan)

/-- Held accesses of a station (R215). -/
def State.heldAt (s : State) (st : Nat) : List Access :=
  s.acc.list.filter fun a => a.station = st && (a.ph = .held || a.ph = .mig)

/-- Whether station `st` holds no further request of context `c`: one waits at the station's input (R215). -/
def State.inputFull (s : State) (st c : Nat) : Bool :=
  let h := s.heldAt st
  256 ≤ h.length || 64 ≤ (h.filter fun a => a.ctx = c).length

/-- A page fault of access `a` (R213 to R215, R222): it attaches to the entry of its page, gets an entry of its own, or is
held with none; a station that can hold no more lets it wait at its input. -/
def State.pageFault (s : State) (a : Access) (host : Bool) (typ level pa : Nat) : State :=
  if a.isStamp then s.endAcc a.id 5 else
  -- the context is being revoked: held and replayed requests end with ABORTED (R134)
  if 5 ≤ (s.ctx a.ctx).state then s.endAcc a.id 8
  else if s.inputFull a.station a.ctx then s.setAcc { a with ph := .ctxWait }
  else
  let n := if a.wasFault && a.fpage = vpage a.va then a.fcount else 0
  let a := { a with ph := .held, fpage := vpage a.va, fcount := n, wasFault := true, fHost := host, fTyp := typ,
                    fLevel := level, fPa := pa, entry := none, since := none }
  if s.odNum 0x5000 0x27 ≤ n then (s.setAcc a).noPath a 0x0305 (pageVa (vpage a.va))
  else if host && !s.priOn then
    -- PRI is disabled or failed: the entry ends at once with FAULT (R352)
    ((if (s.cfg 0 cfgPri).getLsbD 16 then s.epFlag (s.homeOf a.ctx) 2 else s).setAcc a).endAcc a.id 5
  else
    match s.entryOf a.ctx (vpage a.va) with
    | some e =>
      (s.setAcc { a with entry := some (e.pm, e.idx), fcount := n + 1 }).inc (pmReg (s.homeOf a.ctx) 0x78C)
    | none =>
      if s.entryRoom a then s.makeEntry a
      else
        let k := s.homeOf a.ctx
        let s := if (s.freeEntry k).isNone then s.raise (pmReg k 0x780) 1 (pmReg k 0x7A4) else s
        let stalls := !host && (s.freeEntry k).isSome
        s.setAcc { a with since := if stalls then some (s.tk a.station) else none }

/-- Give the accesses that are held with no entry their entries, oldest first, as room allows (R213, R222). An access whose
page has an entry by now attaches to it; one that only its ring or its context's entries hold back is held under R222 from
then on. An access of a context that is revoked gets none: it ends with ABORTED (R216, R233). -/
def State.serveHeld (s : State) : State :=
  s.acc.list.foldl (fun s b =>
    match s.acc? b.id with
    | none => s
    | some a =>
      if a.ph ≠ .held || a.entry.isSome then s
      else if 5 ≤ (s.ctx a.ctx).state then s.endAcc a.id 8
      else match s.entryOf a.ctx (vpage a.va) with
      | some e =>
        (s.setAcc { a with entry := some (e.pm, e.idx), fcount := a.fcount + 1, since := none }).inc
          (pmReg (s.homeOf a.ctx) 0x78C)
      | none =>
        if s.entryRoom a then s.makeEntry a
        else if !a.fHost && a.since.isNone && (s.freeEntry (s.homeOf a.ctx)).isSome then
          s.setAcc { a with since := some (s.tk a.station) }
        else s) s

/-! ### Walks (R187) -/

/-- The deepest level whose entry the upper-level cache of a skirt holds for a page, with its entry. A walk for a write passes over
an entry without W, which may have been set since (R212). -/
def State.ulcFind (s : State) (k c p : Nat) (write : Bool) : Option Ulc :=
  [1, 2, 3, 4].findSome? fun l => s.x.ulc.find? fun u =>
    u.skirt = k && u.ctx = c && u.level = l && u.key = p / 2 ^ (9 * l) && (!write || u.ent.getLsbD 1)

/-- The set of an upper-level entry (R184): 1,024 sets of 8. -/
def Ulc.set (u : Ulc) : Nat := Config.ulcHash u.ctx u.level u.key % 1024

/-- The upper-level cache of a skirt takes an entry (R184, R187); a full set gives one up by pseudo-LRU. -/
def State.ulcPlace (s : State) (u : Ulc) : State :=
  let old := s.x.ulc.filter fun v => !(v.skirt = u.skirt && v.ctx = u.ctx && v.level = u.level && v.key = u.key)
  let set := old.filter fun v => v.skirt = u.skirt && v.set = u.set
  if set.length < 8 then { s with x := { s.x with ulc := old ++ [u] } }
  else
    let (k, s) := s.draw
    match set[Config.victim k % 7]? with
    | some v => { s with x := { s.x with ulc := old.erase v ++ [u] } }
    | none => { s with x := { s.x with ulc := old ++ [u] } }

/-- Start the table reads of a walk: from the deepest level cached, else from PT_ROOT (R187). -/
def State.walkBegin (s : State) (w : Walk) : Walk :=
  match s.ulcFind w.skirt w.ctx w.page w.write with
  | some u => { w with level := u.level - 1, table := ptePfn u.ent, wOk := u.ent.getLsbD 1 }
  | none => { w with level := 4, table := (s.ctx w.ctx).ptRoot / 4096, wOk := true }

/-- Walks that hold a walker of a skirt. -/
def State.walkersUsed (s : State) (k : Nat) : Nat :=
  (s.x.walks.filter fun w => w.skirt = k && w.active && w.res.isNone).length +
    (s.rcv.scrubbing.filter fun e => (e.1 = 2 || e.1 = 12) && e.2 % 4 = k).length

/-- End the waiters of a walk with a status, and the walk with it. -/
def State.dropWalk (s : State) (id : Nat) : State := { s with x := { s.x with walks := s.x.walks.filter fun w => w.id ≠ id } }

/-- The waiters of a walk that are still waiting. -/
def State.waiters (s : State) (w : Walk) : List Access :=
  w.waiters.filterMap fun i => (s.acc? i).bind fun a => if a.ph = .walk then some a else none

/-- Send the translation request of a walk (R169, R350): with no path, no ATS or in ORPHAN it ends its accesses. The
walk waits while its pommel has 1,024 requests outstanding. -/
def State.sendAts (s : State) (w : Walk) : State :=
  let fn := s.fnOf w.ctx
  let fin (s : State) (st : Nat) (rec : Bool) : State :=
    ((s.waiters w).foldl (fun s a =>
      if rec then s.noPath a 0x0304 (pageVa w.page) else s.endAcc a.id st) s).dropWalk w.id
  if s.inOrphan then fin s 11 false
  else match s.anyPm w.skirt with
  | none => fin s 11 false
  | some k =>
    if !s.atsOn fn then fin s 5 true
    else if 1024 ≤ s.atsOut k then s.setWalk { w with host := 1, via := k }
    else
      ((s.setWalk { w with host := 2, via := k, fn := fn, sent := s.tk (80 + k) }).inc (pmReg k 0x3058)).emit
        (.atsReq k fn w.id (s.ctx w.ctx).pasid (pageVa w.page) w.write)

/-- Start the next queued walk of a skirt while a walker is free. -/
def State.startWalks (s : State) : State :=
  s.x.walks.foldl (fun s v =>
    match s.x.walks.find? fun w => w.id = v.id with
    | none => s
    | some w =>
      if w.active then s
      else if 64 ≤ s.walkersUsed w.skirt then s
      else
        let s := s.inc64sat (pmReg w.skirt 0x690) 1
        let w := s.walkBegin { w with active := true }
        let s := match s.ulcFind w.skirt w.ctx w.page w.write with
          | some u => { s with x := { s.x with ulc := s.x.ulc.erase u ++ [u] } }
          | none => s
        let s := s.setWalk w
        match (s.ctx w.ctx).regionOf w.page with
        | some g => if g.kind = 1 then s.sendAts w else s
        | none => s) s

/-- Send the translation requests that waited for room. -/
def State.sendWaiting (s : State) : State :=
  s.x.walks.foldl (fun s v =>
    match s.x.walks.find? fun w => w.id = v.id with
    | none => s
    | some w => if w.host = 1 && w.active then s.sendAts w else s) s

/-- A miss: the access waits on a walk of the same context, block and kind of access that has room, or starts one
(R187): up to 16 wait beside the access that started the walk. -/
def State.miss (s : State) (a : Access) : State :=
  let k := s.server (skirtOf a.station)
  let p := vpage a.va
  let s := s.setAcc { a with ph := .walk }
  match s.x.walks.find? fun w => w.skirt = k && w.ctx = a.ctx && w.write = a.write && w.page / 512 = p / 512 &&
      !w.doomed && w.waiters.length < 17 && w.res.isNone with
  | some w => (s.setWalk { w with waiters := w.waiters ++ [a.id] }).inc64sat (pmReg k 0x698) 1
  | none =>
    let w : Walk := { id := s.x.nextWalk, skirt := k, station := a.station, ctx := a.ctx, page := p, write := a.write,
                      waiters := [a.id] }
    ({ s with x := { s.x with walks := s.x.walks ++ [w], nextWalk := s.x.nextWalk + 1 } } : State).startWalks

/-- The run that a peer-backed region gives a page (R193): the region's part of the block. -/
def peerRun (loc c : Nat) (g : Region) (p : Nat) : Run :=
  let b := vpage g.base.toNat
  let lo := max b (p / 512 * 512)
  let hi := min (b + g.pages) (p / 512 * 512 + 512)
  { loc := loc, ctx := c, base := lo, len := hi - lo, frame := g.target.toNat / 4096 + (lo - b), kind := 3,
    wr := g.attr.testBit 0, node := g.node }

/-- The pommel through which an access leaves for host die `die` (R28, R312): that of its descriptor's earlier accesses to the die
while it remains available. -/
def State.leaves (s : State) (a : Access) (die : Nat) : Option Nat :=
  let kept := match a.src with
    | .chan st ch => (sFind s.dma.chans (st * 2 ^ 20 + ch)).bind fun c =>
        c.pms.find? fun (e : Nat × Nat) => e.1 = die && s.pmUsable e.2
    | _ => none
  match kept with
  | some e => some e.2
  | none => s.route (skirtOf a.station) die

/-- The descriptor of an access keeps to pommel `k` for host die `die` (R312). -/
def State.keepPath (s : State) (a : Access) (die k : Nat) : State :=
  match a.src with
  | .chan st ch =>
    (match sFind s.dma.chans (st * 2 ^ 20 + ch) with
    | none => s
    | some c =>
      let c := { c with pms := (die, k) :: c.pms.filter fun (e : Nat × Nat) => e.1 ≠ die }
      { s with dma := { s.dma with chans := sIns s.dma.chans (st * 2 ^ 20 + ch) c } })
  | _ => s

/-- An access whose run is known: checks that hold at each access. A peer access needs PEER_USE (R448), and a node that is
not this one (R171); a host access needs a path and an address below 2^52 (R309, R507). -/
def State.take (s : State) (a : Access) (e : Run) : State :=
  let b := e.give a
  if b.kind = 3 && !s.bit (partReg (s.ctx a.ctx).part 0) 3 then s.endAcc a.id 4
  else if b.kind = 3 && b.node = s.odNum 0x6000 1 then s.noPath a 0x0301 a.va
  else if b.kind = 1 && s.inOrphan && !b.write then s.endAcc a.id 11
  else if b.kind = 1 && hostRange b.pa b.len then s.noPath a 0x0307 b.pa
  else if b.kind = 1 then
    match s.leaves a (s.homeDie b.pa) with
    | some k => (s.keepPath a (s.homeDie b.pa) k).onPath { b with pm := k }
    | none => if s.inOrphan then s.onPath { b with pm := skirtOf a.station } else s.endAcc a.id 11
  else s.onPath b

/-- Whether the record of context `c` is resident (R108). -/
def State.ctxResident (s : State) (c : Nat) : Bool := s.cs.resident.contains c

/-- The record of `c` is used: it becomes the most recently used of its home. -/
def State.ctxTouch (s : State) (c : Nat) : State :=
  if s.cs.resident.head? = some c then s
  else { s with cs := { s.cs with resident := c :: s.cs.resident.filter (· ≠ c) } }

/-- The region map of a context is looked at for a miss: its frame's guard admits the read, or refuses it (R31, R175). -/
def State.mapLook (s : State) (c st : Nat) : Nat × State :=
  let r := s.ctx c
  if r.regions.isEmpty then (0, s) else s.guardCheck (r.regionMap / 4096) (s.expectTables c) { ctx := some c, station := st }

/-- Translate an access (R158 to R160, R186): its context's record must be resident; tile accesses look up the tile TLB,
then the shared cache; a miss goes to the region and, but for a peer-backed one, to a walk. -/
def State.translate (s : State) (a : Access) : State :=
  if !s.ctxResident a.ctx then s.setAcc { a with ph := .ctxWait }
  else if s.inputFull a.station a.ctx && !a.wasFault then s.setAcc { a with ph := .ctxWait }
  else
  let s := s.ctxTouch a.ctx
  if !canonical a.va then s.noPath a 0x0301 a.va
  else
  let p := vpage a.va
  let k := s.server (skirtOf a.station)
  let tile := match a.src with
    | .tile st _ _ _ => some st
    | _ => none
  let s := match tile with
    | some st => s.inc64sat (pageOf st + 0x600) 1
    | none => s
  match tile.bind fun st => s.tlbFind st a.ctx p a.write with
  | some e => (s.tlbUse e).take a e
  | none =>
    let s := match tile with
      | some st => s.inc64sat (pageOf st + 0x608) 1
      | none => s
    let fill (s : State) (e : Run) : State :=
      match tile with
      | some st => s.tlbPlace { e with loc := st }
      | none => s
    let s := s.inc64sat (pmReg k 0x680) 1
    match s.tlbFind (100 + k) a.ctx p a.write with
    | some e => (fill (s.tlbUse e) e).take a e
    | none =>
      let s := s.inc64sat (pmReg k 0x688) 1
      let (g, s) := s.mapLook a.ctx (80 + k)
      if g ≠ 0 then s.endAcc a.id g
      else
      match (s.ctx a.ctx).regionOf p with
      | none => s.noPath a 0x0301 a.va
      | some g =>
        if a.write && !g.attr.testBit 0 then s.noPath a 0x0301 a.va
        else if g.kind = 3 then
          let e := peerRun (100 + k) a.ctx g p
          (fill (s.tlbInsert e) e).take a e
        else s.miss a

/-- Issue an access: number it and translate it. -/
def State.issue (s : State) (a : Access) : Nat × State :=
  let (id, s) := s.addAcc a
  (id, s.translate { a with id := id })

/-- Translate again an access that waits or replays (R226). -/
def State.retry (s : State) (id : Nat) : State :=
  match s.acc? id with
  | none => s
  | some a => if a.ph = .done then s else s.translate { a with entry := none, since := none }

/-- Accesses that waited for their context's record or at their station's input try again. -/
def State.unblock (s : State) : State :=
  s.acc.list.foldl (fun s b =>
    match s.acc? b.id with
    | none => s
    | some a =>
      if a.ph = .ctxWait && s.ctxResident a.ctx && !s.inputFull a.station a.ctx then s.translate a else s) s

/-! ### The end of a walk -/

/-- A walk ends with a run (R189, R190, R192): it is inserted unless the walk is doomed; the waiters whose page it covers
take it, the others translate again. -/
def State.walkOk (s : State) (w : Walk) (e : Run) : State :=
  let ws := s.waiters w
  let s := s.dropWalk w.id
  if w.doomed then (ws.foldl (fun s a => s.retry a.id) s).startWalks
  else
    let s := (w.got.foldl State.ulcPlace s).tlbInsert e
    let s := ws.foldl (fun s a =>
      if e.base ≤ vpage a.va && vpage a.va < e.base + e.len then
        let s := match a.src with
          | .tile st _ _ _ => s.tlbPlace { e with loc := st }
          | _ => s
        s.take a e
      else s.retry a.id) s
    s.startWalks

/-- A walk ends with no translation: each waiter ends as `f` says, but those of a doomed walk, and those of another page,
translate again. -/
def State.walkEnd (s : State) (w : Walk) (f : State → Access → State) : State :=
  let ws := s.waiters w
  let s := s.dropWalk w.id
  (ws.foldl (fun s a => if w.doomed || vpage a.va ≠ w.page then s.retry a.id else f s a) s).startWalks

/-! ### Migratable pages (R239, R253) -/

/-- The migration that page `p` of context `c` is in. -/
def State.migOf (s : State) (c p : Nat) : Option (Nat × Mig) := s.res.migs.find? fun m => m.2.ctx = c && m.2.page = p && m.1 % 65536 < 256

/-- The key of a group record. -/
def groupKey (c p : Nat) : Nat := c * 2 ^ 40 + p / 64

/-- The group of a page. -/
def State.group (s : State) (c p : Nat) : Group := sGet {} s.res.groups (groupKey c p)

/-- Set the group of a page. -/
def State.setGroup (s : State) (c p : Nat) (g : Group) : State :=
  { s with res := { s.res with groups := sPut {} s.res.groups (groupKey c p) g } }

/-- A page of a migratable region whose accesses are held: MIGRATING, or NARROWED (R253). -/
def State.moving (s : State) (c p : Nat) : Bool := (s.migOf c p).isSome || (s.group c p).narrowed.contains (p % 64)

/-- A page of a migratable region whose host copy an access may use: HOST (R239). -/
def State.atHost (s : State) (c p : Nat) : Bool :=
  let g := s.group c p
  !s.moving c p && (sFind g.hostPg (p % 64)).isNone && (sFind g.poisoned (p % 64)).isNone

/-- Extend a run over joined pages, up to `n` of them. -/
def spread (ok : Nat → Bool) (up : Bool) (p : Nat) : Nat → Nat
  | 0 => p
  | n + 1 =>
    let q := if up then p + 1 else p - 1
    if (up || 0 < p) && ok q then spread ok up q n else p

/-- The part of a run that contains page `p` and holds no page that `ok` leaves out. -/
def Run.clip (e : Run) (p : Nat) (ok : Nat → Bool) : Run :=
  let lo := spread (fun q => e.base ≤ q && ok q) false p 512
  let hi := spread (fun q => q < e.base + e.len && ok q) true p 512
  { e with base := lo, len := hi + 1 - lo, frame := e.frame + (lo - e.base) }

/-- A host translation comes back for a walk (R169, R192): of a large answer, whose first page is `hp`, the part in the walked page's
block is kept. In a migratable region the run holds HOST pages only (R239). -/
def State.hostAnswer (s : State) (w : Walk) (ans : HostAnswer) : State :=
  match ans with
  | .abort => s.walkEnd w fun s a => s.noPath a 0x0304 (pageVa w.page)
  | .noPermission => s.walkEnd w fun s a => s.pageFault a true 0 0 0
  | .translated hp lg wr =>
    if w.write && !wr then s.walkEnd w fun s a => s.pageFault a true 0 0 0
    else
      let g := (s.ctx w.ctx).regionOf w.page
      let b := match g with
        | some g => vpage g.base.toNat
        | none => w.page
      let n := match g with
        | some g => g.pages
        | none => 1
      let span := 2 ^ lg
      let lo := max (max b (w.page / 512 * 512)) (w.page / span * span)
      let hi := min (min (b + n) (w.page / 512 * 512 + 512)) (w.page / span * span + span)
      let kind := match g with
        | some g => g.kind
        | none => 1
      let e : Run := { loc := 100 + w.skirt, ctx := w.ctx, base := lo, len := hi - lo,
                       frame := hp / span * span + (lo - w.page / span * span), kind := kind, wr := w.write }
      if kind = 4 && s.moving w.ctx w.page then s.walkEnd w fun s a => s.retry a.id
      else s.walkOk w (if kind = 4 then e.clip w.page (s.atHost w.ctx) else e)

/-- Hold an access for a migration (R215, R253): no fault entry, no record. A stamp is not held (R195). -/
def State.holdMig (s : State) (a : Access) : State :=
  if a.isStamp then s.endAcc a.id 5
  else if s.inputFull a.station a.ctx then s.setAcc { a with ph := .ctxWait }
  else
  (s.setAcc { a with ph := .mig }).inc (pmReg (s.homeOf a.ctx) 0x1110)

/-! ### Table reads (R161 to R168) -/

/-- A leaf of the line that holds the walked leaf joins the run (R189 step 3). -/
def joinsLeaf (w : Walk) (leaf e : W64) (p q : Nat) : Bool :=
  e.getLsbD 0 && !e.getLsbD 63 && bitsOf e.toNat 11 8 = 0 && bitsOf e.toNat 55 53 = 0 && leafLike leaf e &&
    ptePfn e + p = ptePfn leaf + q && (!w.write || e.getLsbD 3)

/-- The run that a valid leaf gives (R189): the walked page, the hinted group, and, with RUN_DETECT, the neighbours in its
64 B line that join these without a gap. No page that is MIGRATING is in it (R253). -/
def State.leafRun (s : State) (w : Walk) (g : Region) (leaf : W64) (tablePa : Nat) : Run :=
  let p := w.page
  let rl := bitsOf leaf.toNat 7 4
  let n := 2 ^ rl
  let lo := if rl = 0 then p else p / n * n
  let hi := if rl = 0 then p else p / n * n + n - 1
  let at_ (q : Nat) : W64 := BitVec.ofNat 64 (s.dev.num (tablePa + q % 512 * 8) 8)
  let line (q : Nat) : Bool := q / 8 = p / 8 && joinsLeaf w leaf (at_ q) p q
  let det := s.odNum 0x5000 0x16 ≠ 0
  let b := if det then spread line true hi 8 else hi
  let a := if det then spread line false lo 8 else lo
  let sel := bitsOf leaf.toNat 52 48
  let e : Run := { loc := 100 + w.skirt, ctx := w.ctx, base := a, len := b + 1 - a, frame := (ptePfn leaf + 2 ^ 40 + a - p) % 2 ^ 40,
                   kind := g.kind, wr := w.write, ownSel := sel, fmt := bitsOf leaf.toNat 60 56, n := leaf.getLsbD 61,
                   mig := leaf.getLsbD 62, own := s.expectOf w.ctx sel }
  if g.kind = 4 then e.clip p fun q => !s.moving w.ctx q else e

/-- A bad entry at `pa` ends the walk with FAULT and a record that names it (R168). -/
def State.badEntry (s : State) (w : Walk) (pa : Nat) : State :=
  s.walkEnd w fun s a => (if a.isStamp then s else s.errCtx w.ctx 3 0x0302 (80 + w.skirt) 5 pa 0).endAcc a.id 5

/-- A leaf is evaluated (R164, R167, R170, R253). -/
def State.walkLeaf (s : State) (w : Walk) (g : Region) (e : W64) (pa : Nat) : State :=
  if g.kind = 4 && s.moving w.ctx w.page && ((s.migOf w.ctx w.page).isSome || !e.getLsbD 0 && !e.getLsbD 63) then
    s.walkEnd w State.holdMig
  else if e.getLsbD 63 then s.walkEnd w fun s a => s.endAcc a.id 7
  else if !e.getLsbD 0 then
    if g.kind = 4 then s.sendAts w else s.walkEnd w fun s a => s.pageFault a false 1 0 pa
  else if s.leafBad (s.ctx w.ctx) g e then s.badEntry w pa
  else if w.write && !(w.wOk && e.getLsbD 1) then
    if g.kind = 4 then s.sendAts w else s.walkEnd w fun s a => s.pageFault a false 2 0 pa
  else
    let e' : W64 := e ||| (if w.write then 0xC else 0x4)
    let s := { s with dev := { s.dev with bytes := wrNat s.dev.bytes pa 8 e'.toNat } }
    s.walkOk w (s.leafRun w g e' (pa / 4096 * 4096))

/-- A walker's table read returns (R163): the guard checks it, a poisoned line or P = 1 ends the walk, and the walk goes on
at the next level or ends at the leaf. -/
def State.walkRead (s : State) (w : Walk) : State :=
  match (s.ctx w.ctx).regionOf w.page with
  | none => s.walkEnd w fun s a => s.retry a.id
  | some g =>
    let pa := w.table * 4096 + w.page / 2 ^ (9 * w.level) % 512 * 8
    let (st, b, pz, s) := s.devRead pa 8 (s.expectTables w.ctx) { ctx := some w.ctx, station := 80 + w.skirt }
    if st = 4 || st = 11 then s.walkEnd w fun s a => s.endAcc a.id st
    else if pz.any id then
      (if (s.waiters w).all (·.isStamp) then s else s.errCtx w.ctx 2 0x0204 (80 + w.skirt) 7 pa 0).walkEnd w
        fun s a => s.endAcc a.id 7
    else
      let e : W64 := BitVec.ofNat 64 (leNat b)
      if w.level = 0 then s.walkLeaf w g e pa
      else if e.getLsbD 63 then s.walkEnd w fun s a => s.endAcc a.id 7
      else if !e.getLsbD 0 then
        if g.kind = 4 then
          if s.moving w.ctx w.page then s.walkEnd w State.holdMig else s.sendAts w
        else s.walkEnd w fun s a => s.pageFault a false 1 w.level pa
      else if s.tableBad e then s.badEntry w pa
      else
        let ok := w.wOk && e.getLsbD 1
        let u : Ulc := { skirt := w.skirt, ctx := w.ctx, level := w.level, key := w.page / 2 ^ (9 * w.level),
                         ent := if ok then e else e &&& ~~~(2 : W64) }
        s.setWalk { w with level := w.level - 1, table := ptePfn e, wOk := ok, got := w.got ++ [u] }

end Sys2Proof.Machine
end

