-- ==== Sys2Proof/Machine/Inval.lean ====
section
/-! DEFINITION. Invalidations (R200 to R204), sidecar slots and stamp ledgers (R194 to R199), fault entries' ends (R216,
R226), and the request slots of the pommels (R201). -/

namespace Sys2Proof.Machine

/-! ### Request slots (R201, R224, R243) -/

/-- Whether a slot whose RESULT word is at `off` is BUSY. -/
def State.slotBusy (s : State) (off : Nat) : Bool := s.bit off 0

/-- Take a slot: BUSY sets and DONE clears. -/
def State.slotTake (s : State) (off : Nat) : State := (s.setBit off 0 true).setBit off 1 false

/-- Complete a slot's request: STATUS, STATE and SEQ, then DONE = 1 and BUSY = 0; its source is raised when IRQ was 1. -/
def State.slotDone (s : State) (off status state : Nat) (irq : Option Nat) : State :=
  let v := s.rd off
  let s := s.wr off (BitVec.ofNat 32 (2 + status * 2 ^ 8 + state * 2 ^ 16 + (getBits v 24 8 + 1) % 256 * 2 ^ 24))
  match irq with
  | some n => s.irq n
  | none => s

/-! ### Sidecar slots and stamp ledgers (R196, R197) -/

/-- The bucket of a block (R197). -/
def bucketOf (x : Nat) : Nat := Nat.xor (Nat.xor x (x / 2 ^ 11)) (Nat.xor (x / 2 ^ 22) (x / 2 ^ 33)) % 2048

/-- The frame of a context's stamp ledger. -/
def State.ledgerFrame (s : State) (c : Nat) : Nat := (s.ctx c).stampLedger / 4096

/-- Who changes and reads a context's stamp ledger. -/
def State.ledgerAsker (s : State) (c : Nat) : Asker := { ctx := some c, station := 80 + s.homeOf c }

/-- The counter of the bucket of block `x`. -/
def State.bucket (s : State) (c x : Nat) : Nat := s.dev.num (s.ledgerFrame c * 4096 + 2 * bucketOf x) 2

/-- One atomic on the counter of a block at the ledger's guard (R197); whether the guard admitted it. -/
def State.ledgerStep (s : State) (c x : Nat) (f : Nat → Nat) : Bool × State :=
  let (st, s) := s.guardCheck (s.ledgerFrame c) (s.expectTables c) (s.ledgerAsker c)
  if st ≠ 0 then (false, s)
  else (true, { s with dev := { s.dev with
    bytes := wrNat s.dev.bytes (s.ledgerFrame c * 4096 + 2 * bucketOf x) 2 (f (s.bucket c x)) } })

/-- Add to the counter of a block; a counter at 65,535 stays there. -/
def State.ledgerUp (s : State) (c x : Nat) : Bool × State := s.ledgerStep c x fun v => min (v + 1) 65535

/-- Take from the counter of a block. -/
def State.ledgerDown (s : State) (c x : Nat) : State := (s.ledgerStep c x fun v => if v = 65535 then v else v - 1).2

/-- Zero the stamp ledger of a context (R197): the guard's status. -/
def State.ledgerZero (s : State) (c : Nat) : Nat × State :=
  s.devWrite (s.ledgerFrame c * 4096) (List.replicate 4096 0) (List.replicate 4096 false) (s.expectTables c) (s.ledgerAsker c)

/-- The owner word of the frames of the sidecar pools (R196). -/
def sidecarWord : W32 := ownerWord 0 3 0x11

/-- The guard's check of an access to sidecar slot `key` (R196). -/
def State.sidecarCheck (s : State) (key : Nat) : Nat × State :=
  s.guardCheck (s.odNum 0x5000 (0x10 + key / 4096) / 4096 + key % 4096) sidecarWord
    { ctx := none, station := 80 + s.server (key / 4096) }

/-- Release a sidecar slot to FREE (R196, R197): its buckets fall, and with the context's last slot the ledger is zeroed. -/
def State.freeSlot (s : State) (key : Nat) : State :=
  match sFind s.x.slots key with
  | none => s
  | some v =>
    let slots := sDel s.x.slots key
    let s := { s with x := { s.x with slots := slots },
                      acc := { s.acc with list := s.acc.list.filter fun a => a.src ≠ .stamp (key / 4096) (key % 4096) } }
    let s := v.blocks.foldl (fun s x => s.ledgerDown v.ctx x) s
    if slots.any fun e => e.2.ctx = v.ctx then s else (s.ledgerZero v.ctx).2

/-- Release every sidecar slot of a context (R196). -/
def State.freeCtxSlots (s : State) (c : Nat) : State :=
  (s.x.slots.filter fun e => e.2.ctx = c).foldl (fun s e => s.freeSlot e.1) s

/-- The sidecar slot of a descriptor. -/
def State.slotFor (s : State) (q : Nat) (ri : W32) : Option (Nat × SideSlot) :=
  s.x.slots.find? fun e => e.2.queue = q && e.2.ri = ri

/-! ### Invalidations -/

/-- Whether pages `p` to `p + n - 1` meet the range of an invalidation. -/
def Inv.covers (i : Inv) (p n : Nat) : Bool := i.pages = 0 || p < i.first + i.pages && i.first < p + n

/-- Whether the page of an access lies in a run. -/
def Run.holds (e : Run) (a : Access) : Bool := e.base ≤ vpage a.va && vpage a.va < e.base + e.len

/-- Steps 1 to 3 of an invalidation (R203), and R230: walks of the context are doomed, entries that overlap go, a store
that straddles and is not being committed translates again, stamps that overlap are marked STALE. What steps 4 and 5 wait for is
noted: the stations whose channels execute a marked stamp, and the accesses issued through an entry that went, at any of its pages,
through a marked stamp or in the range. -/
def State.invRun (s : State) (i : Inv) (pm : Nat) : State :=
  let walks := s.x.walks.map fun w => if w.ctx = i.ctx && w.res.isNone then { w with doomed := true } else w
  let gone := s.x.tlb.filter fun e => e.ctx = i.ctx && i.covers e.base e.len
  let tlb := s.x.tlb.filter fun e => !(e.ctx = i.ctx && i.covers e.base e.len)
  let ulc := s.x.ulc.filter fun u => !(u.ctx = i.ctx && i.covers (u.key * 2 ^ (9 * u.level)) (2 ^ (9 * u.level)))
  let hit (v : SideSlot) : Bool := v.ctx = i.ctx &&
    (i.pages = 0 || (v.runs.any fun r => i.covers r.page r.len) || (v.want.any fun p => i.covers p.1 1))
  let live := s.x.slots.filter fun e => e.2.ctx = i.ctx
  -- step 3 reads the bucket of each block of the range; a ledger that its guard refuses counts as hit (log entry 48)
  let blocks := if i.pages = 0 then [] else
    (List.range ((i.first + i.pages - 1) / 512 + 1 - i.first / 512)).map fun k => i.first / 512 + k
  let (led, s) := if live.isEmpty || blocks.isEmpty then (0, s)
    else s.guardCheck (s.ledgerFrame i.ctx) (s.expectTables i.ctx) (s.ledgerAsker i.ctx)
  let bucketHits := if (s.ctx i.ctx).mode.testBit 0 then blocks.filter fun x => led ≠ 0 || s.bucket i.ctx x ≠ 0 else []
  let scan := i.pages = 0 || !bucketHits.isEmpty
  let marked := if scan then live.filter fun e => hit e.2 else []
  let empty := bucketHits.filter fun x => !(live.any fun e =>
    hit e.2 && (e.2.runs.any (fun r => r.page < (x + 1) * 512 && x * 512 < r.page + r.len) ||
      e.2.want.any fun p => p.1 / 512 = x))
  let stampedBy (a : Access) : Bool := a.stamped && match a.src with
    | .chan st ch => (match (sGet {} s.dma.chans (st * 2 ^ 20 + ch)).side with
      | some k => marked.any fun e => e.1 = k
      | none => false)
    | _ => false
  let accs := (s.acc.list.filter fun a => a.ctx = i.ctx && (a.ph = .ready || a.ph = .checked || a.ph = .commit) &&
    (i.covers (vpage a.va) 1 || gone.any (fun e => e.holds a) || stampedBy a)).map (·.id)
  let chans := (s.dma.chans.filter fun e => match e.2.side with
    | some k => marked.any fun m => m.1 = k && m.2.state = 3
    | none => false).map fun e => e.1 / 2 ^ 20
  let slots := sMap s.x.slots fun k v => if marked.any (fun e => e.1 = k) then { v with stale := true } else v
  let back (a : Access) : Bool := a.ctx = i.ctx && (i.covers (vpage a.va) 1 || gone.any fun e => e.holds a) &&
    (a.ph = .ready || a.ph = .checked) && a.storePart && !s.committing a
  let again := (s.acc.list.filter back).map (·.id)
  let doomed := (s.x.walks.filter fun w => w.ctx = i.ctx && w.res.isNone).map (·.id)
  let i := { i with running := true, accs := accs.filter (fun k => !again.contains k), walks := doomed, chans := chans.eraseDups }
  let s := { s with x := { s.x with walks := walks, tlb := tlb, ulc := ulc, slots := slots,
                                    invs := s.x.invs.map fun (j : Inv) => if j.id = i.id then i else j } }
  let s := (s.inc (pmReg pm 0x6A4) marked.length).inc (pmReg pm 0x6A8) empty.length
  again.foldl (fun s k => s.retry k) s

/-- The pommel that an invalidation counts at: its slot's, else the home of its context. -/
def State.invPm (s : State) (i : Inv) : Nat :=
  match i.src with
  | .slot pm _ => pm
  | .host pm _ _ => pm
  | _ => s.homeOf i.ctx

/-- Start the invalidations that wait, in the order accepted, while fewer than eight run (R204). -/
def State.startInvs (s : State) : State :=
  s.x.invs.foldl (fun s j =>
    if j.running || 8 ≤ (s.x.invs.filter (·.running)).length then s else s.invRun j (s.invPm j)) s

/-- Accept an invalidation. -/
def State.invalidate (s : State) (src : InvSrc) (c first pages : Nat) : State :=
  let i : Inv := { id := s.x.nextInv, src := src, ctx := c, first := first, pages := pages }
  ({ s with x := { s.x with invs := s.x.invs ++ [i], nextInv := s.x.nextInv + 1 } } : State).startInvs

/-- Whether steps 4 and 5 of a running invalidation are done: none of its accesses is on its way, no doomed walk goes on, and
every channel has acknowledged its mark. A station that answers acknowledges at once; one that does not is waited for until it is
declared lost (R205). -/
def State.invSettled (s : State) (i : Inv) : Bool :=
  i.running &&
    (s.acc.list.all fun a => !i.accs.contains a.id || !(a.ph = .ready || a.ph = .checked || a.ph = .commit)) &&
    (s.x.walks.all fun w => !i.walks.contains w.id) &&
    i.chans.all fun st => (sGet {} s.nodes st).alive || !s.live st

/-- Remove an invalidation that ended, and start one that waits. -/
def State.invEnd (s : State) (i : Inv) : State :=
  ({ s with x := { s.x with invs := s.x.invs.filter fun j => j.id ≠ i.id } } : State).startInvs

/-- R201, R202: GO at invalidation slot `k` of pommel `pm`. -/
def State.invGo (s : State) (pm k : Nat) (irq : Bool) : State :=
  let o := pmReg pm (0x600 + 0x20 * k)
  if !s.live (80 + pm) then s
  else if s.slotBusy (o + 0x18) then s.inc (pmReg pm 0x6B4)
  else
    let c := s.fld o 0 20
    let gen := (s.rd (o + 4)).toNat
    let va := s.rd64 (o + 8)
    let n := (s.rd (o + 0x10)).toNat
    let s := s.setFld (o + 0x14) 1 1 (b2n irq)
    let src := if irq then some (0xCA0 + 4 * pm + k) else none
    let bad := 262144 < n || !s.ctxInTable c ||
      (n ≠ 0 && (!canonical va || va % 4096 ≠ 0 || va.testBit 56 ≠ (va + n * 4096 - 1).testBit 56 ||
        !canonical ((va + n * 4096 - 1) % 2 ^ 64)))
    if bad then s.slotDone (o + 0x18) 1 0 src
    else if gen ≠ (s.ctx c).gen then s.slotDone (o + 0x18) 10 0 src
    else if (s.ctx c).state = 0 then s.slotDone (o + 0x18) 2 0x20 src
    else (s.slotTake (o + 0x18)).invalidate (.slot pm k) c (vpage va) n

/-! ### Ends of fault entries (R216) -/

/-- End a fault entry: its accesses replay, or end with a status; then accesses that waited for room get their entries. -/
def State.endEntry (s : State) (e : FltEntry) (how : Option Nat) : State :=
  let s := { s with flt := { s.flt with entries := s.flt.entries.filter fun x => !(x.pm = e.pm && x.idx = e.idx) } }
  let att := s.acc.list.filter fun a => a.ph = .held && a.entry = some (e.pm, e.idx)
  let s := att.foldl (fun s a => match how with
    | none => s.retry a.id
    | some st => s.endAcc a.id st) s
  s.sendPris.serveHeld.unblock

/-- The entry that a FAULT_TAG names now, of context `c` (R225). -/
def State.tagged (s : State) (c tag : Nat) : Option FltEntry :=
  s.flt.entries.find? fun e => e.tag = tag && e.ctx = c && !e.host

/-- End the fault entries of a context, and the accesses held with one or none, with a status (R216); accesses of other contexts that
waited for room get their entries. -/
def State.endFaults (s : State) (c st : Nat) : State :=
  let s := { s with flt := { s.flt with entries := s.flt.entries.filter fun e => e.ctx ≠ c } }
  ((s.acc.list.filter fun a => a.ctx = c && (a.ph = .held || a.ph = .ctxWait || a.ph = .mig)).foldl
    (fun s a => s.endAcc a.id st) s).sendPris.serveHeld.unblock

/-- Set the read-only status of a page request response that matches nothing (R218). -/
def State.strayPrg (s : State) (index : Nat) : State := s.inc (pmReg (index / 128 % 4) 0x794)

/-- The Stopped bit follows once no response is owed after PRI was disabled (R352). -/
def State.priStopped (s : State) : State :=
  if (s.cfg 0 cfgPri).getLsbD 0 || s.flt.entries.any (·.pri.isSome) then s
  else s.setCfg 0 cfgPri (s.cfg 0 cfgPri ||| 0x1000000)

/-- End every outstanding page request with FAULT (R218, R352). -/
def State.endPris (s : State) (st : Nat) : State :=
  (s.flt.entries.filter (·.pri.isSome)).foldl (fun s e => s.endEntry e (some st)) s

/-- A page request group response (R218, R352). -/
def State.prgResponse (s : State) (index pasid : Nat) (code : PrgCode) : State :=
  match s.flt.entries.find? fun e => e.pri = some (index % 128) && e.pm = index / 128 with
  | none => s.strayPrg index
  | some e =>
    if (s.ctx e.ctx).pasid ≠ pasid then s.strayPrg index
    else if !(s.cfg 0 cfgPri).getLsbD 0 then ((s.strayPrg index).endEntry e (some 5)).priStopped
    else match code with
    | .success => s.endEntry e none
    | .invalid => s.endEntry e (some 5)
    | .failure =>
      let s := s.setCfg 0 cfgPri (s.cfg 0 cfgPri ||| 0x10000)
      s.endPris 5

/-- A HEAD value of the control line of context `c` (R221, R222, R223). -/
def State.ringHead (s : State) (c : Nat) (h : W32) : State :=
  let r := s.ctx c
  let adv := (h.toNat + 2 ^ 32 - r.frHead) % 2 ^ 32
  let room := (r.frTail + 2 ^ 32 - r.frHead) % 2 ^ 32
  if 2 ^ 31 ≤ adv then s
  else if room < adv then s.inc (pmReg (s.homeOf c) 0x798)
  else
    let s := s.setCtx c { r with frHead := h.toNat }
    let s := if h.toNat = r.frTail then { s with flt := { s.flt with noted := s.flt.noted.filter (· ≠ c) } } else s
    s.serveHeld.unblock

end Sys2Proof.Machine
end

