-- ==== Sys2Proof/Machine/Queue.lean ====
section
/-! DEFINITION. The queue engine (R135 to R148, R276): when a descriptor starts, how it completes, halts, completion records,
HEAD, pauses. -/

namespace Sys2Proof.Machine

/-! ### Descriptor fields (R148) -/

/-- The field of `w` bytes at byte offset `o` of a descriptor. -/
def df (d : Desc) (o w : Nat) : Nat := bitsOf d.toNat (8 * (o + w) - 1) (8 * o)

/-- OPCODE. -/
def dOp (d : Desc) : Nat := df d 0 1

/-- Bit `b` of FLAGS: 0 CQE, 1 IRQ, 2 ORDERED, 3 HALT_ON_ERROR, 4 IDX_EN, 5 END. -/
def dFlag (d : Desc) (b : Nat) : Bool := (df d 1 1).testBit b

/-- A 64-bit two's complement field. -/
def sx64 (v : Nat) : Int := if v < 2 ^ 63 then v else (v : Int) - 2 ^ 64

/-- The index term of a descriptor (R148): IDX_STRIDE × L(IDX_REG), modulo 2^64. -/
def idxTerm (loops : List Nat) (d : Desc) : Nat :=
  if dFlag d 4 then df d 8 8 * ((loops[df d 2 1 % 4]?).getD 0) % 2 ^ 64 else 0

/-- Free-running counts: `a - b` modulo 2^32. -/
def wdiff (a b : W32) : Nat := (a - b).toNat

/-- A data descriptor (R149). -/
def isData (op : Nat) : Bool := 1 ≤ op && op ≤ 0x3F

/-- Whether a descriptor may need a completion-queue slot (R147, R148, R152): it asks for a record, or it may halt its
queue. -/
def needsSlot (d : Desc) : Bool := dFlag d 0 || dFlag d 3 || dOp d = 0x40 || dOp d = 0x42

/-! ### Sharing of pommels (R450) -/

/-- Bytes that a pommel carries at Min rate in one window of 256 ticks, times 256 (R450): 0.90 TB/s × 256 ticks × 0.80 µs
for a pommel, 195.9 GB/s for a cantle. -/
def windowBytes (st : Nat) : Nat := if st < 84 then 184320000 else 40120320

/-- The key of the bytes that partition `p` moved through station `st` in the present window. -/
def shareKey (st p : Nat) : Nat := st * 64 + p

/-- Whether partition `p` is within its share at station `st` (R450). -/
def State.withinShare (s : State) (st p : Nat) : Bool :=
  sGet 0 s.tel.window (shareKey st p) * 256 < s.fld (partReg p 0) (if st < 84 then 16 else 24) 8 * windowBytes st

/-- Whether the partition of queue `q` is within its share at the pommel and cantles of its skirt; privileged queues
are. -/
def State.queShare (s : State) (q : Nat) : Bool :=
  let r := s.que q
  r.priv || (s.withinShare (80 + r.skirt) r.part &&
    (List.range 4).all fun i => sGet 0 s.tel.window (shareKey (84 + 4 * r.skirt + i) r.part) = 0 ||
      s.withinShare (84 + 4 * r.skirt + i) r.part)

/-! ### Starting (R145, R146) -/

/-- Free slots of the completion queue of a queue. -/
def QueueRec.cqFree (r : QueueRec) : Nat := 2 ^ r.cqLog2 - wdiff r.cqTail r.cqHeadSeen - r.reserved

/-- The descriptor at NEXT, when its program has passed its checks. -/
def QueueRec.atNext (r : QueueRec) : Option Desc := if r.checked then r.prog[wdiff r.next r.progStart]? else none

/-- Whether PF0 is in D0 (R344). -/
def State.pf0On (s : State) : Bool := getBits (s.cfg 0 0x44) 0 2 = 0

/-- The TDI state of the VF of partition `p` (R354, R451). -/
def State.tdi (s : State) (p : Nat) : Nat := s.fld (partReg p 0) 8 3

/-- Whether a partition reset of `p` is running (R433). -/
def State.partResetting (s : State) (p : Nat) : Bool :=
  s.rcv.presets.any (fun e => e.1 = p) || match s.rcv.reset with
    | some (sc, u, _) => sc = 3 && u = p
    | none => false

/-- Whether queues of partition `p` may start descriptors: its VF is in D0 (R344), its TDI is neither CONFIG_LOCKED nor ERROR
(R354), and no reset of it runs (R431). -/
def State.partGo (s : State) (p : Nat) : Bool :=
  getBits (s.cfg (p + 1) 0x44) 0 2 = 0 && s.tdi p ≠ 1 && s.tdi p ≠ 3 && !s.partResetting p

/-- Whether the pommel that serves skirt `k` is being reset (R431). -/
def State.skirtResetting (s : State) (k : Nat) : Bool :=
  match s.rcv.reset with
  | some (sc, u, _) => sc = 2 && u = 80 + s.server k
  | none => false

/-- Whether queue `q` runs now: RUNNING with no PAUSE bit, not halting, its context not being revoked, resident, work
enabled, its partition going, its pommel not in reset. -/
def State.queRuns (s : State) (q : Nat) : Bool :=
  let r := s.que q
  r.state = 2 && (r.priv || (s.ctx r.ctx).state < 5) && r.pause = 0 && r.halting = 0 && r.stopping.isNone && !r.stopQ0 && s.hostWork && s.pf0On && s.phase = 2 &&
    (r.priv || s.partGo r.part) && !s.skirtResetting r.skirt &&
    s.qs.resident.contains q

/-- Whether a WAIT or BRANCH of queue `q` is in flight: nothing after it starts. -/
def State.queBlocked (s : State) (q : Nat) : Bool :=
  s.qs.jobs.any fun j => j.queue = q && (dOp j.desc = 0x40 || dOp j.desc = 0x42)

/-- Whether queue `q` can start the descriptor at its NEXT, leaving channels, priorities and shares aside (R145, R146). DESIGN CHOICE:
a STAMP whose earlier pass of a loop is still in flight waits for it (log entry 58). -/
def State.inOrder (s : State) (q : Nat) : Bool :=
  let r := s.que q
  s.queRuns q && match r.atNext with
  | none => false
  | some d =>
    r.fly.length < r.depth && !s.queBlocked q &&
      (!(dFlag d 2 || dOp d = 0x41 || dOp d = 0x42) || r.fly.isEmpty) && (!needsSlot d || 0 < r.cqFree) &&
      (dOp d ≠ 0x45 || !r.fly.contains r.next)

/-! ### HEAD (R150) -/

/-- The first descriptors of the loop bodies to which a LOOP that is still ahead can return (R150, R153). -/
def QueueRec.loopFloors (r : QueueRec) : List W32 :=
  let pos := wdiff r.next r.progStart
  (r.prog.zipIdx).filterMap fun e =>
    let off := df e.1 16 2
    let t := e.2 + off - 65536
    if dOp e.1 = 0x43 && off ≥ 2 ^ 15 && t ≤ pos && pos ≤ e.2 &&
        (r.loops[df e.1 18 1 % 4]?).getD 0 + 1 < df e.1 20 4 then some (r.progStart + BitVec.ofNat 32 t) else none

/-- HEAD moves past the descriptors that completed and to which no loop can return (R150). -/
def QueueRec.moveHead (r : QueueRec) : QueueRec :=
  let cands := r.next :: (r.fly ++ r.loopFloors)
  let least := cands.foldl (fun m c => min m (wdiff c r.head)) (wdiff r.next r.head)
  let h := r.head + BitVec.ofNat 32 least
  { r with head := h, ends := r.ends.filter fun e => e ≠ h && wdiff e h < 2 ^ 31 }

/-- The index after the END of the program that holds ring index `i`. -/
def QueueRec.endOf (r : QueueRec) (i : W32) : W32 :=
  (r.ends.find? fun e => e ≠ i && wdiff e i < 2 ^ 31).getD (r.progStart + BitVec.ofNat 32 r.prog.length)

/-- A program whose END has been passed is over: the next one starts at NEXT, with loop registers zero (R150, R153). -/
def QueueRec.endProgram (r : QueueRec) : QueueRec :=
  if r.checked && r.prog.length ≤ wdiff r.next r.progStart then
    { r with progStart := r.next, checked := false, prog := [], loops := [0, 0, 0, 0], ends := r.ends ++ [r.next] }
  else r

/-- The host address of ring index `ri` of queue `q` (R140). -/
def State.ringAt (s : State) (q : Nat) (ri : W32) : Nat :=
  (s.que q).ringBase + ri.toNat % 2 ^ (s.que q).ringLog2 * 128

/-! ### Completion records (R147, R276) -/

/-- A host address of a queue's own that is never accessed writes a record bound to the queue (R309, R128). -/
def State.rangeErr (s : State) (q a n : Nat) : State :=
  if hostRange a n then s.errQueue q 3 0x0307 (80 + s.server (s.que q).skirt) 5 a 0 else s

/-- Write a record for queue `q` to host memory, or hold it in ORPHAN (R507), and raise source `src` once it is
visible. -/
def State.queRecord (s : State) (q addr : Nat) (b : Bytes) (src : Option Nat) : State :=
  let k := (s.que q).skirt
  if s.inOrphan then
    let pm := s.server k
    if 32768 ≤ (s.orph.deferred.filter fun e => e.1 = pm).length then s.raise 0x228 2 0x234
    else { s with orph := { s.orph with deferred := s.orph.deferred ++ [(pm, addr, b, src.elim 0 (· + 1))] } }
  else
    let s := (s.rangeErr q addr b.length).hostCtlWrite k addr b
    match src with
    | some n => s.irq n
    | none => s

/-- What a completion record says beside its queue and descriptor. -/
structure Done where
  status : Nat
  state : Nat := 0
  station : Nat := 0
  channel : Nat := 0xFF
  result : Nat := 0
  errOff : Nat := 0xFFFFFFFF
  detail : Nat := 15
  stamped : Bool := false
  stale : Bool := false
  halt : Bool := false

/-- The record of queue `q` is used: where it is resident, it becomes the most recently used (R138). -/
def State.queTouch (s : State) (q : Nat) : State :=
  if s.qs.resident.head? = some q || !s.qs.resident.contains q then s
  else { s with qs := { s.qs with resident := q :: s.qs.resident.filter (· ≠ q) } }

/-- HEAD and the end of the program follow (R150), while no WAIT or BRANCH can still go back. -/
def State.advance (s : State) (q : Nat) : State :=
  let r := (s.que q).moveHead
  s.setQue q (if s.queBlocked q then r else r.endProgram)

/-- Whether queue `q` is DEAD or its context is being revoked: what it has not started does not run, and HEAD marks where execution
stopped (R134). -/
def State.queDying (s : State) (q : Nat) : Bool :=
  let r := s.que q
  r.state = 5 || !r.priv && 5 ≤ (s.ctx r.ctx).state

/-- The halt of a queue takes effect once no other descriptor is in flight (R148): NEXT and HEAD go after the END of the halted
program, and the loop registers to zero. DEDUCED: so they do where the queue had gone on to later programs (log entry 22). -/
def State.finishHalt (s : State) (q : Nat) : State :=
  let r := s.que q
  if r.halting = 0 || !r.fly.isEmpty then s
  else
    let st := if r.state = 2 || r.state = 3 then 4 else r.state
    let e := r.haltEnd
    let s := s.setQue q (if s.queDying q then { r with halting := 0, state := st }
      else { r with halting := 0, state := st, next := e, head := e, progStart := e, checked := false, prog := [],
                    loops := [0, 0, 0, 0], ends := [] })
    (s.x.slots.filter fun v => v.2.queue = q && v.2.state ≠ 3).foldl (fun s v => s.freeSlot v.1) s

/-- Descriptor `d` at ring index `ri` of queue `q` completes (R146 to R148, R276): its record, its Buckle source, the
halt, HEAD. -/
def State.descDone (s : State) (q : Nat) (ri : W32) (d : Desc) (w : Done) : State :=
  let r := s.que q
  let halt := w.status ≠ 0 && (dFlag d 3 || dOp d = 0x40 || w.halt)
  let rec_ := dFlag d 0 || halt
  let n := 2 ^ r.cqLog2
  let t := r.cqTail.toNat
  let b := leBytes 1 w.status ++ leBytes 1 (ringPhase t n + 2 * b2n halt + 4 * b2n w.stamped + 8 * b2n w.stale) ++
    leBytes 1 w.state ++ leBytes 1 (dOp d) ++ leBytes 4 (df d 4 4) ++ leBytes 4 ri.toNat ++ leBytes 2 q ++
    leBytes 1 w.station ++ leBytes 1 w.channel ++ leBytes 8 w.result ++ leBytes 4 w.errOff ++ leBytes 4 w.detail
  let r := { r with
    fly := r.fly.erase ri, done := satAdd 64 r.done 1, reserved := r.reserved - b2n (needsSlot d),
    cqTail := if rec_ then r.cqTail + 1 else r.cqTail,
    halting := if halt then 1 else r.halting,
    haltEnd := if !halt || r.halting = 1 && 2 ^ 31 ≤ wdiff (r.endOf ri) r.haltEnd then r.haltEnd else r.endOf ri }
  let s := (s.setQue q r).queTouch q
  let s := if r.halting = 1 && !s.queDying q then s else s.advance q
  let irq := r.irq.testBit 15 && (halt || dFlag d 1)
  let s := if rec_ then s.queRecord q (r.cqBase + t % n * 32) b (if irq then some (r.irq % 4096) else none) else s
  let s := match s.slotFor q ri with
    | some e => if r.fly.contains ri then s else s.freeSlot e.1
    | none => s
  (s.trace 2 w.station q (ri.toNat + w.status * 2 ^ 32)).finishHalt q

/-- Where control descriptors of a queue run: the pommel of its skirt (R145). -/
def State.queStation (s : State) (q : Nat) : Nat := 80 + s.server (s.que q).skirt

/-! ### Jobs on the pommels -/

/-- The job of a descriptor. -/
def State.job? (s : State) (q : Nat) (ri : W32) : Option CtlJob := s.qs.jobs.find? fun j => j.queue = q && j.ri = ri

/-- Put or replace a job. -/
def State.setJob (s : State) (j : CtlJob) : State :=
  { s with qs := { s.qs with jobs := s.qs.jobs.filter (fun k => !(k.queue = j.queue && k.ri = j.ri)) ++ [j] } }

/-- Remove a job, its access and its held line. -/
def State.dropJob (s : State) (q : Nat) (ri : W32) : State :=
  { s with qs := { s.qs with jobs := s.qs.jobs.filter fun k => !(k.queue = q && k.ri = ri) },
           acc := { s.acc with list := s.acc.list.filter fun a => a.src ≠ .job q ri },
           cw := { s.cw with lines := s.cw.lines.filter (fun l => l.use ≠ .wait q ri),
                             woken := s.cw.woken.filter fun e => e ≠ (q, ri) } }

/-- A control descriptor completes on its pommel. -/
def State.jobDone (s : State) (j : CtlJob) (status state result : Nat) (operand : Nat := 15) : State :=
  (s.dropJob j.queue j.ri).descDone j.queue j.ri j.desc
    { status := status, state := state, station := s.queStation j.queue, result := result, detail := operand }

/-! ### Pauses, stops, revocation (R137, R134) -/

/-- Whether the access of a job is held on a page fault or a migration. -/
def State.jobHeld (s : State) (j : CtlJob) : Bool :=
  s.acc.list.any fun a => a.src = .job j.queue j.ri && (a.ph = .held || a.ph = .mig)

/-- A pending WAIT of queue `q` is set back to not started, and gives up its wait entry (R137). One whose access is held waits for
that first (R232). -/
def State.waitBack (s : State) (q : Nat) : State :=
  (s.qs.jobs.filter fun j => j.queue = q && dOp j.desc = 0x40 && (j.phase = 2 || j.phase = 1 && !s.jobHeld j)).foldl (fun s j =>
    let r := s.que q
    (s.dropJob q j.ri).setQue q { r with next := j.ri, fly := r.fly.erase j.ri,
                                         reserved := r.reserved - b2n (needsSlot j.desc) }) s

/-- A reason bit of PAUSE sets in queue `q` (R137). -/
def State.pauseQue (s : State) (q b : Nat) : State :=
  let r := s.que q
  if r.state = 0 || r.state = 5 then s
  else
    let s := s.setQue q { r with pause := Nat.lor r.pause (2 ^ b), state := if r.state = 2 then 3 else r.state }
    if r.state = 2 then s.waitBack q else s

/-- A reason bit of PAUSE clears (R137). -/
def State.unpauseQue (s : State) (q b : Nat) : State :=
  let r := s.que q
  let p := if r.pause.testBit b then r.pause - 2 ^ b else r.pause
  s.setQue q { r with pause := p, state := if r.state = 3 && p = 0 then 2 else r.state }

/-- The queues of a context. -/
def State.ctxQueues (s : State) (c : Nat) : List Nat :=
  (s.qs.recs.filter fun e => e.2.state ≠ 0 && e.2.state ≠ 5 && !e.2.priv && e.2.ctx = c && e.2.ctxGen = (s.ctx c).gen).map Prod.fst

/-- Give up the watch slot of a queue (R144). -/
def State.unwatch (s : State) (q : Nat) : State :=
  let r := s.que q
  ({ s with qs := { s.qs with watch := s.qs.watch.filter (· ≠ q) },
            cw := { s.cw with lines := s.cw.lines.filter (fun l => l.use ≠ .tail q),
                              rung := s.cw.rung.filter (fun x => x % 2 ^ 20 ≠ q) } } : State).setQue q { r with snoopActive := false }

/-- No descriptor of a context is in flight: its queues', and channels'. -/
def State.ctxIdle (s : State) (c : Nat) : Bool := (s.ctxQueues c).all fun q => (s.que q).fly.isEmpty

/-! ### Doorbells (R139) -/

/-- A ring delivers a tail and a head to queue `q` (R139): judged against TAIL_SEEN, HEAD and CQ_TAIL. -/
def State.ring (s : State) (q : Nat) (tail head : Option W32) : State :=
  let r := s.que q
  let k := pmReg (s.server r.skirt) 0
  if r.state = 0 || r.state = 5 then s.inc (k + 0x410)
  else if !r.priv && 5 ≤ (s.ctx r.ctx).state then
    -- the context is being revoked: the doorbell is dropped and counted in the queue (R134)
    s.setQue q { r with dropped := satAdd 32 r.dropped 1 }
  else
    let s := match head with
      | some h => if wdiff r.cqTail h ≤ wdiff r.cqTail r.cqHeadSeen then s.setQue q { r with cqHeadSeen := h } else s
      | none => s
    match tail with
    | none => s
    | some t =>
      let r := s.que q
      if t = r.tailSeen then s
      else if 2 ^ 31 ≤ wdiff t r.tailSeen then s.setQue q { r with lateDb := satAdd 32 r.lateDb 1 }
      else if 2 ^ r.ringLog2 < wdiff t r.head then
        let s := (s.setQue q { r with dropped := satAdd 32 r.dropped 1 }).raise (k + 0x400) 0 (k + 0x414)
        s.errQueue q 4 0x0403 (80 + s.server r.skirt) 0 0 t.toNat
      else
        let s := s.setQue q { r with tailSeen := t, doorbells := satAdd 32 r.doorbells 1 }
        let s := if s.qs.resident.contains q then s.queTouch q
          else { s with qs := { s.qs with pendBits := q :: s.qs.pendBits.filter (· ≠ q) } }
        s.trace 0 (80 + s.server r.skirt) q t.toNat

/-- Count a doorbell dropped for partition `p` (R446). -/
def State.doorbellDenied (s : State) (p : Nat) : State := s.inc (partReg p 0x20)

/-- A doorbell reaches the pommel that serves queue `q`: dropped and counted in ORPHAN (R507), and while the queue's
partition is disabled or being reset (R433, R446); else judged under R139. -/
def State.bell (s : State) (q : Nat) (tail head : Option W32) : State :=
  let r := s.que q
  if r.state = 0 || r.state = 5 then s.ring q tail head
  else if s.inOrphan then (s.setQue q { r with dropped := satAdd 32 r.dropped 1 }).inc 0x244
  else if !r.priv && (!s.bit (partReg r.part 0) 1 || s.partResetting r.part) then s.doorbellDenied r.part
  else s.ring q tail head

/-- Records of the skirt of queue `q` that are resident. -/
def State.skirtResident (s : State) (k : Nat) : List Nat := s.qs.resident.filter fun q => (s.que q).skirt = k

/-- The frame that holds the record of queue `q` (R135). -/
def State.queFrame (s : State) (q : Nat) : Nat := (s.odNum 0x2000 0x30 + q * 128) / 4096

/-- The owner word of the queue table (R135). -/
def queTableWord : W32 := ownerWord 0 3 0x10

/-- The guard's check of a load or write-back of the record of queue `q` (R175). -/
def State.queCheck (s : State) (q : Nat) : Nat × State :=
  s.guardCheck (s.queFrame q) queTableWord { ctx := none, station := 80 + s.server (s.que q).skirt }

/-- Load the record of queue `q` (R138): the least recently used record of the skirt with no descriptor in flight, or
with a WAIT only, makes room; with none, the queue waits and CACHE_FULL sets. A load that its guard refuses does not come about, and
neither does one that must write back a record whose guard refuses (R174, R175, log entry 48). -/
def State.loadQue (s : State) (q : Nat) : State :=
  if s.qs.resident.contains q then s.queTouch q
  else
    let k := (s.que q).skirt
    let l := s.skirtResident k
    let free (x : Nat) : Bool := (s.que x).fly.all fun ri => match s.job? x ri with
      | some j => dOp j.desc = 0x40 && j.entry
      | none => false
    let put (s : State) : State :=
      let (g, s) := s.queCheck q
      if g ≠ 0 then s
      else { s with qs := { s.qs with resident := q :: s.qs.resident, pendBits := s.qs.pendBits.filter (· ≠ q) } }
    if l.length < 4096 then put s
    else match l.reverse.find? free with
    | some v =>
      let (g, s) := s.queCheck v
      if g ≠ 0 then s else put { s with qs := { s.qs with resident := s.qs.resident.filter (· ≠ v) } }
    | none => s.raise (pmReg (s.server k) 0x400) 1 (pmReg (s.server k) 0x418)

end Sys2Proof.Machine
end

