-- ==== Sys2Proof/Machine/Skive.lean ====
section
/-! DEFINITION. What a skiving unit computes (R284 to R303): formats, conversion, rounding, accumulation, reduction and
checksums, over rows of bytes with poison per byte. -/

namespace Sys2Proof.Machine

/-! ### Numbers -/

/-- What an element stands for: a finite number `±m × 2^e`, an infinity, or a NaN. -/
inductive Num where
  | fin (neg : Bool) (m : Nat) (e : Int)
  | inf (neg : Bool)
  | nan
deriving DecidableEq, Repr

/-- Whether a number is a NaN. -/
def Num.isNan : Num → Bool
  | .nan => true
  | _ => false

/-- Whether a number is finite. -/
def Num.isFin : Num → Bool
  | .fin _ _ _ => true
  | _ => false

/-- The magnitude of a finite number on the grid of step `2^q`, rounded: to nearest even, or stochastically with the 16
random bits `r` (R293). -/
def roundMag (m : Nat) (e q : Int) (rnd : Option Nat) : Nat :=
  if q ≤ e then m * 2 ^ (e - q).toNat
  else
    let d := 2 ^ (q - e).toNat
    let n := m / d
    let rem := m % d
    match rnd with
    | none => if d < 2 * rem || 2 * rem = d && n % 2 = 1 then n + 1 else n
    | some r => if r < rem * 65536 / d then n + 1 else n

/-- A floating-point element format (R285, R290): fraction bits, bias, width, the codes of the largest finite magnitude, of
what a finite value beyond range becomes, of what an infinity becomes, and of a NaN; and the lowest code that reads as an
infinity, the lowest that reads as a NaN. -/
structure Flt where
  frac : Nat
  bias : Nat
  bits : Nat
  top : Nat
  above : Nat
  infOut : Nat
  nan : Nat
  infIn : Option Nat
  nanIn : Option Nat

/-- FP32. -/
def fp32 : Flt := ⟨23, 127, 32, 0x7F7FFFFF, 0x7F800000, 0x7F800000, 0x7FC00000, some 0x7F800000, some 0x7F800001⟩
/-- BF16. -/
def bf16 : Flt := ⟨7, 127, 16, 0x7F7F, 0x7F80, 0x7F80, 0x7FC0, some 0x7F80, some 0x7F81⟩
/-- FP16. -/
def fp16 : Flt := ⟨10, 15, 16, 0x7BFF, 0x7C00, 0x7C00, 0x7E00, some 0x7C00, some 0x7C01⟩
/-- FP8 E4M3. -/
def e4m3 : Flt := ⟨3, 7, 8, 0x7E, 0x7E, 0x7F, 0x7F, none, some 0x7F⟩
/-- FP8 E5M2. -/
def e5m2 : Flt := ⟨2, 15, 8, 0x7B, 0x7B, 0x7C, 0x7E, some 0x7C, some 0x7D⟩
/-- FP6 E3M2. -/
def e3m2 : Flt := ⟨2, 3, 6, 0x1F, 0x1F, 0x1F, 0x1F, none, none⟩
/-- FP6 E2M3. -/
def e2m3 : Flt := ⟨3, 1, 6, 0x1F, 0x1F, 0x1F, 0x1F, none, none⟩
/-- FP4 E2M1. -/
def e2m1 : Flt := ⟨1, 1, 4, 7, 7, 7, 7, none, none⟩

/-- Decode a code of a floating-point format; subnormals are kept (R285). -/
def Flt.decode (f : Flt) (v : Nat) : Num :=
  let neg := v.testBit (f.bits - 1)
  let mag := v % 2 ^ (f.bits - 1)
  if f.nanIn.any (· ≤ mag) then .nan
  else if f.infIn = some mag then .inf neg
  else
    let ef := mag / 2 ^ f.frac
    let fr := mag % 2 ^ f.frac
    if ef = 0 then .fin neg fr (1 - (f.bias : Int) - f.frac)
    else .fin neg (2 ^ f.frac + fr) ((ef : Int) - f.bias - f.frac)

/-- What a conversion gives: the code, whether it saturated (R290), whether it is a NaN. -/
structure Coded where
  code : Nat
  sat : Bool := false
  nan : Bool := false

/-- Encode a number in a floating-point format (R289, R290, R293). -/
def Flt.encode (f : Flt) (rnd : Option Nat) : Num → Coded
  | .nan => { code := f.nan, nan := true }
  | .inf neg =>
    { code := f.infOut + b2n neg * 2 ^ (f.bits - 1), nan := f.infIn.isNone }
  | .fin neg m e =>
    let s := b2n neg * 2 ^ (f.bits - 1)
    if m = 0 then { code := s }
    else
      let low : Int := 1 - (f.bias : Int) - f.frac
      let q := max ((Nat.log2 m : Int) + e - f.frac) low
      let c := (q - low).toNat * 2 ^ f.frac + roundMag m e q rnd
      if f.top < c then { code := s + f.above, sat := true } else { code := s + c }

/-- Encode a number as a two's complement integer of `w` bits counting steps of `2^q`; `sym` keeps the magnitude to the
largest positive one. -/
def intEncode (w : Nat) (q : Int) (sym : Bool) (rnd : Option Nat) : Num → Coded
  | .nan => { code := 0, sat := true }
  | .inf neg => { code := if neg then 2 ^ (w - 1) else 2 ^ (w - 1) - 1, sat := true }
  | .fin neg m e =>
    let n := roundMag m e q rnd
    let lim := if neg && !sym then 2 ^ (w - 1) else 2 ^ (w - 1) - 1
    let k := min n lim
    { code := if neg && k ≠ 0 then 2 ^ w - k else k, sat := lim < n }

/-- Decode a two's complement integer of `w` bits counting steps of `2^q`. -/
def intDecode (w : Nat) (q : Int) (v : Nat) : Num :=
  if 2 ^ (w - 1) ≤ v then .fin true (2 ^ w - v) q else .fin false v q

/-! ### Format codes (R285) -/

/-- A block-scaled format. -/
def isBlock (f : Nat) : Bool := 0x10 ≤ f && f ≤ 0x15

/-- An element format. -/
def isElem (f : Nat) : Bool := 1 ≤ f && f ≤ 7

/-- The floating-point format of an element code, or of the elements of a block code. -/
def fltOf (f : Nat) : Option Flt :=
  match f with
  | 1 => some fp32 | 2 => some bf16 | 3 => some fp16 | 4 => some e4m3 | 5 => some e5m2
  | 0x10 => some e4m3 | 0x11 => some e5m2 | 0x12 => some e3m2 | 0x13 => some e2m3 | 0x14 => some e2m1
  | _ => none

/-- Bits of an element. -/
def elemBits (f : Nat) : Nat :=
  match f with
  | 1 => 32 | 2 => 16 | 3 => 16 | 7 => 4 | 0x12 => 6 | 0x13 => 6 | 0x14 => 4 | _ => 8

/-- Elements in a format's unit. -/
def unitElems (f : Nat) : Nat := if isBlock f then 32 else if f = 7 then 2 else 1

/-- Bytes of a format's unit. -/
def unitBytes (f : Nat) : Nat :=
  if isBlock f then 4 * elemBits f + 1 else if f = 7 then 1 else if f = 0 then 1 else elemBits f / 8

/-- The alignment of a row start. -/
def rowAlign (f : Nat) : Nat := match f with
  | 1 => 4 | 2 => 2 | 3 => 2 | _ => 1

/-- Elements of the conversion unit of two formats (R287). -/
def convElems (sf df : Nat) : Nat := max (unitElems sf) (unitElems df)

/-- Bytes of the conversion unit in format `f` when it holds `e` elements. -/
def convBytes (f e : Nat) : Nat := e / unitElems f * unitBytes f

/-- The formats that checksum operations accept (R288). -/
def isCk (f : Nat) : Bool := 1 ≤ f && f ≤ 6

/-! ### Decoding rows -/

/-- An element and whether a byte that it depends on was poisoned. -/
abbrev El := Num × Bool

/-- Decode one element code. -/
def elemDecode (f v : Nat) : Num :=
  match fltOf f with
  | some t => t.decode v
  | none => if f = 0x15 then intDecode 8 (-6) v else intDecode (elemBits f) 0 v

/-- Whether a byte of the range is flagged. -/
def anyFlag (pz : List Bool) (o n : Nat) : Bool := ((pz.drop o).take n).any id

/-- Scale a number by `2^k`. -/
def Num.scale (x : Num) (k : Int) : Num :=
  match x with
  | .fin n m e => .fin n m (e + k)
  | y => y

/-- The elements of a row of format `f`, with their poison (R286, R292, R297): that of the bytes that hold the element, and of its
block's scale. -/
def decodeRow (f : Nat) (bs : Bytes) (pz : List Bool) : List El :=
  let w := elemBits f
  if isBlock f then
    let n := bs.length / unitBytes f
    let eb := 4 * w
    (List.range n).flatMap fun b =>
      let sc := ((bs[n * eb + b]?).getD 0).toNat
      let bad := anyFlag pz (n * eb + b) 1
      let word := leNat ((bs.drop (b * eb)).take eb)
      (List.range 32).map fun j =>
        let c := word / 2 ^ (w * j) % 2 ^ w
        let o := w * j / 8
        (if sc = 0xFF then .nan else (elemDecode f c).scale ((sc : Int) - 127),
          bad || anyFlag pz (b * eb + o) ((w * j + w - 1) / 8 + 1 - o))
  else if f = 7 then
    (bs.zipIdx).flatMap fun e =>
      let bad := anyFlag pz e.2 1
      [(elemDecode 7 (e.1.toNat % 16), bad), (elemDecode 7 (e.1.toNat / 16), bad)]
  else
    let k := w / 8
    (List.range (bs.length / k)).map fun i => (elemDecode f (leNat ((bs.drop (i * k)).take k)), anyFlag pz (i * k) k)

/-! ### Encoding rows -/

/-- The random bits of a stochastic rounding (R293). -/
def srBits (seed : W32) (pos : Nat) : Nat :=
  let x := seed ^^^ (BitVec.ofNat 32 pos * 0x9E3779B9#32)
  let x := (x ^^^ (x >>> 16)) * 0x85EBCA6B#32
  let x := (x ^^^ (x >>> 13)) * 0xC2B2AE35#32
  (x ^^^ (x >>> 16)).toNat % 65536

/-- How a conversion rounds: nearest even, or with a seed. -/
abbrev Rnd := Option W32

/-- The random bits for the element whose least significant bit stands at bit `bit` of destination offset `off`. -/
def Rnd.at (r : Rnd) (off bit : Nat) : Option Nat := r.map fun seed => srBits seed (off * 8 + bit)

/-- What a row's conversion gives: bytes with their poison, elements saturated, and elements that came out as NaN. -/
structure RowOut where
  bytes : Bytes := []
  pz : List Bool := []
  sats : Nat := 0
  nans : Nat := 0
deriving DecidableEq, Repr

/-- Split a list into groups of `n`. -/
def chunks {α : Type} (n : Nat) : Nat → List α → List (List α)
  | 0, _ => []
  | k + 1, l => if l.isEmpty then [] else l.take n :: chunks n k (l.drop n)

/-- The largest exponent `floor(log2 |x|)` among finite numbers; none where all are zero. -/
def maxExp (l : List Num) : Option Int :=
  l.foldl (fun a x => match x with
    | .fin _ m e =>
      if m = 0 then a else
      let k := (Nat.log2 m : Int) + e
      (match a with
      | some b => some (max b k)
      | none => some k)
    | _ => a) none

/-- emax of the element type of a block format (R291). -/
def emaxOf (f : Nat) : Int := match f with
  | 0x10 => 8 | 0x11 => 15 | 0x12 => 4 | 0x13 => 2 | 0x14 => 2 | _ => 0

/-- Encode one element of format `f`. -/
def elemEncode (f : Nat) (rnd : Option Nat) (x : Num) : Coded :=
  match fltOf f with
  | some t => t.encode rnd x
  | none => if f = 0x15 then intEncode 8 (-6) true rnd x else intEncode (elemBits f) 0 false rnd x

/-- Encode a block of 32 values whose element bytes stand at destination offset `off` (R291): element bytes, scale byte,
saturations, NaNs. -/
def blockEncode (f : Nat) (r : Rnd) (off : Nat) (xs : List Num) : Bytes × Byte × Nat × Nat :=
  let w := elemBits f
  if xs.any fun x => !x.isFin then (List.replicate (4 * w) 0, 0xFF, 0, xs.length)
  else
    let x0 : Int := match maxExp xs with
      | some k => min 127 (max (-127) (k - emaxOf f))
      | none => -127
    let cs := (xs.zipIdx).map fun e => elemEncode f (r.at (off + w * e.2 / 8) (w * e.2 % 8)) (e.1.scale (-x0))
    let word := (cs.zipIdx).foldl (fun v c => v + c.1.code % 2 ^ w * 2 ^ (w * c.2)) 0
    (leBytes (4 * w) word, BitVec.ofNat 8 (x0 + 127).toNat, (cs.filter (·.sat)).length, 0)

/-- Encode a row of elements in format `f`; `off` is the destination offset of its first byte (R286, R289 to R293). A
block-scaled row carries poison on every byte of an affected block (R297). -/
def encodeRow (f : Nat) (r : Rnd) (off : Nat) (els : List El) : RowOut :=
  let w := elemBits f
  if isBlock f then
    let eb := 4 * w
    let bl := (chunks 32 els.length els).zipIdx
    let enc := bl.map fun e => (blockEncode f r (off + e.2 * eb) (e.1.map Prod.fst), e.1.any Prod.snd)
    { bytes := (enc.flatMap fun e => e.1.1) ++ enc.map fun e => e.1.2.1,
      pz := (enc.flatMap fun e => List.replicate eb e.2) ++ enc.map Prod.snd,
      sats := enc.foldl (fun n e => n + e.1.2.2.1) 0, nans := enc.foldl (fun n e => n + e.1.2.2.2) 0 }
  else if f = 7 then
    let cs := (els.zipIdx).map fun e => (elemEncode 7 (r.at (off + e.2 / 2) (e.2 % 2 * 4)) e.1.1, e.1.2)
    let pairs := chunks 2 cs.length cs
    { bytes := pairs.map fun p => BitVec.ofNat 8 ((p.zipIdx).foldl (fun v c => v + c.1.1.code % 16 * 16 ^ c.2) 0),
      pz := pairs.map fun p => p.any Prod.snd,
      sats := (cs.filter fun c => c.1.sat).length, nans := (cs.filter fun c => c.1.nan).length }
  else
    let k := w / 8
    let cs := (els.zipIdx).map fun e => (elemEncode f (r.at (off + e.2 * k) 0) e.1.1, e.1.2)
    { bytes := cs.flatMap fun c => leBytes k c.1.code, pz := cs.flatMap fun c => List.replicate k c.2,
      sats := (cs.filter fun c => c.1.sat).length, nans := (cs.filter fun c => c.1.nan).length }

/-! ### FP32 arithmetic (R294, R295) -/

/-- Round a number to FP32, to nearest even. -/
def toF32 (x : Num) : Num := fp32.decode (fp32.encode none x).code

/-- The FP32 sum of two FP32 numbers. -/
def f32Add : Num → Num → Num
  | .nan, _ => .nan
  | _, .nan => .nan
  | .inf a, .inf b => if a = b then .inf a else .nan
  | .inf a, _ => .inf a
  | _, .inf b => .inf b
  | .fin na ma ea, .fin nb mb eb =>
    let e := min ea eb
    let va : Int := (ma * 2 ^ (ea - e).toNat : Nat)
    let vb : Int := (mb * 2 ^ (eb - e).toNat : Nat)
    let v := (if na then -va else va) + (if nb then -vb else vb)
    if v = 0 then .fin (na && nb) 0 0 else toF32 (.fin (v < 0) v.natAbs e)

/-- The square of a number, rounded to FP32. -/
def f32Sq : Num → Num
  | .nan => .nan
  | .inf _ => .inf false
  | .fin _ m e => toF32 (.fin false (m * m) (e + e))

/-- Whether `a` is below `b`; −0 is below +0 (R294). -/
def numLt : Num → Num → Bool
  | .nan, _ => false
  | _, .nan => false
  | .inf a, .inf b => a && !b
  | .inf a, .fin _ _ _ => a
  | .fin _ _ _, .inf b => !b
  | .fin na ma ea, .fin nb mb eb =>
    if na ≠ nb then na
    else
      let e := min ea eb
      let va := ma * 2 ^ (ea - e).toNat
      let vb := mb * 2 ^ (eb - e).toNat
      if na then vb < va else va < vb

/-- Maximum; a NaN in either gives a NaN. -/
def f32Max (a b : Num) : Num := if a.isNan || b.isNan then .nan else if numLt a b then b else a

/-- Minimum. -/
def f32Min (a b : Num) : Num := if a.isNan || b.isNan then .nan else if numLt b a then b else a

/-- The magnitude of a number. -/
def Num.mag : Num → Num
  | .fin _ m e => .fin false m e
  | .inf _ => .inf false
  | .nan => .nan

/-- One operation by its code: 0 and 3 sum, 1 max, 2 min. -/
def f32Op (op : Nat) (a b : Num) : Num := if op = 1 then f32Max a b else if op = 2 then f32Min a b else f32Add a b

/-- Take the terms of an accumulation in the order in which they arrive (R295): the spec leaves the order open, so the
order is a free value. -/
def arrive {α : Type} (k i : Nat) : Nat → List α → List α
  | 0, _ => []
  | n + 1, l =>
    match l[Config.arrival k i % l.length]? with
    | none => []
    | some x => x :: arrive k (i + 1) n (l.eraseIdx (Config.arrival k i % l.length))

/-- Accumulate terms in the order of arrival numbered `k`. The accumulator begins as the first term. -/
def accumulate (op k : Nat) (terms : List Num) : Num :=
  match arrive k 0 terms.length terms with
  | [] => .fin false 0 0
  | x :: xs => xs.foldl (f32Op op) x

/-! ### The operations -/

/-- MOVE of one row (R289): the bytes unchanged where the formats are equal, else each element converted. -/
def skvMove (sf df : Nat) (r : Rnd) (off : Nat) (bs : Bytes) (pz : List Bool) : RowOut :=
  if sf = df then { bytes := bs, pz := pz } else encodeRow df r off (decodeRow sf bs pz)

/-- ACCUM of one row (R294): op 0 sum, 1 max, 2 min. -/
def skvAccum (op sf df : Nat) (r : Rnd) (off : Nat) (bs : Bytes) (pz : List Bool) (ds : Bytes) (dz : List Bool) : RowOut :=
  encodeRow df r off (((decodeRow df ds dz).zip (decodeRow sf bs pz)).map fun e =>
    (f32Op op (toF32 e.1.1) (toF32 e.2.1), e.1.2 || e.2.2))

/-- GATHER_REDUCE and REDUCE of one row (R295): op 0 SUM, 1 MAX, 2 MIN, 3 SUM_SQ; `k` numbers the accumulation. -/
def skvReduce (op sf df : Nat) (r : Rnd) (off k : Nat) (srcs : List (Bytes × List Bool)) : RowOut :=
  let rows := srcs.map fun e => decodeRow sf e.1 e.2
  let n := match rows with
    | [] => 0
    | x :: _ => x.length
  encodeRow df r off ((List.range n).map fun i =>
    let els := rows.map fun row => (row[i]?).getD (.fin false 0 0, false)
    let ts := els.map fun e => if op = 3 then f32Sq (toF32 e.1) else toF32 e.1
    (accumulate op (k + i) ts, els.any Prod.snd))

/-- An FP32 value as its four bytes, with poison. -/
def f32Out (x : Num) (bad : Bool) : Bytes × List Bool := (leBytes 4 (fp32.encode none x).code, List.replicate 4 bad)

/-- The elements of column `j`. -/
def column (rows : List (List El)) (j : Nat) : List El := rows.filterMap fun r => r[j]?

/-- The FP32 sum of elements, with their poison. -/
def ckSum (k : Nat) (els : List El) : El := (accumulate 0 k (els.map fun e => toF32 e.1), els.any Prod.snd)

/-- CKSUM_APPEND of one matrix (R299): the destination rows, checksum row last where the mode has one. Mode bit 0 ROW,
bit 1 COL. `wid` is the space a row takes in destination offsets, `off` the offset of the matrix. -/
def skvAppend (mode sf df : Nat) (r : Rnd) (off wid k : Nat) (rows : List (Bytes × List Bool)) : List RowOut :=
  let conv := (rows.zipIdx).map fun e => skvMove sf df r (off + e.2 * wid) e.1.1 e.1.2
  let els := conv.map fun o => decodeRow df o.bytes o.pz
  let out := ((conv.zip els).zipIdx).map fun e =>
    if mode.testBit 0 then
      let c := ckSum (k + e.2) e.1.2
      let b := f32Out c.1 c.2
      { e.1.1 with bytes := e.1.1.bytes ++ b.1, pz := e.1.1.pz ++ b.2 }
    else e.1.1
  if !mode.testBit 1 then out
  else
    let n := match els with
      | [] => 0
      | x :: _ => x.length
    let cols := (List.range n).map fun j => ckSum (k + rows.length + j) (column els j)
    let cols := if mode.testBit 0 then cols ++ [ckSum (k + rows.length + n) els.flatten] else cols
    let bs := cols.map fun c => f32Out c.1 c.2
    out ++ [{ bytes := bs.flatMap Prod.fst, pz := bs.flatMap Prod.snd }]

/-- The unit roundoff of a source format as a power of two (R301): ε is `2^-epsLog f`. -/
def epsLog (f : Nat) : Nat := match f with
  | 2 => 8 | 3 => 11 | 4 => 4 | 5 => 3 | _ => 24

/-- The exact value of a finite number over `2^-2000`. -/
def numInt : Num → Int
  | .fin n m e =>
    let v : Int := (m * 2 ^ (e + 2000).toNat : Nat)
    if n then -v else v
  | _ => 0

/-- One check (R301): the carried checksum against the elements it covers, the sums taken in the order of arrival. -/
def ckPass (tol sf k : Nat) (carried : Num) (els : List El) : Bool :=
  let s := accumulate 0 k (els.map fun e => toF32 e.1)
  let a := accumulate 0 k (els.map fun e => (toF32 e.1).mag)
  carried.isFin && s.isFin && a.isFin &&
    ((numInt carried - numInt s).natAbs * 2 ^ epsLog sf ≤ tol * (numInt a).natAbs)

/-- The first failing check of a matrix (R302): the row checks in row order, then the column checks, the corner last; its
code for DETAIL[31:16]. `crow` is the checksum row. -/
def ckFirst (mode tol sf k : Nat) (rows : List (List El)) (rowCk : List Num) (crow : List Num) : Option Nat :=
  let n := match rows with
    | [] => 0
    | x :: _ => x.length
  let rowBad := if !mode.testBit 0 then none else
    (List.range rows.length).find? fun i => !ckPass tol sf (k + i) ((rowCk[i]?).getD .nan) ((rows[i]?).getD [])
  let colBad := if !mode.testBit 1 then none else
    (List.range n).find? fun j => !ckPass tol sf (k + rows.length + j) ((crow[j]?).getD .nan) (column rows j)
  let corner := mode = 3 && !ckPass tol sf (k + rows.length + n) ((crow[n]?).getD .nan) rows.flatten
  match rowBad with
  | some i => some i
  | none => match colBad with
    | some j => some (j + 0x8000)
    | none => if corner then some 0xFFFF else none

end Sys2Proof.Machine
end

