-- ==== Sys2Proof/Machine/Program.lean ====
section
/-! DEFINITION. Data descriptors' geometry (R268 to R274, R298 to R300) and the submission checks of a program (R148 to R155,
R271, R288). -/

namespace Sys2Proof.Machine

/-! ### Descriptor geometry -/

/-- A two's complement field of `w` bytes. -/
def sxw (w v : Nat) : Int := if v < 2 ^ (8 * w - 1) then v else (v : Int) - 2 ^ (8 * w)

/-- The signed field of `w` bytes at byte offset `o`. -/
def dfs (d : Desc) (o w : Nat) : Int := sxw w (df d o w)

/-- What a descriptor moves. `op` is 0 MOVE, 1 to 3 ACCUM_SUM, ACCUM_MAX and ACCUM_MIN, 4 CKSUM_APPEND, 5 CKSUM_VERIFY,
6 FILL, and 8 plus the OP of a reduction. Addresses include the index term (R270). -/
structure Geo where
  op : Nat
  srcs : List Nat
  dst : Nat
  len0 : Nat
  c1 : Nat
  c2 : Nat
  c3 : Nat
  ss : Int × Int × Int
  ds : Int × Int × Int
  sf : Nat
  df : Nat
  round : Nat
  seed : Nat
  param : Nat
  pat : Nat := 0
deriving Repr

/-- A virtual address with the index term added. -/
def vaAdd (v term : Nat) : Nat := (v + term) % 2 ^ 64

/-- The source addresses of an operand array at `o`, the first `n` of eight. -/
def srcList (d : Desc) (o n term : Nat) : List Nat := (List.range n).map fun k => vaAdd (df d (o + 8 * k) 8) term

/-- The geometry of a data descriptor or of REDUCE, with the index term `term` (R269, R273, R274, R154). -/
def geoOf (d : Desc) (term : Nat) : Geo :=
  let op := dOp d
  if op = 3 then
    { op := 8 + df d 114 1, srcs := srcList d 24 (min (df d 120 1) 8) term, dst := vaAdd (df d 16 8) term,
      len0 := df d 88 4, c1 := df d 92 2, c2 := df d 94 2, c3 := 1, ss := (dfs d 96 4, dfs d 104 4, 0),
      ds := (dfs d 100 4, dfs d 108 4, 0), sf := df d 112 1, df := df d 113 1, round := df d 115 1, seed := df d 116 4,
      param := 0 }
  else if op = 0x44 then
    let sf := df d 29 1
    { op := 8 + df d 28 1, srcs := srcList d 40 (min (df d 31 1) 8) term, dst := vaAdd (df d 16 8) term,
      len0 := df d 24 4 / unitElems sf * unitBytes sf, c1 := 1, c2 := 1, c3 := 1, ss := (0, 0, 0), ds := (0, 0, 0),
      sf := sf, df := df d 30 1, round := df d 32 1, seed := df d 36 4, param := 0 }
  else
    { op := if op = 2 then 6 else df d 98 1, srcs := if op = 2 then [] else [vaAdd (df d 16 8) term],
      dst := vaAdd (df d 24 8) term, len0 := df d 32 4, c1 := df d 36 4, c2 := df d 40 4, c3 := df d 44 4,
      ss := (dfs d 48 8, dfs d 64 8, dfs d 80 8), ds := (dfs d 56 8, dfs d 72 8, dfs d 88 8), sf := df d 96 1,
      df := df d 97 1, round := df d 99 1, seed := df d 100 4, param := df d 104 8, pat := df d 16 8 }

/-- CKSUM_APPEND or CKSUM_VERIFY: a matrix at a time. -/
def Geo.isMat (g : Geo) : Bool := g.op = 4 || g.op = 5

/-- MODE of a checksum descriptor: bit 0 ROW, bit 1 COL (R298). -/
def Geo.mode (g : Geo) : Nat := bitsOf g.param 17 16

/-- TOL_K. -/
def Geo.tol (g : Geo) : Nat := g.param % 2 ^ 16

/-- Bytes of the conversion unit on the source (R287). -/
def Geo.srcUnit (g : Geo) : Nat := if g.sf = 0 then 1 else convBytes g.sf (convElems g.sf g.df)

/-- Bytes of the conversion unit on the destination. -/
def Geo.dstUnit (g : Geo) : Nat := if g.df = 0 then 1 else convBytes g.df (convElems g.sf g.df)

/-- Columns of a matrix (R298). -/
def Geo.cols (g : Geo) : Nat := g.len0 / g.srcUnit

/-- Length of a checksum row (R299). -/
def Geo.ckLen (g : Geo) : Nat := 4 * g.cols + (if g.mode = 3 then 4 else 0)

/-- DLEN (R271, R299, R300). -/
def Geo.dlen (g : Geo) : Nat :=
  g.len0 / g.srcUnit * g.dstUnit + (if g.op = 4 && g.mode.testBit 0 then 4 else 0)

/-- Bytes of a source row (R300). -/
def Geo.srow (g : Geo) : Nat := g.len0 + (if g.op = 5 && g.mode.testBit 0 then 4 else 0)

/-- Whether a checksum row is written, or read. -/
def Geo.ckWritten (g : Geo) : Bool := g.op = 4 && g.mode.testBit 1
/-- Whether a checksum row is read. -/
def Geo.ckRead (g : Geo) : Bool := g.op = 5 && g.mode.testBit 1

/-- Destination offsets that one row takes, and rows counted per matrix (R270, R299). -/
def Geo.wid (g : Geo) : Nat := if g.ckWritten then max g.dlen g.ckLen else g.dlen
/-- Rows counted per matrix. -/
def Geo.rows (g : Geo) : Nat := if g.ckWritten then g.c1 + 1 else g.c1

/-- Units of work in loop order: matrices for a checksum descriptor, else rows. -/
def Geo.units (g : Geo) : Nat := if g.isMat then g.c2 * g.c3 else g.c1 * g.c2 * g.c3

/-- The address of row (i1, i2, i3) from a base with strides (R270). -/
def rowVa (base : Nat) (st : Int × Int × Int) (i1 i2 i3 : Nat) : Nat :=
  (((base : Int) + st.1 * i1 + st.2.1 * i2 + st.2.2 * i3) % 2 ^ 64).toNat

/-- The indexes of a row in loop order. -/
def Geo.idx (g : Geo) (u : Nat) : Nat × Nat × Nat := (u % g.c1, u / g.c1 % g.c2, u / g.c1 / g.c2)

/-- The destination offset of the first byte of a unit. -/
def Geo.unitOff (g : Geo) (u : Nat) : Nat := if g.isMat then u * g.rows * g.wid else u * g.dlen

/-- Bytes of the whole destination footprint. -/
def Geo.dstTotal (g : Geo) : Nat :=
  if g.ckWritten then g.c2 * g.c3 * (g.c1 * g.dlen + g.ckLen) else g.c1 * g.c2 * g.c3 * g.dlen

/-- Bytes of the source footprint of one matrix, or of one row. -/
def Geo.matSrc (g : Geo) : Nat := g.c1 * g.srow + (if g.ckRead then g.ckLen else 0)

/-- Bytes of the whole source footprint, over all sources. -/
def Geo.srcTotal (g : Geo) : Nat :=
  if g.isMat then g.c2 * g.c3 * g.matSrc else g.c1 * g.c2 * g.c3 * g.len0 * g.srcs.length

/-- A range of bytes by page: pieces of operand `k`, from position `pos`. The fuel bounds the pages. -/
def pagesOf (k va len pos : Nat) : Nat → List Piece
  | 0 => []
  | n + 1 =>
    if len = 0 then [] else
    let m := min len (4096 - va % 4096)
    { k := k, va := va, len := m, pos := pos } :: pagesOf k ((va + m) % 2 ^ 64) (len - m) (pos + m) n

/-- The pieces of a range of bytes. -/
def pieces (k va len pos : Nat) : List Piece := pagesOf k va len pos (len / 4096 + 2)

/-- The source pieces of unit `u`: of a row of every source, of a matrix with its checksum row; an accumulation reads its
destination row as operand 8 (R269). -/
def Geo.srcPieces (g : Geo) (u : Nat) : List Piece :=
  if g.isMat then
    let i2 := u % g.c2
    let i3 := u / g.c2
    let b := g.srcs.headD 0
    ((List.range g.c1).flatMap fun i => pieces 0 (rowVa b g.ss i i2 i3) g.srow (i * g.srow)) ++
      (if g.ckRead then pieces 0 (rowVa b g.ss g.c1 i2 i3) g.ckLen (g.c1 * g.srow) else [])
  else
    let (i1, i2, i3) := g.idx u
    ((g.srcs.zipIdx).flatMap fun e => pieces e.2 (rowVa e.1 g.ss i1 i2 i3) g.len0 0) ++
      (if 1 ≤ g.op && g.op ≤ 3 then pieces 8 (rowVa g.dst g.ds i1 i2 i3) g.dlen 0 else [])

/-- The destination pieces of unit `u` with the rows that the unit gave; positions are destination offsets. -/
def Geo.dstPieces (g : Geo) (u : Nat) (rows : List RowOut) : List (Piece × Bytes × List Bool) :=
  let cut (va off : Nat) (r : RowOut) : List (Piece × Bytes × List Bool) :=
    (pieces 8 va r.bytes.length 0).map fun p =>
      ({ p with pos := off + p.pos }, (r.bytes.drop p.pos).take p.len, (r.pz.drop p.pos).take p.len)
  (rows.zipIdx).flatMap fun e =>
    if g.isMat then cut (rowVa g.dst g.ds e.2 (u % g.c2) (u / g.c2)) (g.unitOff u + e.2 * g.wid) e.1
    else
      let (i1, i2, i3) := g.idx u
      cut (rowVa g.dst g.ds i1 i2 i3) (g.unitOff u) e.1

/-- The source pieces of unit `u`, each with its unit. -/
def Geo.reads (g : Geo) (u : Nat) : List Piece := (g.srcPieces u).map fun p => { p with u := u }

/-- The destination pieces of unit `u`, each with its unit. -/
def Geo.writes (g : Geo) (u : Nat) (rows : List RowOut) : List (Piece × Bytes × List Bool) :=
  (g.dstPieces u rows).map fun o => ({ o.1 with u := u }, o.2)

/-! ### Overlap (R272) -/

/-- The rows of a footprint that hold the byte at address `x`: rows 0 to `c1 - 1` of loop 1 with `len` bytes, and row `c1` with `ck`. -/
def rowsAt (base : Nat) (st : Int × Int × Int) (c1 c2 c3 len ck x : Nat) : Nat :=
  let has (i1 i2 i3 n : Nat) : Nat :=
    let a := rowVa base st i1 i2 i3
    if a ≤ x && x < a + n then 1 else 0
  (List.range c3).foldl (fun t i3 => (List.range c2).foldl (fun t i2 =>
    (List.range c1).foldl (fun t i1 => t + has i1 i2 i3 len) (t + has c1 i2 i3 ck)) t) 0

/-- The lowest and highest address of a footprint whose rows have at most `n` bytes. -/
def spanOf (base : Nat) (st : Int × Int × Int) (c1 c2 c3 n : Nat) : Int × Int :=
  let e (s : Int) (c : Nat) : Int := s * (c - 1 : Nat)
  let d := [e st.1 c1, e st.2.1 c2, e st.2.2 c3]
  (d.foldl (fun t v => t + min 0 v) (base : Int), d.foldl (fun t v => t + max 0 v) (base : Int) + n)

/-- Rows counted over the source or destination of one pass of loop 1: the checksum row with them. -/
def Geo.srcRows (g : Geo) : Nat := if g.ckRead then g.c1 + 1 else g.c1

/-- Whether strides and spans alone show that no byte of the footprint overlaps another. -/
def Geo.apart (g : Geo) : Bool :=
  let n := g.wid
  let w1 := (g.ds.1.natAbs) * (g.rows - 1) + n
  let w2 := (g.ds.2.1.natAbs) * (g.c2 - 1) + w1
  let d := spanOf g.dst g.ds g.rows g.c2 g.c3 n
  (g.rows = 1 || n ≤ g.ds.1.natAbs) && (g.c2 = 1 || w1 ≤ g.ds.2.1.natAbs) && (g.c3 = 1 || w2 ≤ g.ds.2.2.natAbs) &&
    g.srcs.all fun b =>
      let r := spanOf b g.ss g.srcRows g.c2 g.c3 (max g.srow g.ckLen)
      r.2 ≤ d.1 || d.2 ≤ r.1

/-- Which bytes of a destination piece another destination row, or a source, holds as well (R272). -/
def Geo.loose (g : Geo) (p : Piece) : List Bool :=
  if g.apart then []
  else (List.range p.len).map fun i =>
    let x := p.va + i
    1 < rowsAt g.dst g.ds g.c1 g.c2 g.c3 g.dlen (if g.ckWritten then g.ckLen else 0) x ||
      g.srcs.any fun b => rowsAt b g.ss g.c1 g.c2 g.c3 g.srow (if g.ckRead then g.ckLen else 0) x ≠ 0

/-! ### Submission checks of data descriptors (R271, R273, R288, R298) -/

/-- Whether `n` bytes at byte offset `o` of a descriptor are zero. -/
def dz (d : Desc) (o n : Nat) : Bool := df d o n = 0

/-- A footprint stays in the canonical half of its base: `rows` gives row indexes of loop 1 with the bytes there. -/
def spanOk (base : Nat) (rows : List (Nat × Nat)) (st : Int × Int × Int) (c2 c3 : Nat) : Bool :=
  let b := sx64 base
  let two (s : Int) (c : Nat) : Int × Int := (min 0 (s * (c - 1 : Nat)), max 0 (s * (c - 1 : Nat)))
  let t2 := two st.2.1 c2
  let t3 := two st.2.2 c3
  canonical base && rows.all fun r =>
    let lo := b + st.1 * r.1 + t2.1 + t3.1
    let hi := b + st.1 * r.1 + t2.2 + t3.2 + r.2 - 1
    if 0 ≤ b then 0 ≤ lo && hi < 2 ^ 56 else -(2 ^ 56) ≤ lo && hi < 0

/-- Every start of a row meets an alignment. -/
def rowsAligned (al base : Nat) (st : Int × Int × Int) (c1 c2 c3 : Nat) : Bool :=
  base % al = 0 && (c1 = 1 || st.1 % al = 0) && (c2 = 1 || st.2.1 % al = 0) && (c3 = 1 || st.2.2 % al = 0)

/-- Strides of loops of one pass are zero. -/
def stridesOk (st : Int × Int × Int) (c1 c2 c3 : Nat) : Bool :=
  (c1 ≠ 1 || st.1 = 0) && (c2 ≠ 1 || st.2.1 = 0) && (c3 ≠ 1 || st.2.2 = 0)

/-- A format code of the table. -/
def fmtOk (f : Nat) : Bool := f = 0 || isElem f || isBlock f

/-- The formats that an operation accepts (R288). -/
def combOk (op sf df : Nat) : Bool :=
  fmtOk sf && fmtOk df &&
  (if op = 0 then (sf = 0 && df = 0) || (sf ≠ 0 && df ≠ 0)
   else if op = 6 then sf = 0 && df = 0
   else if op ≤ 3 then sf ≠ 0 && isElem df && df ≠ 7
   else if op ≤ 5 then isCk sf && isCk df
   else sf ≠ 0 && df ≠ 0)

/-- The footprint checks that hold at one value of the index term (R271). -/
def Geo.fits (g : Geo) : Bool :=
  let sr := [(0, g.srow), (g.c1 - 1, g.srow)] ++ (if g.ckRead then [(g.c1, g.ckLen)] else [])
  let dr := [(0, g.dlen), (g.c1 - 1, g.dlen)] ++ (if g.ckWritten then [(g.c1, g.ckLen)] else [])
  spanOk g.dst dr g.ds g.c2 g.c3 &&
    g.srcs.all fun b => spanOk b sr g.ss g.c2 g.c3 && rowsAligned (rowAlign g.sf) b g.ss g.c1 g.c2 g.c3

/-- The checks of a data descriptor or REDUCE that do not depend on addresses. -/
def Geo.wellFormed (g : Geo) : Bool :=
  1 ≤ g.len0 && 1 ≤ g.c1 && 1 ≤ g.c2 && 1 ≤ g.c3 && combOk g.op g.sf g.df && g.round ≤ 1 &&
    (g.round = 1 || g.seed = 0) && g.len0 % g.srcUnit = 0 && stridesOk g.ss g.c1 g.c2 g.c3 &&
    stridesOk g.ds g.c1 g.c2 g.c3

/-- The 64 MiB limit (R271). -/
def Geo.small (g : Geo) : Bool := g.srcTotal ≤ 67108864 && g.dstTotal ≤ 67108864

/-- SKV_PARAM (R269, R298). -/
def Geo.paramOk (g : Geo) : Bool :=
  if g.isMat then
    (if g.op = 5 then 1 ≤ g.tol else g.tol = 0) && 1 ≤ g.mode && g.param < 2 ^ 18 && g.c1 ≤ 32767 && 1 ≤ g.cols &&
      g.cols ≤ 32767 && g.matSrc ≤ 262144
  else g.param = 0

/-- Reserved bytes and ranges of a data descriptor. -/
def dataShape (d : Desc) (g : Geo) : Bool :=
  let op := dOp d
  if op = 3 then
    g.op ≤ 11 && 1 ≤ df d 120 1 && df d 120 1 ≤ 8 && dz d 121 7 &&
      ((List.range 8).all fun k => k < df d 120 1 || dz d (24 + 8 * k) 8)
  else if op = 2 then dz d 98 14 && dz d 112 16 && g.len0 ≤ 67108864 && g.ss = (0, 0, 0)
  else g.op ≤ 5 && g.len0 ≤ 67108864 && dz d 112 16

/-! ### Index terms -/

/-- The index term with a loop register at `l` (R148). -/
def termAt (d : Desc) (l : Nat) : Nat := if dFlag d 4 then df d 8 8 * l % 2 ^ 64 else 0

/-- Whether the address at byte offset `o` stays canonical, without wrapping, at both ends of the values of its index term (R150,
check 6). -/
def addrOk (d : Desc) (o top : Nat) : Bool :=
  let b := sx64 (df d o 8) + if dFlag d 4 then sx64 (df d 8 8) * top else 0
  canonical (df d o 8) && -(2 ^ 56) ≤ b && b < 2 ^ 56

/-- Whether the fence value stays below 2^63, without wrapping, at both ends of the values of its index term (R150, check 6). -/
def fenceOk (d : Desc) (top : Nat) : Bool :=
  let b : Int := (df d 24 8 : Int) + if dFlag d 4 then sx64 (df d 32 8) * top else 0
  df d 24 8 < 2 ^ 63 && 0 ≤ b && b < 2 ^ 63

/-- A fence value with a loop register at `l` (R151). -/
def fenceVal (d : Desc) (l : Nat) : Nat := if dFlag d 4 then (df d 24 8 + df d 32 8 * l) % 2 ^ 64 else df d 24 8

/-! ### Loops of a program (R150, R153) -/

/-- A LOOP of a program: first descriptor of the body (below zero where the target lies before the program), its own index,
register, COUNT. -/
structure LoopAt where
  first : Int
  at_ : Nat
  reg : Nat
  count : Nat

/-- The loops of a program. -/
def loopsOf (ds : List Desc) : List LoopAt :=
  (ds.zipIdx).filterMap fun e =>
    if dOp e.1 = 0x43 then
      some { first := e.2 + dfs e.1 16 2, at_ := e.2, reg := df e.1 18 1 % 4, count := df e.1 20 4 }
    else none

/-- Whether position `p` lies in the body of a loop. -/
def LoopAt.has (l : LoopAt) (p : Nat) : Bool := l.first ≤ p && p ≤ l.at_

/-- Whether a loop encloses another. -/
def LoopAt.encloses (a b : LoopAt) : Bool := a.at_ ≠ b.at_ && a.first ≤ b.first && b.at_ ≤ a.at_

/-- Checks 2, 4 and 5 of R150 at a LOOP. -/
def loopOk (ls : List LoopAt) (l : LoopAt) : Bool :=
  0 ≤ l.first && l.first < l.at_ + 1 &&
    (ls.all fun b => !(l.first ≤ b.at_ && b.at_ < l.at_ && b.first < l.first)) &&
    (ls.all fun b => !(b.encloses l && b.reg = l.reg)) &&
    ((ls.filter fun b => b.encloses l).foldl (fun n b => n * b.count) l.count ≤ 2 ^ 32)

/-- Check 3 of R150 for a BRANCH at `p` to `t`. -/
def branchOk (ls : List LoopAt) (n p t : Nat) : Bool := t < n && ls.all fun l => !l.has t || l.has p

/-- The largest value of the register that IDX_REG names at `p`: COUNT − 1 of the innermost enclosing loop. -/
def idxTop (ls : List LoopAt) (p reg : Nat) : Option Nat :=
  let own := ls.filter fun l => l.has p && l.reg = reg
  (own.foldl (fun m (l : LoopAt) => match m with
    | none => some l
    | some k => if (l.at_ : Int) - l.first < (k : LoopAt).at_ - k.first then some l else m) none).map fun l => l.count - 1

/-! ### One descriptor (R148, R149, R151 to R155) -/

/-- An opcode that some queue allows (R149, R268). -/
def opKnown (op : Nat) : Bool :=
  (1 ≤ op && op ≤ 3) || (0x40 ≤ op && op ≤ 0x45) || (0xC0 ≤ op && op ≤ 0xCA) || (0xD0 ≤ op && op ≤ 0xD3)

/-- An opcode allowed on a privileged queue, or on a context queue (R149). -/
def opAllowed (priv : Bool) (op : Nat) : Bool :=
  if priv then op = 0x40 || op = 0x41 || 0xC0 ≤ op else op < 0xC0

/-- The common header (R148, R149). A reserved bit of it is not looked at (R10): check 1 names reserved bytes. -/
def headerOk (d : Desc) (priv : Bool) : Bool :=
  opKnown (dOp d) && (!dFlag d 1 || dFlag d 0) && dz d 3 1 && !(priv && dFlag d 4)

/-- The operand bytes that no field covers are zero (R113, R156). -/
def resOk (d : Desc) (fs : List (Nat × Nat)) : Bool :=
  (List.range 112).all fun i => (fs.any fun f => f.1 ≤ 16 + i && 16 + i < f.1 + f.2) || df d (16 + i) 1 = 0

/-- The operand fields of an object or queue command, by offset and width (R113, R156). -/
def cmdFields (op : Nat) : List (Nat × Nat) :=
  match op with
  | 0xC0 => [(16, 8), (24, 4), (28, 4)]
  | 0xC1 => [(16, 8), (24, 4), (32, 4)]
  | 0xC2 => [(16, 8), (24, 2), (28, 4), (32, 4), (40, 8)]
  | 0xC3 => [(16, 4), (24, 8), (32, 8)]
  | 0xC4 => [(16, 4), (20, 4), (24, 1), (32, 8)]
  | 0xC5 => [(16, 4), (20, 4), (24, 1), (28, 4)]
  | 0xC8 => [(16, 4), (20, 4), (24, 8)]
  | 0xC9 => [(16, 8)]
  | 0xCA => [(16, 4), (20, 4), (24, 8)]
  | 0xD0 => [(16, 4), (20, 4), (24, 4), (32, 8), (40, 8), (48, 8), (56, 8), (64, 1), (65, 1), (66, 1), (67, 1), (68, 1),
      (69, 1), (70, 1), (71, 1), (72, 2)]
  | _ => [(16, 4), (20, 4)]

/-- Check 1 of R150 of an object or queue command: its reserved bytes, and the ranges that the operand tables give. -/
def cmdShape (d : Desc) : Bool :=
  resOk d (cmdFields (dOp d)) &&
  match dOp d with
  | 0xC0 => 1 ≤ df d 24 4 && df d 24 4 ≤ 262144
  | 0xC1 => 1 ≤ df d 24 4 && df d 24 4 ≤ 262144
  | 0xC2 => 1 ≤ df d 24 2 && df d 24 2 ≤ 512
  | 0xC4 => df d 24 1 ≤ 64
  | 0xC5 => df d 24 1 ≤ 15
  | 0xD0 => 1 ≤ df d 16 4 && df d 16 4 ≤ 65535
  | _ => true

/-- The address operands of a data descriptor or REDUCE. -/
def dataAddrs (d : Desc) : List Nat :=
  match dOp d with
  | 1 => [16, 24]
  | 2 => [24]
  | 3 => 16 :: (List.range (min (df d 120 1) 8)).map fun k => 24 + 8 * k
  | _ => 16 :: (List.range (min (df d 31 1) 8)).map fun k => 40 + 8 * k

/-- The checks of a descriptor's operands, where its loop register takes the values 0 to `top`. Of an object or queue command they
are the reserved bytes and stated ranges (DEDUCED: what depends on the block's state is judged when the command executes, under its
own table: log entry 23). -/
def operandsOk (d : Desc) (priv : Bool) (top : Nat) : Bool :=
  let op := dOp d
  let ls := if top = 0 then [0] else [0, 1, top]
  let al (o : Nat) : Bool := (priv || addrOk d o top) && ls.all fun l => vaAdd (df d o 8) (termAt d l) % 8 = 0
  if isData op then
    let g := geoOf d 0
    dataShape d g && g.wellFormed && g.paramOk && g.small && ((dataAddrs d).all fun o => addrOk d o top) &&
      ls.all fun l => (geoOf d (termAt d l)).fits
  else if op = 0x40 || op = 0x41 then
    dz d 44 84 && (op = 0x40 || dz d 40 4) && al 16 && fenceOk d top
  else if op = 0x42 then
    df d 40 1 ≤ 3 && dz d 41 1 && dz d 44 84 && 1 ≤ dfs d 42 2 && al 16
  else if op = 0x43 then
    dfs d 16 2 ≤ -1 && dz d 19 1 && 1 ≤ df d 20 4 && df d 20 4 ≤ 16777216 && dz d 24 104
  else if op = 0x44 then
    let g := geoOf d 0
    g.op ≤ 11 && 1 ≤ df d 31 1 && df d 31 1 ≤ 8 && dz d 33 3 && dz d 104 24 && 1 ≤ df d 24 4 && df d 24 4 ≤ 16777216 &&
      df d 24 4 % convElems g.sf g.df = 0 && ((List.range 8).all fun k => k < df d 31 1 || dz d (40 + 8 * k) 8) &&
      g.wellFormed && ((dataAddrs d).all fun o => addrOk d o top) && ls.all fun l => (geoOf d (termAt d l)).fits
  else if op = 0x45 then
    1 ≤ df d 24 4 && df d 24 4 ≤ 262144 && dz d 29 99 && addrOk d 16 top &&
      ls.all fun l => vaAdd (df d 16 8) (termAt d l) % 4096 = 0
  else cmdShape d

/-- All checks of the descriptor at position `p` (R150). -/
def descOk (priv : Bool) (ds : List Desc) (p : Nat) (d : Desc) : Bool :=
  let ls := loopsOf ds
  let top := if dFlag d 4 then idxTop ls p (df d 2 1 % 4) else some 0
  headerOk d priv && (match top with
    | none => false
    | some t => operandsOk d priv t) &&
    (dOp d ≠ 0x43 || (ls.filter fun l => l.at_ = p).all (loopOk ls)) &&
    (dOp d ≠ 0x42 || branchOk ls ds.length p (p + df d 42 2))

/-- The first failing descriptor of a program (R150). -/
def progFail (priv : Bool) (ds : List Desc) : Option Nat :=
  match ((ds.zipIdx).find? fun e => !descOk priv ds e.2 e.1) with
  | some e => some (min e.2 1024)
  | none => if 1024 < ds.length then some 1024 else none

end Sys2Proof.Machine
end

