-- ==== Sys2Proof/Machine/Dma.lean ====
section
/-! DEFINITION. The DMA channels at work (R265 to R283): which channel takes a descriptor, how its pages are issued, what
its skiving unit makes of them (R284 to R306), its read-backs and its completion. -/

namespace Sys2Proof.Machine

/-! ### Home accesses -/

/-- Count bytes that a partition moves through a station (R450, R518): `dir` is 0 out of the block, 1 into it. -/
def State.moveBytes (s : State) (st p dir n : Nat) : State :=
  { s with tel := { s.tel with window := sMod 0 s.tel.window (shareKey st p) (· + n),
                               moved := sMod 0 s.tel.moved (shareKey st p * 2 + dir) (· + n) } }

/-- What an access gave: status, data, poison per byte, and whether it was a host-bound write dropped in ORPHAN. -/
structure Got where
  status : Nat
  data : Bytes := []
  pz : List Bool := []
  dropped : Bool := false

/-- What a store of bytes that overlap the rest of their descriptor's footprint leaves (R272): each of them the new value, or freely the
one that it held. -/
def State.blend (s : State) (m : Mem) (a : Access) (d : Bytes) : Bytes × State :=
  if !a.loose.any id then (d, s)
  else
    let old := m.read a.pa d.length
    let one (e : Byte × Nat) : Byte :=
      if (a.loose[e.2]?).getD false && (Config.free64 (s.freeSeq + e.2)).getLsbD 0 then (old[e.2]?).getD 0 else e.1
    (d.zipIdx.map one, { s with freeSeq := s.freeSeq + d.length })

/-- A host access ends as the surroundings decide (R309 to R323, R340): a read returns what the home holds, a write is
observed. Whether a write that timed out or lost its path landed is free (log entry 56). A write of a partition whose TDI is in ERROR is
dropped and counted (R354); DEDUCED: as one dropped in ORPHAN is (log entry 26). -/
def State.hostAccess (s : State) (a : Access) (r : Ack) : Got × State :=
  let part := (s.ctx a.ctx).part
  let s := s.sampleHost a
  match a.op with
  | .store d pz =>
    if s.inOrphan || s.tdi part = 3 then ({ status := 11, dropped := true }, s.dropWrite a.pm (lineCount a.pa d.length))
    else
      let (d, s) := s.blend s.host a d
      let done (s : State) : State := (s.hostWrite a.pm a.pa d pz false).moveBytes (80 + a.pm) part 0 d.length
      (match r with
      | .ok => ({ status := 0 }, done s)
      | .residue => ({ status := 0 }, done s)
      | .poisoned => ({ status := 7 }, done s)
      | .timeout =>
        let (k, s) := s.draw
        ({ status := 9 }, if (Config.free64 k).getLsbD 0 then done s else s)
      | .lost =>
        let (k, s) := s.draw
        ({ status := 11 }, if (Config.free64 k).getLsbD 0 then done s else s))
  | _ =>
    if s.inOrphan then ({ status := 11 }, s)
    else
      let s' := s.moveBytes (80 + a.pm) part 1 a.len
      (match r with
      | .timeout => ({ status := 9 }, s)
      | .lost => ({ status := 11 }, s)
      | .poisoned => ({ status := 7, data := s.host.read a.pa a.len, pz := List.replicate a.len true }, s')
      | _ =>
        let pz := s.host.flags a.pa a.len
        ({ status := if pz.any id then 7 else 0, data := s.host.read a.pa a.len, pz := pz }, s'))

/-- Bytes that an operation leaves unspecified, drawn as free values. -/
def State.freeBytes (s : State) (n : Nat) : Bytes × State :=
  ((List.range n).map fun i => BitVec.ofNat 8 ((Config.free64 (s.freeSeq + i)).toNat), { s with freeSeq := s.freeSeq + n })

/-! ### Channels -/

/-- The key of channel `ch` of station `st`. -/
def chanKey (st ch : Nat) : Nat := st * 2 ^ 20 + ch

/-- The station and channel of a key. -/
def chanOf (key : Nat) : Nat × Nat := (key / 2 ^ 20, key % 2 ^ 20)

/-- The descriptor on a channel. -/
def State.chan? (s : State) (key : Nat) : Option Chan := sFind s.dma.chans key

/-- Put a channel's record. -/
def State.setChan (s : State) (key : Nat) (c : Chan) : State :=
  { s with dma := { s.dma with chans := sIns s.dma.chans key c } }

/-- Whether the skiving unit of station `n` is live (R306, R308). -/
def State.skvLive (s : State) (n : Nat) : Bool :=
  s.bit (pageOf n + 0x2200) 0 && !s.bit (pageOf n + 0x2200) 1 && !s.rcv.scrubbing.contains (4, n)

/-- Whether partition `p` owns stirrup `n` (R446). -/
def State.ownsStirrup (s : State) (p n : Nat) : Bool := s.bit (partReg p (0x14 + n / 32 * 4)) (n % 32)

/-- Whether channel `ch` of station `st` qualifies for the data descriptors of queue `q` and holds none (R266, R279, R280,
R306, R440). -/
def State.chanOk (s : State) (q st ch : Nat) : Bool :=
  let r := s.que q
  st < 100 && ch < 16 && !r.priv && skirtOf st = r.skirt && s.live st &&
    s.bit (pageOf st + 0x2004) 0 && !s.bit (pageOf st + 0x2004) 1 && s.bit (pageOf st + 0x2008) ch &&
    !s.bit (pageOf st + 0x2014) ch && (80 ≤ st || s.ownsStirrup r.part st) && s.skvLive st &&
    (s.chan? (chanKey st ch)).isNone && !s.rcv.scrubbing.contains (3, chanKey st ch) &&
    !(s.roll.visiting.any fun v => v.1 = st) &&
    !(match s.rcv.reset with
      | some (sc, u, _) => (sc = 2 && u = st) || sc = 4 || (sc = 3 && u = r.part)
      | none => false)

/-- The geometry of the descriptor on a channel, with the loop registers of its start. -/
def Chan.geo (c : Chan) : Geo := geoOf c.desc c.unit0

/-- The run record of a sidecar slot that holds a page for an access of its kind (R199). -/
def SideSlot.runAt (v : SideSlot) (p : Nat) (wr : Bool) : Option StampRun :=
  v.runs.find? fun r => r.page ≤ p && p < r.page + r.len && (!wr || r.wr)

/-- Change a channel's record. -/
def State.modChan (s : State) (key : Nat) (f : Chan → Chan) : State :=
  match s.chan? key with
  | some c => s.setChan key (f c)
  | none => s

/-- Issue one piece: from the stamp while it is not STALE, else translated on demand (R199, R267). -/
def State.issuePiece (s : State) (key : Nat) (c : Chan) (p : Piece) (op : AccOp) (wr : Bool) : Nat × State :=
  let (st, ch) := chanOf key
  let a : Access := { id := 0, src := .chan st ch, station := st, ctx := c.ctx, gen := (s.ctx c.ctx).gen, va := p.va,
                      len := p.len, write := wr, op := op, loose := if wr then c.geo.loose p else [] }
  let run := if !c.stamped then none else match s.x.slots.find? fun e => some e.1 = c.side with
    | some e => if e.2.stale then none else e.2.runAt (vpage p.va) wr
    | none => none
  match run with
  | some r =>
    let (id, s) := s.addAcc { a with stamped := true }
    let e : Run := { loc := 100 + skirtOf st, ctx := c.ctx, base := r.page, len := r.len, frame := r.frame,
                     kind := if r.host then 1 else 2, wr := r.wr, ownSel := r.ownSel, fmt := r.fmt, n := r.n, mig := r.mig,
                     own := r.own }
    (id, s.take { a with id := id, stamped := true } e)
  | none => s.issue a

/-- Whether a page of a channel is held (R215, R253): the channel issues no further page until it is served. -/
def State.chanHeld (s : State) (key : Nat) : Bool :=
  s.acc.list.any fun a => a.src = .chan (chanOf key).1 (chanOf key).2 && (a.ph = .held || a.ph = .mig)

/-- Issue the next source piece of a channel. -/
def State.issueSrc (s : State) (key : Nat) (c : Chan) (p : Piece) : State :=
  let (id, s) := s.issuePiece key c p .load false
  s.modChan key fun c => { c with todo := c.todo.drop 1, fly := c.fly ++ [(id, p)] }

/-- Issue the next destination piece of a channel. -/
def State.issueDst (s : State) (key : Nat) (c : Chan) (o : Piece × Bytes × List Bool) : State :=
  let (id, s) := s.issuePiece key c o.1 (.store o.2.1 o.2.2) true
  s.modChan key fun c => { c with outs := c.outs.drop 1, wfly := c.wfly ++ [(id, o.1)], begun := true }

/-- A flag of the DMA registers of a station (R283). -/
def State.dmaFlag (s : State) (st b : Nat) : State := s.raise (pageOf st + 0x2018) b (pageOf st + 0x201C + 4 * b)

/-- A flag of the skiving registers of a station (R308). -/
def State.skvFlag (s : State) (st b : Nat) : State := s.raise (pageOf st + 0x2204) b (pageOf st + 0x2208 + 4 * b)

/-- Take a channel out of use: its record, its place in the verify-buffer queue, its accesses. Accesses that have left for
their homes stay, with their tag retired (R432); those of a matrix whose write had begun go on (R304). -/
def State.chanFree (s : State) (key : Nat) : State :=
  let (st, ch) := chanOf key
  let mine (a : Access) : Bool := a.src = .chan st ch && !a.must
  let acc := (s.acc.list.filter fun a => !(mine a && !(a.ph = .ready || a.ph = .commit))).map fun a =>
    if mine a then { a with retired := true } else a
  { s with dma := { s.dma with chans := sDel s.dma.chans key, vwait := s.dma.vwait.filter (· ≠ key) },
           acc := { s.acc with list := acc } }

/-- The descriptor on a channel completes (R275 to R278). -/
def State.chanDone (s : State) (key : Nat) (c : Chan) (f : Failed) (errOff : Nat) : State :=
  let (st, ch) := chanOf key
  let s := if 16 ≤ ch then s else
    let s := if f.status = 0 then s.inc (pageOf st + 0x2038) else s.inc (pageOf st + 0x203C)
    if f.status = 7 then s.dmaFlag st 2 else s
  let stale := c.staleSeen || (s.x.slots.any fun e => some e.1 = c.side && e.2.stale)
  (s.chanFree key).descDone c.queue c.ri c.desc
    { status := f.status, station := if 16 ≤ ch then s.queStation c.queue else st, channel := if 16 ≤ ch then 0xFF else ch,
      result := c.acked, errOff := errOff, detail := f.operand + f.detail * 2 ^ 16, stamped := c.stamped,
      stale := stale, halt := c.dropped }

/-- The failure that a descriptor reports: the one with the lowest destination offset (R277). -/
def worst (l : List Failed) : Option Failed :=
  l.foldl (fun m f => match m with
    | none => some f
    | some (g : Failed) => if (f : Failed).off < g.off then some f else m) none

/-- Every read-back has returned: the descriptor completes with its status. -/
def State.chanFinish (s : State) (key : Nat) (c : Chan) : State :=
  match worst c.fails with
  | none => s.chanDone key c { status := 0, off := 0, operand := 15 } 0xFFFFFFFF
  | some f => s.chanDone key c f f.off

/-- Go on to the read-backs (R275), or finish where nothing was written. A node's read-back is an access of its own, which
travels over Ixcia. -/
def State.readBacks (s : State) (key : Nat) (c : Chan) : State :=
  if c.paths.isEmpty then s.chanFinish key c
  else
    let (st, ch) := chanOf key
    (c.paths.zipIdx).foldl (fun s e =>
      if e.1.kind ≠ 3 then s
      else match s.chan? key with
      | none => s
      | some c =>
        let (id, s) := s.addAcc { id := 0, src := .chan st ch, station := st, ctx := c.ctx, gen := (s.ctx c.ctx).gen,
                                  va := e.1.addr, len := 1, write := false, op := .touch, ph := .ready, kind := 3,
                                  pa := e.1.addr, node := e.1.id }
        s.setChan key { c with fly := c.fly ++ [(id, { k := 9, va := e.1.addr, len := 1, pos := e.2 })] })
      ((s.setChan key { c with stage := 3 }).timerSet .stall key st)

/-- The read-back of write path `i` ends with a status (R275); with the last one the descriptor completes. -/
def State.pathBack (s : State) (key : Nat) (c : Chan) (i status : Nat) : State :=
  match c.paths[i]? with
  | none => s
  | some p =>
    let s := if status = 9 then s.dmaFlag (chanOf key).1 1 else s
    let c := { c with paths := c.paths.set i { p with back := true },
                      fails := if status = 0 then c.fails
                        else c.fails ++ [{ status := status, off := p.off, operand := 8 }] }
    if c.paths.all (·.back) then s.chanFinish key c else s.setChan key c

/-! ### What the skiving unit makes of a unit -/

/-- The bytes of operand `k` of a unit in order of position, with their poison and which of them were not read. A byte that was not read
counts as a poisoned zero; nothing that depends on it is written (R277). -/
def Chan.operand (c : Chan) (k : Nat) (want : List Piece) : Bytes × List Bool × List Bool :=
  let one (p : Piece) : Bytes × List Bool × List Bool :=
    match c.got.find? fun e => e.1 = p with
    | some e => (e.2.1, e.2.2, List.replicate p.len false)
    | none => (List.replicate p.len 0, List.replicate p.len true, List.replicate p.len true)
  let ps := (want.filter fun p => p.k = k).map one
  (ps.flatMap fun p => p.1, ps.flatMap fun p => p.2.1, ps.flatMap fun p => p.2.2)

/-- The elements of operand bytes that were read whole (R307). -/
def Geo.elemsRead (g : Geo) (o : Bytes × List Bool × List Bool) : Nat :=
  if o.2.2.any id then ((decodeRow g.sf o.1 o.2.2).filter fun e => !e.2).length
  else o.1.length / unitBytes g.sf * unitElems g.sf

/-- The lowest offset in a destination row that depends on byte `p` of a source row. -/
def Geo.depOff (g : Geo) (p : Nat) : Nat :=
  if g.sf = g.df && g.op = 0 || g.op = 6 then p
  else
    let n := g.len0 / unitBytes g.sf
    let eb := 4 * elemBits g.sf
    let el := if isBlock g.sf then (if p < n * eb then p * 8 / elemBits g.sf else (p - n * eb) * 32)
      else if g.sf = 7 then 2 * p else p / unitBytes g.sf
    if isBlock g.df then el / 32 * (4 * elemBits g.df)
    else if g.df = 7 then el / 2 else el * unitBytes g.df

/-- The lowest offset in a destination row that depends on some of the `n` bytes from byte `p` of a source row. The element bytes of a
block-scaled row and its scale bytes each rise, so the first of either decides. -/
def Geo.depLow (g : Geo) (p n : Nat) : Nat :=
  let e := g.len0 / unitBytes g.sf * (4 * elemBits g.sf)
  if isBlock g.sf && p < e && e < p + n then min (g.depOff p) (g.depOff e) else g.depOff p

/-- The lowest destination offset that depends on a source piece. -/
def Geo.srcOff (g : Geo) (p : Piece) : Nat :=
  let u := g.unitOff p.u
  if g.op = 5 then u
  else if g.op = 4 then u + p.pos / g.srow * g.wid + g.depLow (p.pos % g.srow) p.len
  else if p.k = 8 then u + p.pos
  else u + g.depLow p.pos p.len

/-- Count what conversions did in the unit of station `st` (R290, R307, R308): each saturation and each NaN sets its flag. -/
def State.skvCount (s : State) (st : Nat) (rows : List RowOut) (ops : Nat) : State :=
  let sats := rows.foldl (fun n r => n + r.sats) 0
  let nans := rows.foldl (fun n r => n + r.nans) 0
  let s := s.inc64sat (pageOf st + 0x2220) ops
  let s := if sats = 0 then s else s.inc (pageOf st + 0x2234) sats
  (s.raiseN (pageOf st + 0x2204) 3 (pageOf st + 0x2214) sats).raiseN (pageOf st + 0x2204) 4 (pageOf st + 0x2218) nans

/-- How a descriptor rounds. -/
def Geo.rnd (g : Geo) : Rnd := if g.round = 1 then some (BitVec.ofNat 32 g.seed) else none

/-- The rows of bytes of a matrix, cut from what was read: `n` bytes each. -/
def cutRows (b : Bytes) (z : List Bool) (n rows : Nat) : List (Bytes × List Bool) :=
  (List.range rows).map fun i => ((b.drop (i * n)).take n, (z.drop (i * n)).take n)

/-- CKSUM_VERIFY decides a matrix (R300 to R303): the rows to write and the failure, if any. -/
def State.verifyMatrix (s : State) (st q u : Nat) (g : Geo) (b : Bytes) (z : List Bool) :
    List RowOut × Option Failed × State :=
  let (k, s) := s.draw
  let rows := cutRows b z g.srow g.c1
  let data := rows.map fun r => (r.1.take g.len0, r.2.take g.len0)
  let conv (pz : List Bool → List Bool) : List RowOut := (data.zipIdx).map fun e =>
    skvMove g.sf g.df g.rnd (g.unitOff u + e.2 * g.wid) e.1.1 (pz e.1.2)
  if z.any id then
    -- a poisoned source line: every destination line of the matrix is marked, no check is evaluated
    (conv (fun l => l.map fun _ => true), some { status := 7, off := g.unitOff u, operand := 0 }, s)
  else
    let f32At (l : Bytes) (i : Nat) : Num := fp32.decode (fieldAt l (4 * i) 4)
    let els := data.map fun r => decodeRow g.sf r.1 r.2
    let rck := rows.map fun r => f32At (r.1.drop g.len0) 0
    let cb := b.drop (g.c1 * g.srow)
    let crow := (List.range (g.cols + 1)).map (f32At cb)
    let s := s.inc (pageOf st + 0x2228)
    match ckFirst g.mode g.tol g.sf (k * 2 ^ 32) els rck crow with
    | none => (conv id, none, s)
    | some code =>
      if s.bit 0x0C 4 then
        let s := ((s.inc (pageOf st + 0x222C)).skvFlag st 0).wr (pageOf st + 0x223C) (BitVec.ofNat 32 (q + code * 2 ^ 16))
        (conv (fun l => l.map fun _ => true), some { status := 6, off := g.unitOff u, operand := 0, detail := code }, s)
      else (conv id, none, (s.inc (pageOf st + 0x2230)).skvFlag st 1)

/-- The rows that unit `u` gives, with the failure that it found, if any. -/
def State.unitRows (s : State) (st : Nat) (c : Chan) (u : Nat) : List RowOut × Option Failed × State :=
  let g := c.geo
  let want := g.reads u
  let off := g.unitOff u
  let a := c.operand 0 want
  if g.op = 6 then
    ([{ bytes := (List.range g.dlen).map fun j => BitVec.ofNat 8 (g.pat / 256 ^ (j % 8)), pz := List.replicate g.dlen false }],
      none, s)
  else if g.op = 0 then
    let r := skvMove g.sf g.df g.rnd off a.1 a.2.1
    ([r], none, if g.sf = g.df then s else s.skvCount st [r] (g.elemsRead a))
  else if g.op ≤ 3 then
    let d := c.operand 8 want
    let r := skvAccum (g.op - 1) g.sf g.df g.rnd off a.1 a.2.1 d.1 d.2.1
    ([r], none, s.skvCount st [r] (g.elemsRead a))
  else if g.op = 4 then
    let (k, s) := s.draw
    let rs := skvAppend g.mode g.sf g.df g.rnd off g.wid (k * 2 ^ 32) (cutRows a.1 a.2.1 g.len0 g.c1)
    (rs, none, s.skvCount st rs (g.elemsRead a))
  else if g.op = 5 then
    if c.stop.isSome then ([], none, s)
    else
      let (rs, f, s) := s.verifyMatrix st c.queue u g a.1 a.2.1
      (rs, f, s.skvCount st rs (g.elemsRead (a.1.take (g.c1 * g.len0), [], [])))
  else
    let (k, s) := s.draw
    let os := (List.range g.srcs.length).map fun i => c.operand i want
    let r := skvReduce (g.op - 8) g.sf g.df g.rnd off (k * 2 ^ 32) (os.map fun o => (o.1, o.2.1))
    ([r], none, s.skvCount st [r] (os.foldl (fun n o => n + g.elemsRead o) 0))

/-- The first poisoned destination byte of a unit's output. -/
def firstPoison (outs : List (Piece × Bytes × List Bool)) : Option Nat :=
  outs.findSome? fun o => (o.2.2.zipIdx).findSome? fun e => if e.1 then some (o.1.pos + e.2) else none

/-- Keep what lies below a destination offset. -/
def below (lim : Nat) (o : Piece × Bytes × List Bool) : Option (Piece × Bytes × List Bool) :=
  if o.1.pos + o.1.len ≤ lim then some o
  else if lim ≤ o.1.pos then none
  else some ({ o.1 with len := lim - o.1.pos }, o.2.1.take (lim - o.1.pos), o.2.2.take (lim - o.1.pos))

/-- What stays to be written below the failing offset of a descriptor, if it has one (R277). -/
def Chan.cut (c : Chan) (l : List (Piece × Bytes × List Bool)) : List (Piece × Bytes × List Bool) :=
  match c.stop with
  | some lim => l.filterMap (below lim)
  | none => l

/-- Whether the sources of unit `u` are read, as far as they still are to be. -/
def Chan.whole (c : Chan) (u : Nat) : Bool := c.todo.all (·.u ≠ u) && c.fly.all (·.2.u ≠ u)

/-- The sources of unit `u` are read: the unit computes, and its writes wait to be issued. After a failure only what lies below the
failing offset is written (R277). -/
def State.unitCompute (s : State) (key : Nat) (c : Chan) (u : Nat) : State :=
  let g := c.geo
  let (rows, f, s) := s.unitRows (chanOf key).1 c u
  let outs := c.cut (g.writes u rows)
  let pf : List Failed := if g.op = 5 then [] else match firstPoison outs with
    | some o =>
      let k := match c.got.find? fun e => e.1.u = u && e.2.2.any id with
        | some e => e.1.k
        | none => 0
      [{ status := 7, off := o, operand := k }]
    | none => []
  s.setChan key { c with outs := c.outs ++ outs, got := c.got.filter (·.1.u ≠ u), fails := c.fails ++ f.toList ++ pf,
                         begun := false }

/-- A failure at a destination offset: nothing from there on issues any more (R277). -/
def Chan.fail (c : Chan) (status off operand : Nat) : Chan :=
  let g := c.geo
  let lim := match c.stop with
    | some l => min l off
    | none => off
  let c := { c with stop := some lim, fails := c.fails ++ [({ status := status, off := off, operand := operand } : Failed)],
                    todo := c.todo.filter fun t => g.srcOff t < lim }
  { c with outs := c.cut c.outs }

/-- The units of which something has been read. -/
def Chan.pulled (c : Chan) : List Nat := (c.got.map (·.1.u)).eraseDups

/-- Whether units that have not begun are still to come. -/
def Chan.more (c : Chan) : Bool := c.stop.isNone && c.unit < c.geo.units

/-- Begin the next unit of a channel: its source pieces wait to be issued; FILL, which reads nothing, computes at once. -/
def State.unitBegin (s : State) (key : Nat) (c : Chan) : State :=
  let l := c.geo.reads c.unit
  let d := { c with unit := c.unit + 1, todo := c.todo ++ l }
  if l.isEmpty then s.unitCompute key d c.unit else s.setChan key d

/-- Nothing of a channel is in flight or waits to be issued: the next matrix to verify waits for a verify-buffer slot (R305), or the
read-backs go out. -/
def State.unitsEnd (s : State) (key : Nat) (c : Chan) : State :=
  let c := { c with vbuf := false }
  if c.geo.op = 5 && c.more then
    let s := s.setChan key { c with stage := 0 }
    { s with dma := { s.dma with vwait := s.dma.vwait ++ [key] } }
  else s.readBacks key c

/-- A channel issues what the bound on pages in flight lets it (R267), in loop order: writes that are ready, source pages, and with
nothing else to do the next unit. The fuel bounds the steps. -/
def State.chanGo (s : State) (key lim : Nat) : Nat → State
  | 0 => s
  | n + 1 =>
    match s.chan? key with
    | none => s
    | some c =>
      if c.stage ≠ 1 || s.chanHeld key then s
      else match c.outs, c.todo with
      | o :: _, p :: _ =>
        if c.wfly.length < lim then (s.issueDst key c o).chanGo key lim n
        else if c.fly.length < lim then (s.issueSrc key c p).chanGo key lim n
        else s
      | o :: _, [] => if c.wfly.length < lim then (s.issueDst key c o).chanGo key lim n else s
      | [], p :: _ => if c.fly.length < lim then (s.issueSrc key c p).chanGo key lim n else s
      | [], [] =>
        if c.geo.op ≠ 5 && c.more && c.fly.length < lim then (s.unitBegin key c).chanGo key lim n
        else if c.fly.isEmpty && c.wfly.isEmpty then s.unitsEnd key c
        else s

/-- The pages in flight that a channel of station `st` may keep each way (R283). -/
def State.pagesLimit (s : State) (st : Nat) : Nat := s.fld (pageOf st + 0x200C) 0 6

/-- A channel goes on. -/
def State.chanIssue (s : State) (key : Nat) : State := s.chanGo key (s.pagesLimit (chanOf key).1) 256

/-- Note a byte written on a write path (R275): the path's last byte in loop order. -/
def notePath (ps : List WPath) (p : WPath) : List WPath :=
  match ps.find? fun o => o.kind = p.kind && o.id = p.id with
  | some o => if o.off ≤ p.off then ps.map fun x => if x = o then p else x else ps
  | none => ps ++ [p]

/-- The write path of an access that wrote the piece `p`. -/
def State.pathOf (s : State) (a : Access) (p : Piece) : WPath :=
  { kind := a.kind,
    id := if a.kind = 2 then s.guardOf (a.pa / 4096) else if a.kind = 1 then a.pm * 4 + s.streamOf a.pa false else a.node,
    addr := a.pa + p.len - 1, off := p.pos + p.len - 1, expect := a.expect }

/-- A residue mismatch in the unit of station `st` (R306): flag, count, record; three within 1,000,000 ticks make the unit
LAME. -/
def State.residueHit (s : State) (st q : Nat) : State :=
  let s := ((s.skvFlag st 2).inc (pageOf st + 0x2238)).err { cls := 2, code := 0x0202, station := st, status := 7, detail := q }
  let l := (st, s.tk st) :: s.dma.residue.filter fun e => s.tk e.1 - e.2 ≤ 1000000
  let s := { s with dma := { s.dma with residue := l } }
  if 3 ≤ (l.filter fun e => e.1 = st).length && !s.bit (pageOf st + 0x2200) 1 then
    ((s.setBit (pageOf st + 0x2200) 0 false).setBit (pageOf st + 0x2200) 1 true).unitLame st 4 0 [st]
  else s

/-- The units whose sources a channel now has whole compute. -/
def State.unitsReady (s : State) (key : Nat) (us : List Nat) : State :=
  us.foldl (fun s u => match s.chan? key with
    | some c => if c.whole u then s.unitCompute key c u else s
    | none => s) s

/-- The answer to a source piece of a channel. -/
def State.srcGot (s : State) (key : Nat) (c : Chan) (p : Piece) (x : Got) (residue : Bool) : State :=
  let (st, ch) := chanOf key
  if x.status = 0 || x.status = 7 then
    -- a page behind a leaf with P = 1 gives no data: what is moved is unspecified, and poisoned (R164)
    let read := x.data.length = p.len
    let (d, s) := if read then (x.data, s) else s.freeBytes p.len
    let z := if read && !residue then x.pz else List.replicate p.len true
    let s := if read && p.k < 8 && ch < 16 then s.inc64sat (pageOf st + 0x2028) p.len else s
    let s := if residue then s.residueHit st c.queue else s
    ((s.setChan key { c with got := c.got ++ [(p, d, z)] }).unitsReady key [p.u]).chanIssue key
  else
    -- only what the destination below the failing offset depends on is still read
    let d := c.fail x.status (c.geo.srcOff p) p.k
    ((s.setChan key d).unitsReady key d.pulled).chanIssue key

/-- The acknowledgement of a destination piece of a channel. -/
def State.dstGot (s : State) (key : Nat) (c : Chan) (p : Piece) (a : Access) (x : Got) : State :=
  let (st, ch) := chanOf key
  let c := if x.dropped then { c with dropped := true } else c
  let (c, s) :=
    if x.status = 0 then
      ({ c with acked := c.acked + p.len, paths := notePath c.paths (s.pathOf a p) },
        if ch < 16 then s.inc64sat (pageOf st + 0x2030) p.len else s)
    else if x.status = 7 then
      ({ c with acked := c.acked + p.len, fails := c.fails ++ [{ status := 7, off := p.pos, operand := 8 }] }, s)
    else (c.fail x.status p.pos 8, s)
  ((s.setChan key c).unitsReady key c.pulled).chanIssue key

/-- An access of a channel has ended: its piece is taken off the channel and answered. -/
def State.chanGot (s : State) (a : Access) (x : Got) (residue : Bool) : State :=
  let s := s.dropAcc a.id
  match a.src with
  | .chan st ch =>
    let key := chanKey st ch
    (match s.chan? key with
    | none => s
    | some c =>
      match c.wfly.find? fun e => e.1 = a.id, c.fly.find? fun e => e.1 = a.id with
      | some e, _ => s.dstGot key { c with wfly := c.wfly.filter fun f => f.1 ≠ a.id } e.2 a x
      | none, some e =>
        let c := { c with fly := c.fly.filter fun f => f.1 ≠ a.id }
        if c.stage = 3 then s.pathBack key c e.2.pos x.status else s.srcGot key c e.2 x residue
      | none, none => s)
  | _ => s

/-- The context and start of a descriptor on a channel. -/
def State.chanStart (s : State) (key q : Nat) (ri : W32) (d : Desc) (term : Nat) : State :=
  let side := s.slotFor q ri
  let ready : Bool := match side with
    | some e => e.2.state = 2
    | none => false
  -- the guard of the slot may refuse its read (log entry 48)
  let (g, s) := match side with
    | some e => if ready then s.sidecarCheck e.1 else (0, s)
    | none => (0, s)
  let stamped := ready && g = 0 && (match side with
    | some e => !e.2.stale
    | none => false)
  let staleSeen := ready && (match side with
    | some e => e.2.stale
    | none => false)
  let s := match side with
    | some e => if ready then { s with x := { s.x with slots := sPut {} s.x.slots e.1 { e.2 with state := 3 } } }
      else if e.2.state = 3 then s else s.freeSlot e.1
    | none => s
  let c : Chan := { queue := q, ri := ri, desc := d, ctx := (s.que q).ctx, unit0 := term,
                    side := if ready then side.map Prod.fst else none, stamped := stamped, staleSeen := staleSeen }
  if c.geo.op = 5 then s.unitsEnd key c else (s.setChan key c).chanIssue key

/-- The write of the matrix in a channel's verify buffer has begun: it is finished, with its marks, whatever becomes of the channel
(R304). -/
def State.matrixOut (s : State) (key : Nat) : State :=
  match s.chan? key with
  | none => s
  | some c =>
    if c.geo.op ≠ 5 || !c.begun then s
    else
      let s := c.outs.foldl (fun s o => (s.issuePiece key c o.1 (.store o.2.1 o.2.2) true).2) s
      let (st, ch) := chanOf key
      let mark (a : Access) : Access := if a.src = .chan st ch && a.write then { a with must := true } else a
      { s with acc := { s.acc with list := s.acc.list.map mark } }

/-- Whether stores of such a matrix have not ended; the channel is not scrubbed before (R304). -/
def State.matrixLeft (s : State) (key : Nat) : Bool :=
  let (st, ch) := chanOf key
  s.acc.list.any fun a => a.must && a.src = .chan st ch

/-- A channel whose descriptor ends with no page to name (R277, R280, R431). -/
def State.chanBreak (s : State) (key status : Nat) : State :=
  match s.chan? key with
  | none => s
  | some c => s.chanDone key c { status := status, off := 0, operand := 15 } 0

end Sys2Proof.Machine
end

