-- ==== Sys2Proof/Machine/Jobs.lean ====
section
/-! DEFINITION. The scheduler (R108, R145, R146), and control descriptors on the pommels (R151 to R155): WAIT, SIGNAL, BRANCH, LOOP,
STAMP, with the fence operations at their homes (R120, R121). -/

namespace Sys2Proof.Machine

/-! ### The context record cache (R108) -/

/-- The context whose record an object or queue command uses (R113, R156). -/
def cmdCtx (d : Desc) : Option Nat :=
  match dOp d with
  | 0xC2 => some (df d 28 4)
  | 0xC3 | 0xC4 | 0xC5 | 0xC6 | 0xC7 | 0xC8 | 0xCA => some (df d 16 4)
  | 0xD0 => if (df d 70 1).testBit 0 then none else some (df d 20 4)
  | _ => none

/-- Whether a request in flight uses the record of context `c`: an access, a walk, an object command. -/
def State.ctxBusy (s : State) (c : Nat) : Bool :=
  s.acc.list.any (fun a => a.ctx = c && a.ph ≠ .ctxWait && a.ph ≠ .done) || (s.x.walks.any fun w => w.ctx = c) ||
    s.qs.jobs.any fun j => cmdCtx j.desc = some c

/-- The resident records of the home of context `c`. -/
def State.homeRecs (s : State) (c : Nat) : List Nat := s.cs.resident.filter fun x => x % 4 = c % 4

/-- The record that gives way in the home of context `c`: the least recently used one that is neither pinned nor in use. -/
def State.ctxVictim (s : State) (c : Nat) : Option Nat :=
  (s.homeRecs c).reverse.find? fun x => !(s.ctx x).pinned && !s.ctxBusy x

/-- Whether the record of context `c` is resident or could be loaded now. -/
def State.ctxRoom (s : State) (c : Nat) : Bool :=
  s.ctxResident c || (s.homeRecs c).length < 1024 || (s.ctxVictim c).isSome

/-- The owner word of the context table (R114). -/
def ctxTableWord : W32 := ownerWord 0 3 1

/-- The frame that holds the record of context `c` (R106). -/
def State.ctxFrame (s : State) (c : Nat) : Nat := (s.odNum 0x2000 0x20 + c * 256) / 4096

/-- The guard's check of a load or write-back of the record of context `c` (R175). -/
def State.ctxCheck (s : State) (c : Nat) : Nat × State :=
  s.guardCheck (s.ctxFrame c) ctxTableWord { ctx := none, station := 80 + s.homeOf c }

/-- Load the record of context `c` (R108); the victim, if any, is written back first. The status is that of the guard that refuses
the load or the write-back (R174, R175); none where no entry can be freed, and the request waits. -/
def State.loadCtx (s : State) (c : Nat) : Option Nat × State :=
  if s.ctxResident c then (some 0, s.ctxTouch c)
  else
    let put (s : State) : Option Nat × State :=
      let (g, s) := s.ctxCheck c
      if g ≠ 0 then (some g, s)
      else (some 0, ({ s with cs := { s.cs with resident := c :: s.cs.resident } } : State).odSet 0x2000 0x23
        (satAdd 64 (s.odNum 0x2000 0x23) 1))
    if (s.homeRecs c).length < 1024 then put s
    else match s.ctxVictim c with
    | none => (none, s)
    | some v =>
      let (g, s) := s.ctxCheck v
      if g ≠ 0 then (some g, s) else put { s with cs := { s.cs with resident := s.cs.resident.filter (· ≠ v) } }

/-! ### Which queue starts a descriptor (R145, R146) -/

/-- Whether some channel takes the data descriptors of queue `q` now. -/
def State.hasChan (s : State) (q : Nat) : Bool :=
  (List.range 100).any fun st => skirtOf st = (s.que q).skirt && (List.range 16).any (s.chanOk q st)

/-- Whether channel `ch` of station `st` is one that a data descriptor of queue `q` goes to (R145). A channel that takes one holds
none, so every such channel is least loaded; one of STATION_HINT's station comes first. -/
def State.chanFor (s : State) (q st ch : Nat) : Bool :=
  s.chanOk q st ch && (st = (s.que q).hint || !(List.range 16).any (s.chanOk q (s.que q).hint))

/-- Whether queue `q` can start the descriptor at its NEXT, leaving priorities and shares aside: a data descriptor needs a channel
(R145), a command the record of the context that it names (R108). -/
def State.canStart (s : State) (q : Nat) : Bool :=
  s.inOrder q && match (s.que q).atNext with
  | none => false
  | some d => if (s.que q).priv then (cmdCtx d).all fun c => !s.ctxInTable c || s.ctxRoom c else !isData (dOp d) || s.hasChan q

/-- The queues of skirt `k` that can start a descriptor and that share and priority put first (R145). -/
def State.served (s : State) (k : Nat) : List Nat :=
  let l := (s.skirtResident k).filter s.canStart
  let l := if l.any s.queShare then l.filter s.queShare else l
  let top := l.foldl (fun m q => max m (s.que q).prio) 0
  l.filter fun q => (s.que q).prio = top

/-- What a start costs its queue in the round robin (R145): the bytes that a data descriptor moves, 128 for a control
descriptor. -/
def startCost (d : Desc) : Nat := if isData (dOp d) then (geoOf d 0).dstTotal else 128

/-- The key of the round robin of skirt `k` at a priority. -/
def turnKey (k prio : Nat) : Nat := 8 * k + prio

/-- What queue `q` would pay to start now. -/
def State.costOf (s : State) (q : Nat) : Nat := (s.que q).atNext.elim 0 startCost

/-- How far queue `q` is from the turn of the deficit round robin (R145): the passes over the queues that come before it can pay,
times 65,536, and its place in a pass. The queue that has the turn keeps it while it can pay. DESIGN CHOICE: a pass goes by queue
number (log entry 47). -/
def State.turnAt (s : State) (q : Nat) : Nat :=
  let r := s.que q
  let have_ := sGet 0 s.qs.deficit q
  let t := sGet 0 s.qs.turn (turnKey r.skirt r.prio)
  let cost := s.costOf q
  if t = q + 1 && cost ≤ have_ then 0
  else max 1 ((cost - have_ + r.weight * 65536 - 1) / (r.weight * 65536)) * 65536 + (q + 65536 - t) % 65536

/-- Whether the scheduler starts the descriptor of queue `q` next (R145). -/
def State.mayStart (s : State) (q : Nat) : Bool :=
  let l := s.served (s.que q).skirt
  l.contains q && l.all fun x => s.turnAt q ≤ s.turnAt x

/-- Queue `q` pays for its start (R145): the queues whose turn passed on the way gain their quantum, WEIGHT × 64 KiB, for each time;
`q` has the turn. DESIGN CHOICE: a queue with nothing left below TAIL_SEEN keeps no deficit (log entry 47). -/
def State.payStart (s : State) (q : Nat) : State :=
  let r := s.que q
  let at_ := s.turnAt q
  let gain (m : Smap Nat) (x n : Nat) : Smap Nat := sMod 0 m x (· + n * (s.que x).weight * 65536)
  let m := (s.served r.skirt).foldl (fun m x =>
    let n := at_ / 65536
    gain m x (if x = q || s.turnAt x % 65536 < at_ % 65536 then n else n - 1)) s.qs.deficit
  { s with qs := { s.qs with
      deficit := if r.next + 1 = r.tailSeen then sDel m q else sMod 0 m q (· - s.costOf q),
      turn := sPut 0 s.qs.turn (turnKey r.skirt r.prio) (q + 1) } }

/-- Queue `q` starts the descriptor `d` at its NEXT, if it may: its ring index, and the state with NEXT moved on. The next program
may start as soon as NEXT has passed the END of this one (R146). A descriptor that is not the one at NEXT starts nothing. -/
def State.start (s : State) (q : Nat) (d : Desc) : Option (W32 × State) :=
  let r := s.que q
  if !s.mayStart q || r.atNext ≠ some d then none
  else
    let t := { r with next := r.next + 1, fly := r.fly ++ [r.next], reserved := r.reserved + b2n (needsSlot d) }
    let t := if dOp d = 0x40 || dOp d = 0x42 || dOp d = 0x43 then t else t.endProgram
    some (r.next, (((s.payStart q).setQue q t).queTouch q).trace 1 (s.queStation q) q r.next.toNat)

/-! ### Fence words at their homes (R120, R314) -/

/-- What a fence operation does to word `w`: the new word, and 1 late, 2 refused. -/
def fenceApply (op : AccOp) (w : Nat) : Nat × Nat :=
  match op with
  | .signal v => fenceSignal w v
  | .abandon => (Nat.lor w (2 ^ 63), 0)
  | _ => (w, 0)

/-- What a fence operation gave: status, the word before it, and 1 late, 2 refused. -/
structure FenceGot where
  status : Nat
  word : Nat := 0
  outcome : Nat := 0

/-- A fence operation, or the atomic read of a word, on host memory (R120, R311, R314): at the pommel, on stream 1. -/
def State.fenceHost (s : State) (skirt a : Nat) (op : AccOp) : FenceGot × State :=
  if hostRange a 8 then ({ status := 5 }, s)
  else match s.route skirt (s.homeDie a) with
  | none => ({ status := 11 }, s)
  | some k =>
    if s.inOrphan then ({ status := 11 }, s)
    else if s.host.poisoned a 8 then ({ status := 7 }, s)
    else
      let w := s.host.num a 8
      let (v, o) := fenceApply op w
      let s := if v = w then s
        else s.hostWrite k a (leBytes 8 v) (List.replicate 8 false) true
      ({ status := 0, word := w, outcome := o }, s)

/-- A fence operation, or the atomic read of a word, on device memory, beside the guard (R120). -/
def State.fenceDev (s : State) (a : Nat) (op : AccOp) (expect : W32) (who : Asker) : FenceGot × State :=
  let (st, b, _, s) := s.devRead a 8 expect who
  if st ≠ 0 then ({ status := st }, s)
  else
    let w := leNat b
    let (v, o) := fenceApply op w
    let s := if v = w then s
      else ({ s with dev := s.dev.write a (leBytes 8 v) } : State).wakeDev a
    ({ status := 0, word := w, outcome := o }, s)

/-- The operation of an access at a home that it has reached. -/
def State.fenceAt (s : State) (skirt kind a : Nat) (op : AccOp) (expect : W32) (who : Asker) : FenceGot × State :=
  if kind = 2 then s.fenceDev a op expect who else s.fenceHost skirt a op

/-! ### Starting a descriptor -/

/-- The loop register that a descriptor names. -/
def State.loopReg (s : State) (q : Nat) (d : Desc) : Nat := ((s.que q).loops[df d 2 1 % 4]?).getD 0

/-- Queue `q` starts the descriptor `d` at its NEXT, if it may, and `f` runs it. A descriptor fetched with a poison mark
completes with POISON (R418); an opcode that the queue does not allow completes with DENIED (R149). -/
def State.begin (s : State) (q : Nat) (d : Desc) (f : W32 → State → State) : State :=
  match s.start q d with
  | none => s
  | some (ri, s) =>
    let r := s.que q
    if s.host.poisoned (s.ringAt q ri) 128 then s.descDone q ri d { status := 7, station := s.queStation q }
    else if !opAllowed r.priv (dOp d) then s.descDone q ri d { status := 4, station := s.queStation q }
    else f ri s

/-- Start a job's access in the queue's context. -/
def State.jobIssue (s : State) (j : CtlJob) (c va len : Nat) (write : Bool) (op : AccOp) : State :=
  let (id, s) := s.issue { id := 0, src := .job j.queue j.ri, station := s.queStation j.queue, ctx := c,
                           gen := (s.ctx c).gen, va := va, len := len, write := write, op := op }
  s.setJob { j with phase := 1, acc := id }

/-! ### WAIT (R151) -/

/-- Wait entries held in a skirt. -/
def State.waitUsed (s : State) (k : Nat) : Nat := (s.qs.jobs.filter fun j => j.entry && (s.que j.queue).skirt = k).length

/-- The value that a WAIT waits for. -/
def State.waitValue (s : State) (j : CtlJob) : Nat := fenceVal j.desc (s.loopReg j.queue j.desc)

/-- A WAIT that is not satisfied stays pending: it takes a wait entry, for a host fence with its line held, or polls where
none is free. -/
def State.waitPend (s : State) (j : CtlJob) (kind pa : Nat) : State :=
  let k := (s.que j.queue).skirt
  let pm := s.server k
  let free := j.entry || s.waitUsed k < 4096
  let s := (s.dropAcc j.acc).setJob { j with phase := 2, aux := pa, aux2 := kind + 4 * pm, entry := free, acc := 0 }
  if !free then (s.timerSet .poll j.queue (80 + pm)).raise (pmReg pm 0x400) 2 (pmReg pm 0x41C)
  else if kind = 1 then
    s.cwHold { pm := pm, line := pa / 64 * 64, use := .wait j.queue j.ri }
  else s

/-- A WAIT of a queue that has paused or is to stop meanwhile, while its access was held, is set back (R137). -/
def State.waitStay (s : State) (j : CtlJob) (kind pa : Nat) : State :=
  let r := s.que j.queue
  let t := s.waitPend j kind pa
  if r.pause ≠ 0 || r.stopping.isSome || r.stopQ0 then t.waitBack j.queue else t

/-- Evaluate a WAIT at its fence (R121). `last` is the final evaluation, after which it ends with TIMEOUT. -/
def State.waitLook (s : State) (j : CtlJob) (kind pa : Nat) (last : Bool) : State :=
  let r := s.que j.queue
  let who : Asker := { ctx := some r.ctx, station := s.queStation j.queue }
  let s := { s with cw := { s.cw with woken := s.cw.woken.filter fun e => e ≠ (j.queue, j.ri) } }
  let (g, s) := s.fenceAt r.skirt kind pa .read8 j.expect who
  if g.status ≠ 0 then s.jobDone j g.status 0 0 9
  else
    let e := waitEval g.word (s.waitValue j)
    if e = 255 then (if last then s.jobDone j 9 0 0 9 else s.waitStay j kind pa) else s.jobDone j e 0 0 (if e = 0 then 15 else 9)

/-! ### SIGNAL -/

/-- Account a signal (R107, R120): a late one counts in its context; a refused one counts, with a record. -/
def State.signalled (s : State) (q : Nat) (va v outcome : Nat) : State :=
  let r := s.que q
  if outcome = 1 then (if r.priv then s else s.lateSignal r.ctx)
  else if outcome = 2 then (if r.priv then s else s.refusedSignal r.ctx).errQueue q 4 0x0401 (s.queStation q) 1 va v
  else s

/-- A SIGNAL reaches its fence: late or not, it completes with OK; a refused one with INVALID (R120). -/
def State.signalAt (s : State) (j : CtlJob) (kind pa va : Nat) (expect : W32) : State :=
  let r := s.que j.queue
  let (g, s) := s.fenceAt r.skirt kind pa (.signal j.aux) expect { ctx := some r.ctx, station := s.queStation j.queue }
  let s := if g.status = 0 then s.signalled j.queue va j.aux g.outcome else s
  if g.status ≠ 0 then s.jobDone j g.status 0 0 9
  else if g.outcome = 2 then s.jobDone j 1 0 0 9 else s.jobDone j 0 0 0

/-! ### BRANCH (R152) -/

/-- Whether the comparison of a BRANCH holds. -/
def branchHolds (d : Desc) (w : Nat) : Bool :=
  let x := Nat.land w (df d 32 8)
  let o := df d 24 8
  match df d 40 1 with
  | 0 => x = o | 1 => x ≠ o | 2 => o ≤ x | _ => x < o

/-- The word of a BRANCH is read: execution continues at the target or after it; the registers of the loops left are zero. -/
def State.branchGot (s : State) (j : CtlJob) (w : Nat) : State :=
  let r := s.que j.queue
  let take := branchHolds j.desc w
  if !take then s.jobDone j 0 0 0
  else
    let p := wdiff j.ri r.progStart
    let t := p + df j.desc 42 2
    let left := (loopsOf r.prog).filter fun l => l.has p && !l.has t
    let loops := (r.loops.zipIdx).map fun e => if left.any fun l => l.reg = e.2 then 0 else e.1
    (s.setQue j.queue { r with next := r.progStart + BitVec.ofNat 32 t, loops := loops }).jobDone j 0 0 1

/-- A BRANCH that cannot read its word halts its queue. -/
def State.branchFail (s : State) (j : CtlJob) (status : Nat) : State :=
  (s.dropJob j.queue j.ri).descDone j.queue j.ri j.desc
    { status := status, station := s.queStation j.queue, detail := 9, halt := true }

/-! ### LOOP (R153) -/

/-- A LOOP at ring index `ri`: another pass, or on. -/
def State.loopRun (s : State) (q : Nat) (ri : W32) (d : Desc) : State :=
  let r := s.que q
  let k := df d 18 1 % 4
  let l := (r.loops[k]?).getD 0
  let again := l + 1 < df d 20 4
  let v := if again then l + 1 else 0
  let next := if again then ri + BitVec.ofNat 32 (df d 16 2) - 0x10000#32 else ri + 1
  (s.setQue q { r with loops := r.loops.set k v, next := next }).descDone q ri d
    { status := 0, station := s.queStation q, result := v }

/-! ### STAMP (R155) -/

/-- STAMP goes on from page `j.aux`: each page is translated in turn; a page that must wait stops it. The fuel is the number
of pages. -/
def State.stampGo (s : State) (j : CtlJob) : Nat → State
  | 0 => s.jobDone j 0 0 j.aux
  | n + 1 =>
    if df j.desc 24 4 ≤ j.aux then s.jobDone j 0 0 j.aux
    else
      let va := vaAdd j.aux2 (j.aux * 4096)
      let s := s.jobIssue j (s.que j.queue).ctx va 1 (df j.desc 28 1 % 2 = 1) .touch
      match s.job? j.queue j.ri with
      | none => s
      | some k =>
        match s.acc? k.acc with
        | some a => if a.ph = .ready then (s.dropAcc a.id).stampGo { k with aux := k.aux + 1, acc := 0 } n else s
        | none => s

/-- A page of STAMP has been translated, or has failed. -/
def State.stampNext (s : State) (j : CtlJob) (a : Access) : State :=
  let s := s.dropAcc a.id
  if a.ph = .done && a.status ≠ 0 then s.jobDone j a.status 0 j.aux 15
  else s.stampGo { j with aux := j.aux + 1, acc := 0 } (df j.desc 24 4 + 1)

/-! ### A job's access has been translated or has ended -/

/-- A WAIT, SIGNAL, BRANCH or STAMP whose access is ready or done goes on. A fence or word at a remote node waits for the
node (R379); a WAIT cannot (log entry 24). -/
def State.jobReady (s : State) (j : CtlJob) (a : Access) : State :=
  let op := dOp j.desc
  if op = 0x45 then s.stampNext j a
  else if a.ph = .done then
    if a.status ≠ 0 then (if op = 0x42 then s.branchFail j a.status else s.jobDone j a.status 0 0 9)
    else if op = 0x42 then s.branchGot j (leNat a.data)
    else s.jobDone j 0 0 0
  else if a.kind = 3 then
    if op = 0x40 then (s.noPath a 0x0301 a.va).jobDone j 5 0 0 9 else s
  else if op = 0x40 then s.waitLook { j with expect := a.expect } a.kind a.pa false
  else if op = 0x41 then s.signalAt j a.kind a.pa a.va a.expect
  else
    let (g, s) := s.fenceAt (s.que j.queue).skirt a.kind a.pa .read8 a.expect a.who
    if g.status ≠ 0 then s.branchFail j g.status else s.branchGot j g.word

/-! ### Starts -/

/-- WAIT starts (R151): on a privileged queue FENCE_VA is host-physical (R149). -/
def State.waitStart (s : State) (q : Nat) (ri : W32) (d : Desc) : State :=
  let r := s.que q
  let l := s.loopReg q d
  let j : CtlJob := { queue := q, ri := ri, desc := d, since := s.tk (s.queStation q) }
  let va := vaAdd (df d 16 8) (termAt d l)
  if r.priv then ((s.setJob j).rangeErr q va 8).waitLook j 1 va false else s.jobIssue j r.ctx va 8 false .read8

/-- SIGNAL starts. -/
def State.signalStart (s : State) (q : Nat) (ri : W32) (d : Desc) : State :=
  let r := s.que q
  let l := s.loopReg q d
  let j : CtlJob := { queue := q, ri := ri, desc := d, since := s.tk (s.queStation q), aux := fenceVal d l }
  let va := vaAdd (df d 16 8) (termAt d l)
  if r.priv then ((s.setJob j).rangeErr q va 8).signalAt j 1 va va 0 else s.jobIssue j r.ctx va 8 true (.signal j.aux)

/-- BRANCH starts. -/
def State.branchStart (s : State) (q : Nat) (ri : W32) (d : Desc) : State :=
  let j : CtlJob := { queue := q, ri := ri, desc := d, since := s.tk (s.queStation q) }
  s.jobIssue j (s.que q).ctx (vaAdd (df d 16 8) (termAt d (s.loopReg q d))) 8 false .read8

/-- STAMP starts. -/
def State.stampStart (s : State) (q : Nat) (ri : W32) (d : Desc) : State :=
  let j : CtlJob := { queue := q, ri := ri, desc := d, since := s.tk (s.queStation q), aux := 0,
                      aux2 := vaAdd (df d 16 8) (termAt d (s.loopReg q d)) }
  (s.setJob j).stampGo j (df d 24 4 + 1)

end Sys2Proof.Machine
end

