-- ==== Sys2Proof/Machine/Objects.lean ====
section
/-! DEFINITION. Object commands (R106 to R134): frames and owner words, page-table writes, contexts, reference headers, the
context record cache. -/

namespace Sys2Proof.Machine

/-! ### Command operands -/

/-- A refusal of a command: status and state code. -/
abbrev Ref := Nat × Nat

/-- The first condition of a list that holds, with its status and state code. -/
def firstRef (l : List (Bool × Nat × Nat)) : Option Ref := (l.find? (·.1)).map (·.2)

/-- A command completes on the pommel of its queue. -/
def State.cmdDone (s : State) (q : Nat) (ri : W32) (d : Desc) (status : Nat) (state : Nat := 0) (result : Nat := 0) : State :=
  s.descDone q ri d { status := status, state := state, station := s.queStation q, result := result }

/-- Read host memory for a command of queue `q` (R113). -/
def State.cmdRead (s : State) (q a n : Nat) : Nat × Bytes × State :=
  let (st, b) := s.ctlRead (s.que q).skirt a n
  (st, b, s.rangeErr q a n)

/-- The record of a context that a command names is brought in (R108), unless the command is malformed, or names no record of the
table, INVALID; the guard of the record may refuse (R175). -/
def State.ctxOpen (s : State) (bad : Bool) (c : Nat) : Option Ref × State :=
  if bad || !s.ctxInTable c then (some (1, 0), s)
  else match s.loadCtx c with
  | (some 0, s) => (none, s)
  | (some g, s) => (some (g, 0), s)
  | (none, s) => (none, s)

/-- A refusal with DENIED takes its place among those of a command on a context (R131): after INVALID, before what the record's guard
refuses. -/
def refDeny (deny : Bool) (e : Option Ref) : Option Ref := if deny && e ≠ some (1, 0) then some (4, 0) else e

/-- The refusals that every command on an existing context judges: malformed, refused at its guard, STALE, NOT_NOW in a state not
listed. -/
def State.ctxRefuse (s : State) (bad : Bool) (c gen : Nat) (states : List Nat) : Option Ref × State :=
  let (e, s) := s.ctxOpen bad c
  (e.or (firstRef [(gen ≠ (s.ctx c).gen, 10, 0), (!states.contains (s.ctx c).state, 2, 0x20 + (s.ctx c).state)]), s)

/-- Records pinned in the home of context `c`. -/
def State.pinsOf (s : State) (c : Nat) : Nat := (s.cs.recs.filter fun e => e.1 % 4 = c % 4 && e.2.pinned).length

/-! ### Reference headers (R123 to R127) -/

/-- What an atomic on a reference header gave: status, state code, REF before it. -/
structure RefGot where
  status : Nat
  state : Nat := 0
  ref : Nat := 0

/-- Read REF of a header. -/
def State.refRead (s : State) (skirt a : Nat) : RefGot :=
  let (st, b) := s.ctlRead skirt a 8
  { status := st, ref := leNat b }

/-- Write REF of a header back (R124, R314), its reserved bits as zero (R10). -/
def State.refWrite (s : State) (skirt a v : Nat) : State := (s.ctlWrite skirt a (leBytes 8 (v % 2 ^ 35)) true).2

/-- COUNT of REF. -/
def refCount (r : Nat) : Nat := r % 2 ^ 32

/-- Take Chovik's reference for an object of context `c` (R124, R125): DYING fails with NOT_NOW, REF_DYING, a full COUNT with
NO_RESOURCE. A header that is never accessed writes a record (R309). -/
def State.refTake (s : State) (c : Option Nat) (skirt a : Nat) : RefGot × State :=
  let s := s.rangeRec c (80 + s.server skirt) a 8
  let g := s.refRead skirt a
  if g.status ≠ 0 then (g, s)
  else if g.ref.testBit 32 then ({ g with status := 2, state := 0x3E }, s)
  else if refCount g.ref = 2 ^ 32 - 1 then ({ g with status := 3 }, s)
  else (g, s.refWrite skirt a (g.ref + 1))

/-- An error bound to the object of a header (R128). -/
def State.refErr (s : State) (skirt a cls code : Nat) : State :=
  let h := s.host.read a 64
  let kind := fieldAt h 8 1
  let id := fieldAt h 12 4
  let ctx := if kind = 1 then some id else if kind = 2 && !(s.que id).priv then some (s.que id).ctx else none
  let k := (s.route skirt (s.homeDie a)).getD skirt
  s.err { cls := cls, code := code, kind := some kind, id := some id, gen := some (fieldAt h 16 4), ctx := ctx,
          part := some (fieldAt h 9 1 % 64), station := 80 + k, addr := a }

/-- Drop Chovik's reference (R124, R126): from 1 to 0 it sets DYING and writes the teardown notice; at 0 it is an error. -/
def State.refDrop (s : State) (skirt a : Nat) : Nat × State :=
  let g := s.refRead skirt a
  if g.status ≠ 0 then (g.status, s)
  else if refCount g.ref = 0 then (0, s.refErr skirt a 4 0x0402)
  else if refCount g.ref = 1 then
    (0, (s.refWrite skirt a (Nat.lor (g.ref - 1) (2 ^ 32))).refErr skirt a 0 0x0001)
  else (0, s.refWrite skirt a (g.ref - 1))

/-- Why a header is not ready to be released (R127). -/
def refBlocked (r : Nat) : Option Nat :=
  if refCount r ≠ 0 || !r.testBit 32 then some 0x28 else if !r.testBit 33 then some 0x29 else none

/-- Set CHOVIK_RELEASED. -/
def State.refRelease (s : State) (skirt a r : Nat) : State := s.refWrite skirt a (Nat.lor r (2 ^ 34))

/-! ### Frames (R114 to R117) -/

/-- Frames that a FRAME_SET changes in one tick. DESIGN CHOICE: the rate of R114's table in ticks (log entry 85). -/
def frameBatch : Nat := 60

/-- A FRAME_SET goes on from frame `j.aux` of its range (R114): up to a batch of frames, in ascending order. It stops at a frame that
is not free and at one whose guard has left service, and ends with the last. -/
def State.frameSetGo (s : State) (j : CtlJob) : State :=
  let f := df j.desc 16 8 + j.aux
  let n := df j.desc 24 4
  let m := min frameBatch (n - j.aux)
  let stop := s.own.foldl (fun m e => if f ≤ e.1 && e.1 < m then e.1 else m) (max f (min (f + m) s.usable))
  let k := match (List.range (stop - f)).find? fun i => !s.guardUp (s.guardOf (f + i)) with
    | some i => i
    | none => stop - f
  let s := { s with own := ownRun s.own f k (BitVec.ofNat 32 (df j.desc 28 4)),
                    acc := { s.acc with owBad := s.acc.owBad.filter fun x => !(f ≤ x && x < f + k) } }
  if k < m then
    (if s.guardUp (s.guardOf (f + k)) then s.jobDone j 2 0x27 (j.aux + k) else s.jobDone j 11 0 (j.aux + k))
  else if j.aux + k = n then s.jobDone j 0 0 n
  else s.setJob { j with aux := j.aux + k }

/-- FRAME_SET (R114): its first batch. -/
def State.frameSetRun (s : State) (q : Nat) (ri : W32) (d : Desc) : State :=
  let f := df d 16 8
  let n := df d 24 4
  let w := df d 28 4
  match firstRef [(!resOk d [(16, 8), (24, 4), (28, 4)] || n = 0 || 262144 < n || !ownerOk w || s.devBytes / 4096 < f + n, 1, 0),
      (s.runOut f n, 11, 0)] with
  | some r => s.cmdDone q ri d r.1 r.2
  | none =>
    let j : CtlJob := { queue := q, ri := ri, desc := d, phase := 3, since := s.tk (s.queStation q) }
    (s.setJob j).frameSetGo j

/-- A tick passes for the commands under way: every FRAME_SET changes a further batch. -/
def State.framesOn (s : State) : State :=
  (s.qs.jobs.filter fun j => dOp j.desc = 0xC0).foldl (fun s j => s.frameSetGo j) s

/-- FRAME_RECLAIM up to step 1 (R116). -/
def State.frameReclaimRun (s : State) (q : Nat) (ri : W32) (d : Desc) : State :=
  let f := df d 16 8
  let n := df d 24 4
  let w : W32 := BitVec.ofNat 32 (df d 32 4)
  match firstRef [(!resOk d [(16, 8), (24, 4), (32, 4)] || n = 0 || 262144 < n || s.devBytes / 4096 < f + n, 1, 0),
      (s.runOut f n, 11, 0),
      (s.usable < f + n || !((List.range n).all fun i => s.ownerOf (f + i) = w), 2, 0x27)] with
  | some r => s.cmdDone q ri d r.1 r.2
  | none =>
    let s := { s with own := ownRun s.own f n (ownerWord (w.toNat / 2 ^ 26) 3 3),
                      acc := { s.acc with owBad := s.acc.owBad.filter fun x => !(f ≤ x && x < f + n) } }
    s.setJob { queue := q, ri := ri, desc := d, phase := 3, aux := 1, since := s.tk (s.queStation q) }

/-- Whether a guard still holds an admitted request for frames `f` to `f + n - 1`. -/
def State.admitted (s : State) (f n : Nat) : Bool :=
  s.acc.list.any fun a => (a.ph = .checked || a.ph = .commit || a.ph = .abort) && a.kind = 2 && f ≤ a.pa / 4096 && a.pa / 4096 < f + n

/-- Whether a reclaim waits out the drain of guard `g` (R116, R182). -/
def State.reclaimDrains (s : State) (g : Nat) : Bool :=
  s.qs.jobs.any fun j => dOp j.desc = 0xC1 && j.aux = 1 &&
    (List.range (min (df j.desc 24 4) (16 * s.stackCount))).any fun i => s.guardOf (df j.desc 16 8 + i) = g

/-- Step 2 of a reclaim ends (R116). -/
def State.reclaimDrained (s : State) (q : Nat) (ri : W32) : State :=
  match s.job? q ri with
  | none => s
  | some j =>
    if dOp j.desc ≠ 0xC1 || j.aux ≠ 1 || s.admitted (df j.desc 16 8) (df j.desc 24 4) then s
    else s.setJob { j with aux := 2 }

/-- Steps 3 and 4 of a reclaim (R116, R174, R175): the frames behind a guard that left service are lost, and one whose scrub writes
its guard refuses keeps its owner word. -/
def State.reclaimScrubbed (s : State) (q : Nat) (ri : W32) : State :=
  match s.job? q ri with
  | none => s
  | some j =>
    if dOp j.desc ≠ 0xC1 || j.aux ≠ 2 then s
    else
      let f := df j.desc 16 8
      let n := df j.desc 24 4
      let w := ownerWord (df j.desc 32 4 / 2 ^ 26) 3 3
      let odd := ((List.range n).map (f + ·)).filter fun x =>
        s.guardUp (s.guardOf x) && (s.ownerOf x ≠ w || s.acc.owBad.contains x)
      let s := odd.foldl (fun s x => (s.guardCheck x w { ctx := none, station := s.queStation q }).2) s
      let freed (x : Nat) : Bool := f ≤ x && x < f + n && s.guardUp (s.guardOf x) && !odd.contains x
      let k := ((List.range n).filter fun i => freed (f + i)).length
      let lost := (List.range n).any fun i => !s.guardUp (s.guardOf (f + i))
      let s' := { s with own := s.own.filter fun e => !freed e.1,
                         dev := { bytes := s.dev.bytes.filter fun e => !freed (e.1 / 4096),
                                  poison := s.dev.poison.filter fun e => !freed (e.1 / 64) } }
      s'.jobDone j (if k = n then 0 else if lost then 11 else 4) 0 k

/-! ### Page tables (R118) -/

/-- PTE_WRITE: `r` is how the read of the entries from host memory ends. -/
def State.pteWriteRun (s : State) (q : Nat) (ri : W32) (d : Desc) (r : Ack) : State :=
  let pa := df d 16 8
  let n := df d 24 2
  let c := df d 28 4
  let x := s.ctx c
  let page := s.expectTables c
  let bad := !resOk d [(16, 8), (24, 2), (28, 4), (32, 4), (40, 8)] || n = 0 || 512 < n || pa % 8 ≠ 0 || 4096 < pa % 4096 + 8 * n
  let (e, s) := s.ctxOpen bad c
  let deny := s.ownerOf (pa / 4096) ≠ page || s.usable ≤ pa / 4096
  match (refDeny deny e).or (firstRef [(df d 32 4 ≠ x.gen, 10, 0), (x.state = 0, 2, 0x20)]) with
  | some e => s.cmdDone q ri d e.1 e.2
  | none =>
    let (st, b, s) := s.cmdRead q (df d 40 8) (8 * n)
    let st := if st ≠ 0 then st else match r with
      | .ok => 0
      | .residue => 0
      | .poisoned => 7
      | .timeout => 9
      | .lost => 11
    if st ≠ 0 then s.cmdDone q ri d st
    else
      let (w, s) := s.devWrite pa b (List.replicate (8 * n) false) page { ctx := some c, station := s.queStation q }
      s.cmdDone q ri d w 0 (if w = 0 then n else 0)

/-! ### Region maps (R111, R112, R171) -/

/-- The entry of a region-map image at index `i`. -/
def regionAt (b : Bytes) (i : Nat) : Region :=
  let f (o w : Nat) : Nat := fieldAt b (32 * i + o) w
  if f 16 1 = 0 then {}
  else { base := BitVec.ofNat 64 (f 0 8), pages := f 8 8, kind := f 16 1, attr := f 17 1, node := f 18 2,
         target := BitVec.ofNat 64 (f 24 8) }

/-- The range of `n` pages from `va` lies in one canonical half. -/
def halfOk (va n : Nat) : Bool :=
  canonical va && va % 4096 = 0 && (if va < 2 ^ 56 then va + n * 4096 ≤ 2 ^ 56 else va + n * 4096 ≤ 2 ^ 64)

/-- Whether one entry of a region map keeps R111 and R171. -/
def State.regionOk (s : State) (b : Bytes) (i : Nat) : Bool :=
  let g := regionAt b i
  g.kind = 0 ||
    (1 ≤ g.pages && g.pages < 2 ^ 45 && halfOk g.base.toNat g.pages && g.kind ≤ 4 && g.attr < 4 &&
      (!g.attr.testBit 1 || g.kind = 4) && g.node < 2 ^ 14 && fieldAt b (32 * i + 20) 4 = 0 &&
      (if g.kind = 3 then halfOk g.target.toNat g.pages && g.node ≠ s.odNum 0x6000 1
       else g.node = 0 && g.target = 0))

/-- Whether an image of `n` entries is a region map (R112, R171). -/
def State.mapOk (s : State) (b : Bytes) (n : Nat) : Bool :=
  ((List.range n).all (s.regionOk b)) &&
    (List.range n).all fun i => (List.range i).all fun j =>
      let g := regionAt b i
      let h := regionAt b j
      g.kind = 0 || h.kind = 0 || !meets g.base.toNat (g.pages * 4096) h.base.toNat (h.pages * 4096)

/-! ### Contexts (R107, R109, R110, R119) -/

/-- The next generation (R110). -/
def nextGen (g : Nat) : Nat := if g + 1 = 2 ^ 32 then 1 else g + 1

/-- Whether a context ID lies in the range of a partition. -/
def State.inPartCtx (s : State) (p c : Nat) : Bool :=
  let b := s.fld (partReg p 4) 0 20
  b ≤ c && c < b + s.fld (partReg p 8) 0 21

/-- Whether a frame carries kind 11, ID TRANSLATION of partition `p`. -/
def State.tablesOf (s : State) (a p : Nat) : Bool := a / 4096 < s.usable && s.ownerOf (a / 4096) = ownerWord p 3 2

/-- The record that an image makes of context `c` (R107). -/
def ctxImage (b : Bytes) (regs : List Region) (gen : Nat) : CtxRec :=
  let f (o w : Nat) : Nat := fieldAt b o w
  { state := 1, mode := f 1 1, part := f 2 1, pasid := f 8 4, gen := gen, ptRoot := f 16 8, regionMap := f 24 8,
    faultRing := f 32 8, faultLog2 := f 40 1, stampLedger := f 48 8, refHeader := f 56 8,
    groups := (List.range 16).map fun i => f (64 + 4 * i) 4, late := f 128 4, refused := f 132 4, errors := f 136 4,
    regions := regs, pinned := (f 1 1).testBit 2 }

/-- Whether a record image is well formed for context `c` (R107, R119, R197, R219). -/
def State.imageOk (s : State) (b : Bytes) (c : Nat) : Bool :=
  let f (o w : Nat) : Nat := fieldAt b o w
  let p := f 2 1
  let lg := f 40 1
  f 1 1 < 8 && p < 64 && f 3 1 ≤ 64 && f 4 4 = c && f 8 4 < 2 ^ 20 && f 16 8 % 4096 = 0 && s.tablesOf (f 16 8) p &&
    f 24 8 % 2048 = 0 && s.tablesOf (f 24 8) p && 6 ≤ lg && lg ≤ 14 && f 32 8 % max 4096 (64 * 2 ^ lg) = 0 &&
    f 41 1 = 0 && f 44 4 = 0 && f 56 8 % 64 = 0 && f 140 4 = 0 &&
    (if (f 1 1).testBit 0 then f 48 8 % 4096 = 0 && s.tablesOf (f 48 8) p else f 48 8 = 0) &&
    (List.range 16).all fun i => bitsOf (f (64 + 4 * i) 4) 30 20 = 0

/-- The 256 bytes of a context record (R107). The engine state is the model's own and reads as zero. -/
def State.ctxBytes (s : State) (c : Nat) : Bytes :=
  let r := s.ctx c
  leBytes 1 r.state ++ leBytes 1 r.mode ++ leBytes 1 r.part ++ leBytes 1 r.regions.length ++ leBytes 4 c ++
    leBytes 4 r.pasid ++ leBytes 4 r.gen ++ leBytes 8 r.ptRoot ++ leBytes 8 r.regionMap ++ leBytes 8 r.faultRing ++
    leBytes 1 r.faultLog2 ++ leBytes 1 0 ++ leBytes 2 r.queues ++ leBytes 4 0 ++ leBytes 8 r.stampLedger ++
    leBytes 8 r.refHeader ++ ((List.range 16).flatMap fun i => leBytes 4 ((r.groups[i]?).getD 0)) ++ leBytes 4 r.late ++
    leBytes 4 r.refused ++ leBytes 4 r.errors ++ leBytes 4 0 ++ leBytes 112 0

/-- The control line of a context's fault ring (R219). -/
def CtxRec.ctlLine (r : CtxRec) : Nat := r.faultRing + 2 ^ r.faultLog2 * 64

/-- Hold the control line of a context (R221), or drop it. -/
def State.ctlHold (s : State) (c : Nat) (hold : Bool) : State :=
  let s : State := { s with cw := { s.cw with moved := s.cw.moved.filter (· ≠ c) } }
  if hold then s.cwHold { pm := s.homeOf c, line := (s.ctx c).ctlLine, use := .ctl c }
  else { s with cw := { s.cw with lines := s.cw.lines.filter fun l => l.use ≠ .ctl c } }

/-- CTX_CREATE (R119, R446, R448). -/
def State.ctxCreateRun (s : State) (q : Nat) (ri : W32) (d : Desc) : State :=
  let c := df d 16 4
  let k := (s.que q).skirt
  let who : Asker := { ctx := none, station := s.queStation q }
  if !resOk d [(16, 4), (24, 8), (32, 8)] || !s.ctxInTable c then s.cmdDone q ri d 1
  else
    let (st, b, s) := s.cmdRead q (df d 24 8) 256
    if st ≠ 0 then s.cmdDone q ri d st
    else
      let n := fieldAt b 3 1
      let (st, m, s) := if n = 0 then (0, [], s) else s.cmdRead q (df d 32 8) (32 * min n 64)
      if st ≠ 0 then s.cmdDone q ri d st
      else
        let p := fieldAt b 2 1 % 64
        let old := s.ctx c
        if !s.imageOk b c || !s.mapOk m (min n 64) then s.cmdDone q ri d 1
        else if !s.configured p || !s.inPartCtx p c then s.cmdDone q ri d 4
        else
          let (e, s) := s.ctxOpen false c
          let (g, s) := match e with
            | some e => (e.1, s)
            | none => s.ctxCheck c
          if g ≠ 0 then s.cmdDone q ri d g
          else match firstRef [(old.state ≠ 0, 2, 0x20 + old.state), (!s.bit (partReg p 0) 1, 2, 0x35),
              ((fieldAt b 1 1).testBit 2 && 256 ≤ s.pinsOf c, 3, 0)] with
          | some e => s.cmdDone q ri d e.1 e.2
          | none =>
            let (g, s) := if n = 0 then (0, s) else s.guardCheck (fieldAt b 24 8 / 4096) (ownerWord p 3 2) who
            if g ≠ 0 then s.cmdDone q ri d g
            else
              let gen := nextGen old.gen
              let was := s.ctx c
              let s := s.setCtx c (ctxImage b ((List.range n).map (regionAt m)) gen)
              -- the stamp ledger of a stamped context starts at zero (R197)
              let (g, s) := if (fieldAt b 1 1).testBit 0 then s.ledgerZero c else (0, s)
              if g ≠ 0 then (s.setCtx c was).cmdDone q ri d g
              else
                let (t, s) := s.refTake (some c) k (fieldAt b 56 8)
                if t.status ≠ 0 then (s.setCtx c was).cmdDone q ri d t.status t.state
                else
                  let s := { s with
                    res := { s.res with ctxs := sDel s.res.ctxs c, groups := sFilter s.res.groups fun x _ => x / 2 ^ 40 ≠ c },
                    flt := { s.flt with noted := s.flt.noted.filter (· ≠ c) } }
                  (s.ctlHold c true).cmdDone q ri d 0 0 gen

/-- CTX_REGIONS (R119). -/
def State.ctxRegionsRun (s : State) (q : Nat) (ri : W32) (d : Desc) : State :=
  let c := df d 16 4
  let n := df d 24 1
  let (st, m, s) := if n = 0 then (0, [], s) else s.cmdRead q (df d 32 8) (32 * min n 64)
  let bad := !resOk d [(16, 4), (20, 4), (24, 1), (32, 8)] || 64 < n || (st = 0 && !s.mapOk m (min n 64))
  let (e, s) := s.ctxRefuse bad c (df d 20 4) [1, 2, 4]
  match e with
  | some e => s.cmdDone q ri d e.1 e.2
  | none =>
    if st ≠ 0 then s.cmdDone q ri d st
    else
      let r := s.ctx c
      let (g, s) := if n = 0 then (0, s)
        else s.guardCheck (r.regionMap / 4096) (s.expectTables c) { ctx := some c, station := s.queStation q }
      if g ≠ 0 then s.cmdDone q ri d g
      else
        let s := s.setCtx c { s.ctx c with regions := (List.range n).map (regionAt m) }
        (s.setJob { queue := q, ri := ri, desc := d, phase := 3, since := s.tk (s.queStation q) }).invalidate (.job q ri) c 0 0

/-- CTX_SHARE (R119); the reserved bits of GROUP are ignored (R10). -/
def State.ctxShareRun (s : State) (q : Nat) (ri : W32) (d : Desc) : State :=
  let c := df d 16 4
  let i := df d 24 1
  let g := Nat.land (df d 28 4) 0x800FFFFF
  let (e, s) := s.ctxRefuse (!resOk d [(16, 4), (20, 4), (24, 1), (28, 4)] || 15 < i) c (df d 20 4) [1, 2, 4]
  match e with
  | some e => s.cmdDone q ri d e.1 e.2
  | none =>
    let r := s.ctx c
    let old := (r.groups[i]?).getD 0
    let s := s.setCtx c { r with groups := r.groups.set i g }
    if old.testBit 31 && (!g.testBit 31 || old % 2 ^ 20 ≠ g % 2 ^ 20) then
      (s.setJob { queue := q, ri := ri, desc := d, phase := 3, since := s.tk (s.queStation q) }).invalidate (.job q ri) c 0 0
    else s.cmdDone q ri d 0

/-! ### Revocation (R133, R134) -/

/-- A queue of a revoked context, or a destroyed one, becomes DEAD (R137): its watch slot goes, its reference drops, what it
had not started does not run. -/
def State.queDead (s : State) (q : Nat) : State :=
  let r := s.que q
  let (_, s) := s.refDrop r.skirt r.refHeader
  let s := s.unwatch q
  let s := (s.x.slots.filter fun v => v.2.queue = q).foldl (fun s v => s.freeSlot v.1) s
  s.setQue q { s.que q with state := 5, halting := 0, checked := false, prog := [] }

/-- The queues of a context stop (R134): its WAITs end with ABORTED. -/
def State.revokeQueues (s : State) (c : Nat) : State :=
  (s.ctxQueues c).foldl (fun s q =>
    (s.qs.jobs.filter fun j => j.queue = q && dOp j.desc = 0x40).foldl (fun s j => s.jobDone j 8 0 0 9) s) s

/-- A context is revoked (R134): held requests end with ABORTED, its stamps and cached translations go. A context that rests
ends its rest with ABORTED (R109). -/
def State.revoke (s : State) (c : Nat) : State :=
  let s := match s.cs.rest with
    | some t => if t.ctx = c then ({ s with cs := { s.cs with rest := none } } : State).cmdEnd 5 8 0 else s
    | none => s
  let s := s.setCtx c { s.ctx c with state := 5 }
  let s := ((s.revokeQueues c).endFaults c 8).freeCtxSlots c
  s.invalidate (.revoke c) c 0 0

/-- Whether the revocation of a context has nothing left to wait for. -/
def State.revokeSettled (s : State) (c : Nat) : Bool :=
  (s.ctx c).state = 5 && s.ctxIdle c && !(s.x.invs.any fun i => i.src = .revoke c) &&
    !(s.dma.chans.any fun e => e.2.ctx = c)

/-- A context becomes DEAD: its queues with it, and Chovik's reference drops (R109, R125, R133). -/
def State.ctxDead (s : State) (c : Nat) : Nat × State :=
  let s := (s.ctxQueues c).foldl (fun s q => s.queDead q) s
  let r := s.ctx c
  let (st, s) := s.refDrop (c % 4) r.refHeader
  (st, (s.setCtx c { s.ctx c with state := 6 }).ctlHold c false)

/-- CTX_REVOKE (R109, R133). -/
def State.ctxRevokeRun (s : State) (q : Nat) (ri : W32) (d : Desc) : State :=
  let c := df d 16 4
  let (e, s) := s.ctxRefuse (!resOk d [(16, 4), (20, 4)]) c (df d 20 4) [1, 2, 3, 4]
  match e with
  | some e => s.cmdDone q ri d e.1 e.2
  | none =>
    if (s.ctx c).state = 4 then
      let (st, s) := s.ctxDead c
      s.cmdDone q ri d st
    else (s.setJob { queue := q, ri := ri, desc := d, phase := 3, aux := c, since := s.tk (s.queStation q) }).revoke c

/-- The revocation of context `c` is complete (R133): DEAD, and the CTX_REVOKE that asked for it completes. -/
def State.ctxRevokedRun (s : State) (c : Nat) : State :=
  if !s.revokeSettled c then s
  else
    let (st, s) := s.ctxDead c
    match s.qs.jobs.find? fun j => dOp j.desc = 0xC6 && j.aux = c with
    | some j => s.jobDone j st 0 0
    | none => s

/-! ### Destruction (R126, R127) -/

/-- A DEAD context's record returns to FREE, and its header is released. -/
def State.ctxFree (s : State) (c ref : Nat) : State :=
  let r := s.ctx c
  let s := s.setCtx c { gen := r.gen }
  let s := { s with cs := { s.cs with resident := s.cs.resident.filter (· ≠ c) },
                    res := { s.res with ctxs := sDel s.res.ctxs c, groups := sFilter s.res.groups fun x _ => x / 2 ^ 40 ≠ c } }
  (s.partEnabled r.part).refRelease (c % 4) r.refHeader ref

/-- CTX_DESTROY, and REF_ACK of a context's header (R127). -/
def State.ctxDestroyRun (s : State) (q : Nat) (ri : W32) (d : Desc) (bad : Bool) (c gen : Nat) : State :=
  let (e, s) := s.ctxRefuse bad c gen [6]
  match e with
  | some e => s.cmdDone q ri d e.1 e.2
  | none =>
    let g := s.refRead (c % 4) (s.ctx c).refHeader
    if g.status ≠ 0 then s.cmdDone q ri d g.status
    else match refBlocked g.ref with
    | some e => s.cmdDone q ri d 2 e
    | none => (s.ctxFree c g.ref).cmdDone q ri d 0

/-- A DEAD queue returns to FREE (R127): its map entries clear, its record keeps its generation. -/
def State.queFree (s : State) (q : Nat) : State :=
  let r := s.que q
  let x := s.ctx r.ctx
  let s := if !r.priv && x.gen = r.ctxGen && x.state ≠ 0 then s.setCtx r.ctx { x with queues := x.queues - 1 } else s
  let s := { s with qs := { s.qs with maps := sFilter s.qs.maps fun k _ => k % 65536 ≠ q,
                                      resident := s.qs.resident.filter (· ≠ q),
                                      pendBits := s.qs.pendBits.filter (· ≠ q) } }
  s.setQue q { gen := r.gen }

/-- REF_ACK (R127). DESIGN CHOICE: a header of no known KIND, and one that names queue 0 or no queue, completes with INVALID (log
entry 84). -/
def State.refAckRun (s : State) (q : Nat) (ri : W32) (d : Desc) : State :=
  let a := df d 16 8
  let k := (s.que q).skirt
  if !resOk d [(16, 8)] || a % 64 ≠ 0 then s.cmdDone q ri d 1
  else
    let (st, h, s) := s.cmdRead q a 32
    let ref := fieldAt h 0 8
    let kind := fieldAt h 8 1
    let id := fieldAt h 12 4
    let gen := fieldAt h 16 4
    if st ≠ 0 then s.cmdDone q ri d st
    else if kind = 0 || 5 < kind || kind = 2 && (id = 0 || 65536 ≤ id) then s.cmdDone q ri d 1
    else match refBlocked ref with
    | some e => s.cmdDone q ri d 2 e
    | none =>
      if kind = 1 then s.ctxDestroyRun q ri d false id gen
      else if kind = 2 then
        let r := s.que id
        (match firstRef [(gen ≠ r.gen, 10, 0), (r.state ≠ 5, 2, 0x2A + r.state)] with
        | some e => s.cmdDone q ri d e.1 e.2
        | none => ((s.queFree id).refRelease k a ref).cmdDone q ri d 0)
      else (s.refRelease k a ref).cmdDone q ri d 0

/-! ### Fences and queries (R107, R108, R122) -/

/-- FENCE_ABANDON (R122). -/
def State.fenceAbandonRun (s : State) (q : Nat) (ri : W32) (d : Desc) : State :=
  let c := df d 16 4
  let va := df d 24 8
  let (e, s) := s.ctxRefuse (!resOk d [(16, 4), (20, 4), (24, 8)] || va % 8 ≠ 0) c (df d 20 4) [1, 2, 5, 6]
  match e with
  | some e => s.cmdDone q ri d e.1 e.2
  | none => s.jobIssue { queue := q, ri := ri, desc := d, since := s.tk (s.queStation q) } c va 8 true .abandon

/-- The access of a FENCE_ABANDON is ready, or its translation has failed (R122). -/
def State.abandonReady (s : State) (j : CtlJob) (a : Access) : State :=
  if a.ph = .done then s.jobDone j 5 0 0 9
  else if a.kind = 3 then (s.noPath a 0x0301 a.va).jobDone j 5 0 0 9
  else
    let (g, s) := s.fenceAt (s.que j.queue).skirt a.kind a.pa .abandon a.expect a.who
    if g.status ≠ 0 then s.jobDone j g.status 0 0 9 else s.jobDone j 0 0 (g.word % 2 ^ 63)

/-- CTX_QUERY (R107, R108): the record at one instant, written on the stream of the window table (R311). -/
def State.ctxQueryRun (s : State) (q : Nat) (ri : W32) (d : Desc) : State :=
  let c := df d 16 4
  let r := s.ctx c
  let pins := r.mode.testBit 2 && r.state ≠ 0 && !r.pinned
  let (e, s) := s.ctxRefuse (!resOk d [(16, 4), (20, 4), (24, 8)]) c (df d 20 4) [0, 1, 2, 3, 4, 5, 6]
  match e with
  | some e => s.cmdDone q ri d e.1 e.2
  | none =>
    if pins && 256 ≤ s.pinsOf c then s.cmdDone q ri d 3
    else
      let s := if pins then s.setCtx c { r with pinned := true } else s
      let (st, s) := (s.rangeErr q (df d 24 8) 256).ctlWrite (s.que q).skirt (df d 24 8) (s.ctxBytes c) false
      s.cmdDone q ri d st

end Sys2Proof.Machine
end

