-- ==== Sys2Proof/Machine/QueCmd.lean ====
section
/-! DEFINITION. Queue commands (R136, R137, R144, R156) and the check of a program (R150). -/

namespace Sys2Proof.Machine

/-- Write the entry of queue `q` in all four queue maps (R142). -/
def State.mapQue (s : State) (q skirt : Nat) : State :=
  { s with qs := { s.qs with maps := (List.range 4).foldl (fun m k => sPut 0 m (k * 65536 + q) (skirt + 1)) s.qs.maps } }

/-- The operands of QUEUE_CREATE are in range (R156, R135). -/
def State.queShape (s : State) (d : Desc) : Bool :=
  let f (o w : Nat) : Nat := df d o w
  let rl := f 64 1
  let cl := f 65 1
  resOk d [(16, 4), (20, 4), (24, 4), (32, 8), (40, 8), (48, 8), (56, 8), (64, 1), (65, 1), (66, 1), (67, 1), (68, 1),
    (69, 1), (70, 1), (71, 1), (72, 2)] &&
  1 ≤ f 16 4 && f 16 4 < 65536 && 4 ≤ rl && rl ≤ 16 && 4 ≤ cl && cl ≤ 16 &&
  f 32 8 % max 4096 (2 ^ rl * 128) = 0 && f 40 8 % 64 = 0 && f 48 8 % max 4096 (2 ^ cl * 32) = 0 && f 56 8 % 64 = 0 &&
  f 66 1 < 8 && 1 ≤ f 67 1 && f 68 1 < 4 && (f 69 1 = 0xFF || f 69 1 < 100 && skirtOf (f 69 1) = f 68 1) && f 70 1 < 4 &&
  1 ≤ f 71 1 && f 71 1 ≤ 8 && bitsOf (f 72 2) 14 12 = 0 && (!(f 72 2).testBit 15 || f 72 2 % 4096 < 0xC00) &&
  (if (f 70 1).testBit 0 then f 20 4 = 0 && f 24 4 = 0 else s.ctxInTable (f 20 4))

/-- Whether a queue lies in the range of a partition (R448). -/
def State.inPartQue (s : State) (p q : Nat) : Bool :=
  let b := s.fld (partReg p 0xC) 0 16
  b ≤ q && q < b + s.fld (partReg p 0x10) 0 17

/-- The record that QUEUE_CREATE writes (R135, R156). -/
def State.queNew (s : State) (d : Desc) (gen : Nat) : QueueRec :=
  let f (o w : Nat) : Nat := df d o w
  let priv := (f 70 1).testBit 0
  { state := 1, priv := priv, snoop := (f 70 1).testBit 1, prio := f 66 1, weight := f 67 1,
    ctx := f 20 4, ctxGen := f 24 4, gen := gen, ringBase := f 32 8, tailLine := f 40 8, cqBase := f 48 8,
    refHeader := f 56 8, ringLog2 := f 64 1, cqLog2 := f 65 1, skirt := f 68 1, hint := f 69 1, depth := f 71 1,
    irq := f 72 2, part := if priv then 0 else (s.ctx (f 20 4)).part }

/-- QUEUE_CREATE (R156, R446, R448). DESIGN CHOICE: the new record enters the cache where that has room (log entry 82). -/
def State.queueCreateRun (s : State) (q : Nat) (ri : W32) (d : Desc) : State :=
  let n := df d 16 4
  let c := df d 20 4
  let priv := (df d 70 1).testBit 0
  let x := s.ctx c
  let old := s.que n
  let (e, s) := if priv then (firstRef [(!s.queShape d, 1, 0)], s) else s.ctxOpen (!s.queShape d) c
  let deny := !priv && (!s.configured x.part || !s.inPartQue x.part n)
  match (refDeny deny e).or (firstRef [(!priv && df d 24 4 ≠ x.gen, 10, 0), (old.state ≠ 0, 2, 0x2A + old.state),
      (!priv && x.state ≠ 1, 2, 0x20 + x.state), (!priv && !s.bit (partReg x.part 0) 1, 2, 0x35)]) with
  | some e => s.cmdDone q ri d e.1 e.2
  | none =>
    let (g, s) := s.guardCheck (s.queFrame n) queTableWord { ctx := none, station := s.queStation q }
    if g ≠ 0 then s.cmdDone q ri d g
    else
      let (t, s) := s.refTake (if priv then none else some c) (df d 68 1) (df d 56 8)
      if t.status ≠ 0 then s.cmdDone q ri d t.status t.state
      else
        let gen := nextGen old.gen
        let s := (s.setQue n (s.queNew d gen)).mapQue n (df d 68 1)
        let s := if priv then s else s.setCtx c { s.ctx c with queues := satAdd 16 (s.ctx c).queues 1 }
        let s := if (s.skirtResident (df d 68 1)).length < 4096 then s.loadQue n else s
        s.cmdDone q ri d 0 0 gen

/-- Why a command on queue `n` is refused: malformed, STALE, NOT_NOW. -/
def State.queRefuse (s : State) (bad : Bool) (n gen : Nat) (states : List Nat) : Option Ref :=
  firstRef [(bad || n = 0 || 65536 ≤ n, 1, 0), (gen ≠ (s.que n).gen, 10, 0),
    (!states.contains (s.que n).state, 2, 0x2A + (s.que n).state)]

/-- A queue with SNOOP takes a watch slot, where it holds none and one is free; the pommel reads the tail line, applies the tail
rules and holds the line (R143, R144). -/
def State.watchTake (s : State) (n : Nat) (tail head : W32) : State :=
  let r := s.que n
  let pm := s.server r.skirt
  if !r.snoop then s
  else if !r.snoopActive && 4096 ≤ (s.qs.watch.filter fun x => s.server (s.que x).skirt = pm).length then s
  else
    let s := s.setQue n { r with snoopActive := true }
    let s := { s with qs := { s.qs with watch := s.qs.watch.filter (· ≠ n) ++ [n] },
                      cw := { s.cw with
                        rung := s.cw.rung.filter fun x => x % 2 ^ 20 ≠ n } }
    (s.cwHold { pm := pm, line := r.tailLine, use := .tail n }).ring n (some tail) (some head)

/-- A queue starts (R137): RUNNING, or PAUSED while a PAUSE bit is set. -/
def State.queGo (s : State) (n : Nat) (tail head : W32) : State :=
  let r := s.que n
  (s.setQue n { r with state := if r.pause = 0 then 2 else 3 }).watchTake n tail head

/-- QUEUE_START. -/
def State.queueStartRun (s : State) (q : Nat) (ri : W32) (d : Desc) (tail head : W32) : State :=
  let n := df d 16 4
  match s.queRefuse (!resOk d [(16, 4), (20, 4)]) n (df d 20 4) [1, 4] with
  | some e => s.cmdDone q ri d e.1 e.2
  | none =>
    let s := s.queGo n tail head
    s.cmdDone q ri d 0 0 (b2n (s.que n).snoopActive)

/-- QUEUE_STOP (R137): a pending WAIT is set back; it completes when nothing of the queue is in flight. -/
def State.queueStopRun (s : State) (q : Nat) (ri : W32) (d : Desc) : State :=
  let n := df d 16 4
  match s.queRefuse (!resOk d [(16, 4), (20, 4)]) n (df d 20 4) [2, 3] with
  | some e => s.cmdDone q ri d e.1 e.2
  | none =>
    let s := (s.setJob { queue := q, ri := ri, desc := d, phase := 3, aux := n, since := s.tk (s.queStation q) }).waitBack n
    s.setQue n { s.que n with stopping := some (q, ri) }

/-- The write of Q0_ENABLE that waits takes effect. -/
def State.q0Reply (s : State) (st : St) (v : Nat) : State :=
  match s.ownReq .own fun i b _ => i = 0x2000 && b = 0x36 with
  | none => s
  | some rid => (s.odSet 0x2000 0x36 v).complete rid st 0 []

/-- The QUEUE_STOPs that wait for queue `n`. -/
def State.stopJobs (s : State) (n : Nat) : List CtlJob := s.qs.jobs.filter fun j => dOp j.desc = 0xD2 && j.aux = n

/-- Queue `n`, told to stop, has no descriptor in flight, a QUEUE_STOP of itself apart (R137, R144): STOPPED, its watch slot
released, and every QUEUE_STOP of it completes. A queue that became DEAD stays DEAD, and its stop ends with ABORTED.
PAUSE.ORPHAN clears (R512). -/
def State.queStopped (s : State) (n : Nat) : State :=
  let r := s.que n
  if (r.stopping.isNone && !r.stopQ0) ||
      !(r.fly.all fun ri => (s.stopJobs n).any fun j => j.queue = n && j.ri = ri) then s
  else
    let dead := r.state = 5 || r.state = 0
    let t := s.setQue n { r with state := if dead then r.state else 1, stopping := none, stopQ0 := false,
                                 pause := if r.pause.testBit 2 then r.pause - 4 else r.pause }
    let t := t.unwatch n
    let t := if r.stopQ0 then ({ t with qs := { t.qs with q0Draining := false } } : State).q0Reply .ok 0 else t
    (s.stopJobs n).foldl (fun t j => t.jobDone j (if dead then 8 else 0) 0 0) t

/-- QUEUE_DESTROY (R137). -/
def State.queueDestroyRun (s : State) (q : Nat) (ri : W32) (d : Desc) : State :=
  let n := df d 16 4
  match s.queRefuse (!resOk d [(16, 4), (20, 4)]) n (df d 20 4) [1, 4] with
  | some e => s.cmdDone q ri d e.1 e.2
  | none => (s.queDead n).cmdDone q ri d 0

/-! ### Queue 0 (R136) -/

/-- The record of queue 0, built afresh. -/
def State.q0New (s : State) : QueueRec :=
  { state := 1, priv := true, snoop := s.odNum 0x2000 0x33 ≠ 0, prio := 7, weight := 255, gen := nextGen (s.que 0).gen,
    ringBase := s.odNum 0x2000 0x31, tailLine := s.odNum 0x2000 0x33, cqBase := s.odNum 0x2000 0x34,
    ringLog2 := s.odNum 0x2000 0x32, cqLog2 := s.odNum 0x2000 0x35, skirt := 0, hint := 0xFF, depth := 1 }

/-- Whether queue 0 runs, for Q0_ENABLE. -/
def State.q0Runs (s : State) : Bool := (s.que 0).state = 2 || (s.que 0).state = 3

/-- The accepted write of 1 to Q0_ENABLE (R136). The tail line of queue 0 is read as the bytes that host memory holds. -/
def State.q0Build (s : State) : State :=
  match s.ownReq .own fun i b op => i = 0x2000 && b = 0x36 && op = 1 with
  | none => s
  | some rid =>
    if leNat (s.reqr rid).data ≠ 1 then s
    else if s.q0Runs then s.q0Reply .ok 1
    else
      let r := s.q0New
      if r.ringBase % (2 ^ r.ringLog2 * 128) ≠ 0 || r.cqBase % (2 ^ r.cqLog2 * 32) ≠ 0 || r.ringBase % 4096 ≠ 0 ||
          r.cqBase % 4096 ≠ 0 then s.q0Reply .invalid 0
      else
        let (g, s) := s.guardCheck (s.queFrame 0) queTableWord { ctx := none, station := s.queStation 0 }
        if g = 4 then s.q0Reply .denied 0
        else if g ≠ 0 then s.q0Reply .lame 0
        else
          let s := (((s.unwatch 0).setQue 0 r).mapQue 0 0).loadQue 0
          let b := s.host.read r.tailLine 8
          (s.queGo 0 (BitVec.ofNat 32 (fieldAt b 0 4)) (BitVec.ofNat 32 (fieldAt b 4 4))).q0Reply .ok 1

/-- The accepted write of 0 to Q0_ENABLE (R136). -/
def State.q0Stop (s : State) : State :=
  match s.ownReq .own fun i b op => i = 0x2000 && b = 0x36 && op = 1 with
  | none => s
  | some rid =>
    if leNat (s.reqr rid).data ≠ 0 || s.qs.q0Draining then s
    else if !s.q0Runs then (s.unwatch 0).q0Reply .ok 0
    else
      let s := s.waitBack 0
      let s := s.setQue 0 { s.que 0 with stopQ0 := true }
      ({ s with qs := { s.qs with q0Draining := true } } : State).queStopped 0

/-! ### Program checks (R150) -/

/-- The program of queue `q` as fetched: one run of descriptors up to and including the first with END, or 1,025
descriptors with none. -/
def isProgram (ds : List Desc) : Bool :=
  match ds.reverse with
  | [] => false
  | l :: rest => (rest.all fun d => !dFlag d 5) && (dFlag l 5 || 1024 < ds.length) && ds.length ≤ 1025

/-- How the fetch of the descriptor at ring index `ri` of queue `q` ends (R140): a coherent read on stream 1; FAULT where the address
is never accessed (R309), LAME without a path. -/
def State.fetchEnd (s : State) (q : Nat) (ri : W32) : Nat :=
  let a := s.ringAt q ri
  if hostRange a 128 then 5 else if (s.route (s.que q).skirt (s.homeDie a)).isNone then 11 else 0

/-- The descriptor that host memory holds at ring index `ri` of queue `q` (R140). -/
def State.ringDesc (s : State) (q : Nat) (ri : W32) : Desc := BitVec.ofNat 1024 (s.host.num (s.ringAt q ri) 128)

/-- The ring index of descriptor `p` of the program of queue `q`. -/
def State.progIdx (s : State) (q p : Nat) : W32 := (s.que q).progStart + BitVec.ofNat 32 p

/-- The first of `n` descriptors of a program whose fetch fails. -/
def State.fetchBad (s : State) (q n : Nat) : Option Nat := (List.range n).find? fun p => s.fetchEnd q (s.progIdx q p) ≠ 0

/-- Whether `ds` is what the fetch of the program gives (R140): what the ring holds, as far as the fetch comes. -/
def State.fetched (s : State) (q : Nat) (ds : List Desc) : Bool :=
  (ds.take ((s.fetchBad q ds.length).getD ds.length)).zipIdx.all fun e => s.ringDesc q (s.progIdx q e.2) = e.1

/-- Descriptor fetch keeps the lines of a program in the coherent window cache (R313). -/
def State.fetchHold (s : State) (q n : Nat) : State :=
  (List.range (2 * n)).foldl (fun s i =>
    let a := s.ringAt q (s.progIdx q (i / 2)) + 64 * (i % 2)
    let k := (s.route (s.que q).skirt (s.homeDie a)).getD (s.que q).skirt
    s.cwHold { pm := k, line := a / 64 * 64, use := .fetch }) s

/-- The first descriptor of a program that does not pass, with its status: one whose fetch fails (DESIGN CHOICE: it ends with that
status and halts its queue, log entry 86), or the first that fails a check, INVALID (R150). -/
def State.progBad (s : State) (q : Nat) (ds : List Desc) : Option (Nat × Nat) :=
  match s.fetchBad q ds.length with
  | some p => some (p, s.fetchEnd q (s.progIdx q p))
  | none => (progFail (s.que q).priv ds).map fun p => (p, 1)

/-- The checks of a program, as fetched from the ring, run once it lies whole below TAIL_SEEN: it may run, or its first failing
descriptor completes and halts the queue. DESIGN CHOICE: after 1,025 descriptors without an END, NEXT and HEAD stand after the last of them (log entry
83). -/
def State.programRun (s : State) (q : Nat) (ds : List Desc) : State :=
  let r := s.que q
  if !s.queRuns q || r.checked || !isProgram ds || wdiff r.tailSeen r.progStart < ds.length || 2 ^ 31 ≤ wdiff r.tailSeen r.progStart ||
      !s.fetched q ds then s
  else match s.progBad q ds with
  | none => (s.fetchHold q ds.length).setQue q { r with checked := true, prog := ds }
  | some (p, st) =>
    if r.cqFree = 0 then s
    else match ds[p]? with
    | none => s
    | some d =>
      let ri := s.progIdx q p
      let s := if st = 1 then s else s.rangeErr q (s.ringAt q ri) 128
      let s := s.setQue q { r with checked := true, prog := ds, reserved := r.reserved + b2n (needsSlot d) }
      s.descDone q ri d { status := st, station := s.queStation q, halt := true }

end Sys2Proof.Machine
end

