-- ==== Sys2Proof/Machine/Residency.lean ====
section
/-! DEFINITION. The residency engine (R238 to R261): pages and leaves of migratable regions, promotions, evictions,
narrowing, the driver's requests, samples and the decisions at an interval's end. -/

namespace Sys2Proof.Machine

/-! ### Pages and leaves (R239, R240) -/

/-- The entry at `a` of a table of context `c` as the engine reads it: none where the guard of its frame refuses (R31, R175) or the
entry is poisoned (R418). -/
def State.tableEntry (s : State) (c a : Nat) : Option W64 :=
  if s.guardOk (a / 4096) (s.expectTables c) && !s.dev.poisoned a 8 then some (BitVec.ofNat 64 (s.dev.num a 8)) else none

/-- The leaf of context `c` that translates page `p`, walked from table frame `t` at a level: its address and value. None where a
table above it is missing. -/
def State.leafFrom (s : State) (c p : Nat) : Nat → Nat → Option (Nat × W64)
  | 0, t => (s.tableEntry c (t * 4096 + p % 512 * 8)).map fun e => (t * 4096 + p % 512 * 8, e)
  | l + 1, t =>
    match s.tableEntry c (t * 4096 + p / 2 ^ (9 * (l + 1)) % 512 * 8) with
    | none => none
    | some e => if e.getLsbD 0 && !e.getLsbD 63 && !s.tableBad e then s.leafFrom c p l (ptePfn e) else none

/-- The leaf of page `p` of context `c`. -/
def State.leafOf (s : State) (c p : Nat) : Option (Nat × W64) := s.leafFrom c p 4 ((s.ctx c).ptRoot / 4096)

/-- The guards of the tables that lead to a leaf are asked, from table frame `t` at a level on; one that refuses records it (R177). -/
def State.leafAsk (s : State) (c p : Nat) : Nat → Nat → State
  | 0, t => (s.guardCheck t (s.expectTables c) { ctx := some c, station := 80 + s.homeOf c }).2
  | l + 1, t =>
    let (st, s) := s.guardCheck t (s.expectTables c) { ctx := some c, station := 80 + s.homeOf c }
    if st ≠ 0 then s
    else match s.tableEntry c (t * 4096 + p / 2 ^ (9 * (l + 1)) % 512 * 8) with
    | none => s
    | some e => if e.getLsbD 0 && !e.getLsbD 63 && !s.tableBad e then s.leafAsk c p l (ptePfn e) else s

/-- The guards of the tables of page `p` are asked. -/
def State.leafLook (s : State) (c p : Nat) : State := s.leafAsk c p 4 ((s.ctx c).ptRoot / 4096)

/-- The value of the leaf of a page, 0 where there is none. -/
def State.leafVal (s : State) (c p : Nat) : W64 := match s.leafOf c p with
  | some e => e.2
  | none => 0

/-- A leaf that holds a RESIDENT page. -/
def isRes (e : W64) : Bool := e.getLsbD 0 && e.getLsbD 62 && !e.getLsbD 63

/-- Whether a page's host copy is narrowed. -/
def State.marked (s : State) (c p : Nat) : Bool := (s.group c p).narrowed.contains (p % 64)

/-- Whether a page is MIGRATING. -/
def State.migrating (s : State) (c p : Nat) : Bool := (s.migOf c p).isSome

/-- Whether page `p` is eligible for promotion (R249): HOST or NARROWED, in a migratable region. -/
def State.eligible (s : State) (c p : Nat) : Bool :=
  !s.migrating c p && (match s.leafOf c p with
    | some e => !e.2.getLsbD 0 && !e.2.getLsbD 63
    | none => false) &&
    match (s.ctx c).regionOf p with
    | some g => g.kind = 4
    | none => false

/-- The engine writes a leaf under the guard expectation of kind 11, ID TRANSLATION (R240). -/
def State.setLeaf (s : State) (c p : Nat) (v : W64) : Nat × State :=
  let s := s.leafLook c p
  match s.leafOf c p with
  | none => (5, s)
  | some e => s.devWrite e.1 (leBytes 8 v.toNat) (List.replicate 8 false) (s.expectTables c)
      { ctx := some c, station := 80 + s.homeOf c }

/-- The pages of group `g`. -/
def groupPages (g : Nat) : List Nat := (List.range 64).map (64 * g + ·)

/-- RUNLEN of a leaf. -/
def runLen (e : W64) : Nat := bitsOf e.toNat 7 4

/-- Whether a RESIDENT page is dirty (R253): D is 1 in its leaf or in a leaf of the aligned group that its hint covers. -/
def State.dirtyPage (s : State) (c p : Nat) : Bool :=
  let n := 2 ^ runLen (s.leafVal c p)
  (List.range n).any fun j => (s.leafVal c (p / n * n + j)).getLsbD 3

/-- The largest true hint for page `p` among the leaves `es` of its group (R166, R240): every leaf of the aligned group is
RESIDENT and not MIGRATING, agrees in W, OWN_SEL, FMT and N, and the frames rise by one. -/
def hintOf (ok : Nat → Bool) (es : List W64) (p : Nat) : Nat :=
  let at_ (j : Nat) : W64 := (es[j]?).getD 0
  let fits (r : Nat) : Bool :=
    let b := p / 2 ^ r * 2 ^ r
    (List.range (2 ^ r)).all fun j => ok (b + j) && ptePfn (at_ (b + j)) = ptePfn (at_ b) + j &&
      (at_ (b + j)).getLsbD 1 = (at_ b).getLsbD 1 && bitsOf (at_ (b + j)).toNat 52 48 = bitsOf (at_ b).toNat 52 48 &&
      bitsOf (at_ (b + j)).toNat 62 56 = bitsOf (at_ b).toNat 62 56
  (([6, 5, 4, 3, 2, 1] : List Nat).find? fits).getD 0

/-- The engine rewrites the hints of a group (R240). Where a hint shrinks, a page that was dirty through it keeps D = 1 in
its own leaf. -/
def State.rehint (s : State) (c g : Nat) : State :=
  let ps := groupPages g
  let es := ps.map (s.leafVal c)
  let ok (j : Nat) : Bool := isRes ((es[j]?).getD 0) && !s.migrating c (64 * g + j)
  ps.foldl (fun t p =>
    let e := (es[p % 64]?).getD 0
    if !isRes e then t
    else
      let h := hintOf ok es (p % 64)
      let v : W64 := BitVec.ofNat 64 (e.toNat - runLen e * 16 + h * 16)
      let v := if h < runLen e && s.dirtyPage c p then v ||| 8 else v
      if v = e then t else (t.setLeaf c p v).2) s

/-! ### Pools (R242, R244) -/

/-- What the engine keeps of context `c`. -/
def State.resCtx (s : State) (c : Nat) : ResCtx := sGet {} s.res.ctxs c

/-- Set what the engine keeps of a context. -/
def State.setResCtx (s : State) (c : Nat) (r : ResCtx) : State :=
  { s with res := { s.res with ctxs := sPut {} s.res.ctxs c r } }

/-- A frame returns to the pool. -/
def State.freeFrame (s : State) (c f : Nat) : State :=
  let r := s.resCtx c
  s.setResCtx c { r with free := r.free ++ [f] }

/-- A frame leaves the pool. -/
def State.loseFrame (s : State) (c : Nat) : State :=
  let r := s.resCtx c
  s.setResCtx c { r with total := r.total - 1 }

/-- The owner word of the pool frames of a context (R242). -/
def State.poolWord (s : State) (c : Nat) : W32 := ownerWord (s.ctx c).part 1 c

/-- Take the first of at most `n` free frames in a row: the longest run that the free frames allow, or `n` of it. Which of equal runs
is free. -/
def State.takeRun (s : State) (c n : Nat) : List Nat × State :=
  let r := s.resCtx c
  let runs (m : Nat) : List Nat := r.free.filter fun f => (List.range m).all fun j => r.free.contains (f + j)
  match ((List.range n).map (n - ·)).find? fun m => !(runs m).isEmpty with
  | none => ([], s)
  | some m =>
    let (k, s) := s.draw
    match (runs m)[Config.victim k % (runs m).length]? with
    | none => ([], s)
    | some f =>
      let fs := (List.range m).map (f + ·)
      (fs, s.setResCtx c { r with free := r.free.filter fun f => !fs.contains f })

/-- Take `n` free frames, as contiguous runs wherever the free frames allow (R250). The fuel bounds the runs. -/
def State.takeFrames (s : State) (c n : Nat) : Nat → List Nat × State
  | 0 => ([], s)
  | k + 1 =>
    if n = 0 then ([], s)
    else
      let (fs, s) := s.takeRun c n
      let (gs, s) := s.takeFrames c (n - fs.length) k
      (fs ++ gs, s)

/-- Whether residency is on for context `c`: its home pommel has a group table (R264). -/
def State.resOn (s : State) (c : Nat) : Bool := s.odNum 0x5000 (0x30 + s.homeOf c) ≠ 0

/-- Records that a group table holds. -/
def State.groupRoom (s : State) : Nat := 2 ^ s.odNum 0x5000 0x34

/-- The group records of contexts homed in pommel `pm`. -/
def State.groupsAt (s : State) (pm : Nat) : Smap Group := s.res.groups.filter fun e => s.homeOf (e.1 / 2 ^ 40) = pm

/-- Pick the entry with the highest or the lowest number of a list of keys with numbers; which of equals is free. -/
def State.pick (s : State) (l : List (Nat × Nat)) (high : Bool) : Option Nat × State :=
  match l with
  | [] => (none, s)
  | x :: xs =>
    let m := xs.foldl (fun m e => if high then max m e.2 else min m e.2) x.2
    let t := l.filter fun e => e.2 = m
    let (k, s) := s.draw
    ((t[Config.victim k % t.length]?).map Prod.fst, s)

/-- The engine's access to record `slot` of the group table of a pommel passes its guard, which expects kind 11, ID RESIDENCY and
partition 0 (R246). -/
def State.groupOpen (s : State) (pm slot : Nat) : Bool × State :=
  let (st, s) := s.guardCheck (s.odNum 0x5000 (0x30 + pm) / 4096 + (slot - 1) / 4) (ownerWord 0 3 0x20)
    { ctx := none, station := 80 + pm }
  (st = 0, s)

/-- The group of page `p` takes record `slot` of its table, if the guard lets the engine at it. -/
def State.groupTake (s : State) (c p slot : Nat) : Bool × State :=
  match s.groupOpen (s.homeOf c) slot with
  | (true, s) => (true, s.setGroup c p { s.group c p with slot := slot })
  | (false, s) => (false, s)

/-- Make sure that the group of page `p` has a record that the engine can use (R246, R247): it has one, or takes a free one, or that with
the lowest count among those with no page marked and no attribute; with none of these, TABLE_FULL sets. -/
def State.groupMake (s : State) (c p : Nat) : Bool × State :=
  let pm := s.homeOf c
  let g := s.group c p
  let used := (s.groupsAt pm).map fun e => e.2.slot
  if g.slot ≠ 0 then s.groupOpen pm g.slot
  else match if used.length < s.groupRoom then (List.range s.groupRoom).find? fun i => !used.contains (i + 1) else none with
  | some i => s.groupTake c p (i + 1)
  | none =>
    let idle := (s.groupsAt pm).filter fun e =>
      e.2 = ({ count := e.2.count, slot := e.2.slot } : Group) && !(s.res.migs.any fun m => groupKey m.2.ctx m.2.page = e.1)
    match s.pick (idle.map fun e => (e.1, e.2.count)) false with
    | (some k, s) =>
      let slot := (sGet {} s.res.groups k).slot
      ({ s with res := { s.res with groups := sDel s.res.groups k } } : State).groupTake c p slot
    | (none, s) => (false, s.raise (pmReg pm 0x1100) 1 (pmReg pm 0x1124))

/-! ### Entries of the migration table -/

/-- A request reports a page that it could not treat (log entry 87). -/
def State.resFail (s : State) (m : Mig) (st : Nat) : State :=
  let f (r : ResReq) : ResReq := if m.req = some r.id && r.status = 0 then { r with status := st } else r
  { s with res := { s.res with reqs := s.res.reqs.map f } }

/-- Whether a FLUSH has still to write page `p` back (R244): an eviction waits for that. -/
def State.writing (s : State) (c p : Nat) : Bool :=
  (s.res.migs.any fun e => e.2.ctx = c && e.2.page = p && 256 ≤ e.1 % 65536) ||
    s.res.batches.any fun b => b.ctx = c && b.act = .flush && b.left.contains p

/-- Remove an entry: accesses that it held replay (R226, R253); when the last of its batch goes, the batch has ended. -/
def State.migEnd (s : State) (key : Nat) (m : Mig) : State :=
  let s := { s with res := { s.res with migs := sDel s.res.migs key } }
  let s := { s with x := { s.x with walks := s.x.walks.filter fun w => w.res ≠ some (key / 65536, key % 65536) } }
  let more := (s.res.migs.any fun e => e.2.batch = m.batch) ||
    s.res.batches.any fun b => b.ctx = m.ctx && b.act = m.act && b.left.any fun p => p / 64 = m.page / 64
  let s := if more then s else s.trace 5 (80 + m.pm) m.ctx (pageVa (m.page / 64 * 64))
  let held := s.acc.list.filter fun a => a.ph = .mig && a.ctx = m.ctx && vpage a.va = m.page
  (held.foldl (fun s a => s.retry a.id) s).unblock

/-- Change an entry. -/
def State.setMig (s : State) (key : Nat) (m : Mig) : State := { s with res := { s.res with migs := sIns s.res.migs key m } }

/-- Count a page for the request that an entry serves. -/
def State.resCount (s : State) (m : Mig) : State :=
  let f (r : ResReq) : ResReq := if m.req = some r.id then { r with count := r.count + 1 } else r
  { s with res := { s.res with reqs := s.res.reqs.map f } }

/-- A free index of the migration table of a pommel from `lo` on, while fewer than RES_MAX_INFLIGHT are in use there. -/
def State.migSlot (s : State) (pm lo : Nat) : Option Nat :=
  let used := (s.res.migs.filter fun e => e.1 / 65536 = pm && (lo ≤ e.1 % 65536 && e.1 % 65536 < lo + 256)).map fun e => e.1 % 65536
  if s.odNum 0x5000 0x3B ≤ used.length then none else (List.range 256).map (lo + ·) |>.find? fun i => !used.contains i

/-- What stands for the host page of a RESIDENT page whose translation the host took back (R512): no page number. -/
def hostUnknown : Nat := 2 ^ 52

/-- Ask the host for the translation of the page of an entry (step 3 of R252), for write when ATTR.W is 1 or the page is to
be written back or widened in place. -/
def State.migTranslate (s : State) (key : Nat) (m : Mig) : State :=
  let w := m.act ≠ .promote || match (s.ctx m.ctx).regionOf m.page with
    | some g => g.attr.testBit 0
    | none => false
  let id := s.x.nextWalk
  let k : Walk := { id := id, skirt := m.pm, station := 80 + m.pm, ctx := m.ctx, page := m.page, write := w, active := true,
                    res := some (key / 65536, key % 65536) }
  ({ s.setMig key { m with stage := 3 } with x := { s.x with walks := s.x.walks ++ [k], nextWalk := id + 1 } } : State).sendAts k

/-- The pages whose group record the engine can use; the others are left out, and their request reports DENIED (log entry 87). -/
def State.groupsOpen (s : State) (c : Nat) (req : Option Nat) (ps : List Nat) : List Nat × State :=
  ((ps.map (· / 64)).eraseDups).foldl (fun (e : List Nat × State) g =>
    match e.2.groupMake c (64 * g) with
    | (true, s) => (e.1, s)
    | (false, s) =>
      (e.1.filter fun p => p / 64 ≠ g, s.resFail { pm := 0, ctx := c, page := 0, act := .flush, req := req } 4)) (ps, s)

/-- Enter pages of one context in the table (step 1), and start the invalidation of their range (step 2). A FLUSH needs no
further invalidation. Answers the pages that found no room; in ORPHAN no migration starts (R261). -/
def State.migEnter (s : State) (c : Nat) (act : MigAct) (narrow : Bool) (req : Option Nat) (ps fs : List Nat) : List Nat × State :=
  let pm := s.homeOf c
  let k := s.res.nextReq
  if s.inOrphan && act ≠ .drop then (ps, s) else
  let (ps, s) := s.groupsOpen c req ps
  let s := { s with res := { s.res with nextReq := k + 1 } }
  let lo := if act = .flush then 256 else 0
  let go := ps.zipIdx.foldl (fun (acc : List Nat × List Nat × State) e =>
    let (inn, out, s) := acc
    match s.migSlot pm lo with
    | none => (inn, out ++ [e.1], s)
    | some i =>
      let m : Mig := { pm := pm, ctx := c, page := e.1, act := act, frame := (fs[e.2]?).getD 0, batch := k, req := req,
                       narrow := narrow, began := s.tk (80 + pm), stage := if act = .flush then 4 else 2,
                       host := sGet 0 (s.group c e.1).hostPg (e.1 % 64) }
      (inn ++ [e.1], out, if act = .flush && m.host = hostUnknown then s.migTranslate (pm * 65536 + i) m
        else s.setMig (pm * 65536 + i) m)) ([], [], s)
  let (inn, out, s) := go
  match inn with
  | [] => (out, s)
  | p :: _ =>
    if act = .flush then (out, s)
    else
      let lo := inn.foldl min p
      let hi := inn.foldl max p
      let s := (inn.map (· / 64)).eraseDups.foldl (fun s g => s.rehint c g) s
      (out, s.invalidate (.engine pm k) c lo (hi + 1 - lo))

/-- Return a page to HOST or NARROWED: its leaf is written as zero, its frame goes back to the pool. `keep` keeps the
narrowed mark. -/
def State.pageHome (s : State) (m : Mig) (keep : Bool) : State :=
  let e := s.leafVal m.ctx m.page
  let (st, s) := s.setLeaf m.ctx m.page 0
  if st ≠ 0 then s
  else
    let g := s.group m.ctx m.page
    let j := m.page % 64
    let s := if isRes e then s.freeFrame m.ctx (ptePfn e) else match sFind g.poisoned j with
      | some f => s.freeFrame m.ctx f
      | none => s
    s.setGroup m.ctx m.page { g with hostPg := sDel g.hostPg j, poisoned := sDel g.poisoned j,
                                     narrowed := if keep then g.narrowed else g.narrowed.filter (· ≠ j),
                                     nfmts := if keep then g.nfmts else sDel g.nfmts j }

/-- An eviction ends (steps 4 and 5 of R253): counted, also toward the gain where the engine had promoted the page. -/
def State.evicted (s : State) (key : Nat) (m : Mig) (keep : Bool) : State :=
  let s := ((s.pageHome m keep).inc (pmReg m.pm 0x1108)).resCount m
  let r := s.resCtx m.ctx
  let s := if r.upNow.contains m.page || r.upLast.contains m.page then s.setResCtx m.ctx { r with downNow := r.downNow + 1 } else s
  (s.migEnd key m).rehint m.ctx (m.page / 64)

/-- The invalidation of batch `k` is complete: its entries go on. -/
def State.migInvalidated (s : State) (k : Nat) : State :=
  (s.res.migs.filter fun e => e.2.batch = k && e.2.stage = 2).foldl (fun s e =>
    let m := e.2
    match m.act with
    | .promote => s.migTranslate e.1 m
    | .widen => s.migTranslate e.1 m
    | .drop => (((s.pageHome m false).resCount m).migEnd e.1 m).rehint m.ctx (m.page / 64)
    | .evict =>
      if (s.leafVal m.ctx m.page).getLsbD 3 || (s.marked m.ctx m.page && !m.narrow) then
        (if m.host = hostUnknown then s.migTranslate e.1 m else s.setMig e.1 { m with stage := 4 })
      else s.evicted e.1 m true
    | .flush => s) s

/-- A promotion or widening leaves its batch: the page stays in its state, the frame returns to the pool. -/
def State.migLeave (s : State) (key : Nat) (m : Mig) : State :=
  let s := if m.act = .promote then s.freeFrame m.ctx m.frame else s
  s.migEnd key m

/-! ### Narrowing and widening (R254 to R258) -/

/-- The pairs of a format and a narrower one (R288): BF16, FP16 and every block format under FP32; FP8 and every block format
under BF16 and FP16. -/
def narrower (fmt nfmt : Nat) : Bool :=
  (fmt = 1 && (nfmt = 2 || nfmt = 3 || isBlock nfmt)) || ((fmt = 2 || fmt = 3) && (nfmt = 4 || nfmt = 5 || isBlock nfmt))

/-- Bytes that a page of format `fmt` takes in format `nfmt`, packed (R255). -/
def packedBytes (fmt nfmt : Nat) : Nat := 4096 / unitBytes fmt / unitElems nfmt * unitBytes nfmt

/-- Whether an eviction narrows its page (R254). -/
def State.narrows (s : State) (m : Mig) : Bool :=
  let g := s.group m.ctx m.page
  let f := ptePfn (s.leafVal m.ctx m.page)
  m.narrow && s.odNum 0x5000 0x3C ≠ 0 && (s.leafVal m.ctx m.page).getLsbD 61 && g.narrow && narrower g.fmt g.nfmt &&
    !s.dev.poisoned (f * 4096) 4096 && match (s.ctx m.ctx).regionOf m.page with
    | some r => r.attr.testBit 1
    | none => false

/-- The elements of a page of format `fmt`. -/
def pageElems (fmt : Nat) : Nat := 4096 / unitBytes fmt * unitElems fmt

/-- The skiving unit of home pommel `pm` has converted a page: it counts (R290, R307). -/
def State.converted (s : State) (pm fmt : Nat) (o : RowOut) : State := s.skvCount (80 + pm) [o] (pageElems fmt)

/-- The full layout of a narrowed page, as the skiving unit of pommel `pm` makes it (R258). -/
def State.widened (s : State) (pm c p : Nat) (bs : Bytes) (pz : List Bool) : Bytes × List Bool × State :=
  let k := sGet 0 (s.group c p).nfmts (p % 64)
  let n := packedBytes (k % 32) (k / 32)
  let r := encodeRow (k % 32) none 0 (decodeRow (k / 32) (bs.take n) (pz.take n))
  (r.bytes, r.pz, s.converted pm (k % 32) r)

/-! ### Copies and writebacks -/

/-- The leaf of a promoted page (R240), before its hint. -/
def State.promotedLeaf (s : State) (m : Mig) : W64 :=
  let g := s.group m.ctx m.page
  let a := match (s.ctx m.ctx).regionOf m.page with
    | some r => r.attr
    | none => 0
  BitVec.ofNat 64 (1 + 2 * b2n (a.testBit 0) + m.frame * 4096 + g.fmt * 2 ^ 56 + b2n (g.narrow && a.testBit 1) * 2 ^ 61 + 2 ^ 62)

/-- Step 4 of a promotion ends for one page: the frame holds the host data, widened where the page was narrowed, poison
carried; a refusing guard leaves the page as it was and takes the frame out of the pool (R260). With no host path the page
leaves its batch. -/
def State.promoteOne (s : State) (key : Nat) (m : Mig) : State :=
  let a := m.host * 4096
  match s.route m.pm (s.homeDie a) with
  | none => s.migLeave key m
  | some k =>
    if s.inOrphan || hostRange a 4096 then (s.rangeRec (some m.ctx) (80 + m.pm) a 4096).migLeave key m
    else
      let s := s.moveBytes (80 + k) (s.ctx m.ctx).part 1 4096
      let b := s.host.read a 4096
      let z := s.host.flags a 4096
      let (b, z, s) := if s.marked m.ctx m.page then s.widened m.pm m.ctx m.page b z else (b, z, s)
      let (st, s) := s.devWrite (m.frame * 4096) b z (s.poolWord m.ctx) { ctx := some m.ctx, station := 80 + m.pm }
      if st ≠ 0 then (s.loseFrame m.ctx).migEnd key m
      else
        let (w, s) := s.setLeaf m.ctx m.page (s.promotedLeaf m)
        if w ≠ 0 then s.migLeave key m
        else
          let g := s.group m.ctx m.page
          let s := s.setGroup m.ctx m.page { g with hostPg := sIns g.hostPg (m.page % 64) m.host }
          let r := s.resCtx m.ctx
          let s := s.setResCtx m.ctx { r with fNow := (r.fNow.1 + (s.tk (80 + m.pm) - m.began), r.fNow.2 + 1), upNow := r.upNow ++ [m.page] }
          (s.inc (pmReg m.pm 0x1104)).migEnd key m

/-- The read-back of the copy of the batch of entry `i` returns (R252): each of its pages becomes RESIDENT. The batch waits
for every translation. -/
def State.promotionDone (s : State) (pm i : Nat) : State :=
  match sFind s.res.migs (pm * 65536 + i) with
  | none => s
  | some m =>
    let all := s.res.migs.filter fun e => e.2.batch = m.batch
    if m.act ≠ .promote || all.any (fun e => e.2.stage ≠ 4) then s
    else
      let s := all.foldl (fun s e => s.promoteOne e.1 e.2) s
      ((all.map fun e => e.2.page / 64).eraseDups).foldl (fun s g => s.rehint m.ctx g) s

/-- What a writeback came to: written whole, written narrowed, failed for good (R260), or no read-back. -/
inductive WbEnd where
  | full
  | narrow
  | failed
  | open_
deriving DecidableEq, Repr

/-- Write page bytes to their host page, as the surroundings decide. Whether a write that timed out or lost its path landed is
free (log entry 56). -/
def State.wbWrite (s : State) (m : Mig) (b : Bytes) (z : List Bool) (r : Ack) (how : WbEnd) : WbEnd × State :=
  let a := m.host * 4096
  if s.inOrphan then (.open_, s.dropWrite m.pm (lineCount a b.length))
  else if hostRange a b.length then (.failed, s.rangeRec (some m.ctx) (80 + m.pm) a b.length)
  else match s.route m.pm (s.homeDie a) with
  | none => (.failed, s)
  | some k =>
    let done (s : State) : State := (s.hostWrite k a b z false).moveBytes (80 + k) (s.ctx m.ctx).part 0 b.length
    match r with
    | .ok => (how, done s)
    | .residue => (how, done s)
    | .poisoned => (.failed, done s)
    | .lost =>
      let (n, s) := s.draw
      (.failed, if (Config.free64 n).getLsbD 0 then done s else s)
    | .timeout =>
      let (n, s) := s.draw
      (.open_, if (Config.free64 n).getLsbD 0 then done s else s)

/-- The writeback of the frame of a page (R253, R255). -/
def State.writeback (s : State) (m : Mig) (r : Ack) : WbEnd × State :=
  let f := ptePfn (s.leafVal m.ctx m.page)
  let nar := s.narrows m
  let (st, b, z, s) := s.devRead (f * 4096) 4096 (s.poolWord m.ctx) { ctx := some m.ctx, station := 80 + m.pm }
  if st ≠ 0 && st ≠ 7 then (.failed, s)
  else if nar then
    let g := s.group m.ctx m.page
    let o := encodeRow g.nfmt none 0 (decodeRow g.fmt b z)
    let (w, s) := s.wbWrite m o.bytes o.pz r .narrow
    (w, s.converted m.pm g.fmt o)
  else s.wbWrite m b z r .full

/-- The mark of a page after a writeback. -/
def State.setMark (s : State) (m : Mig) (nar : Bool) : State :=
  let g := s.group m.ctx m.page
  let j := m.page % 64
  s.setGroup m.ctx m.page
    (if nar then { g with narrowed := j :: g.narrowed.filter (· ≠ j), nfmts := sPut 0 g.nfmts j (g.fmt + 32 * g.nfmt) }
     else { g with narrowed := g.narrowed.filter (· ≠ j), nfmts := sDel g.nfmts j })

/-- A writeback failed for good (R260): the leaf carries P = 1, the frame stays out of the pool, a record names the page. -/
def State.pagePoison (s : State) (m : Mig) : State :=
  let e := s.leafVal m.ctx m.page
  let (_, s) := s.setLeaf m.ctx m.page (e ||| (1#64 <<< 63))
  let g := s.group m.ctx m.page
  let s := s.setGroup m.ctx m.page { g with poisoned := sIns g.poisoned (m.page % 64) (ptePfn e), hostPg := sDel g.hostPg (m.page % 64) }
  (s.raise (pmReg m.pm 0x1100) 2 (pmReg m.pm 0x1128)).errCtx m.ctx 2 0x0203 (80 + m.pm) 7 (pageVa m.page) 0

/-- D of a leaf is set again, when the writeback of a FLUSH came to no end. -/
def State.setDirty (s : State) (m : Mig) : State :=
  let e := s.leafVal m.ctx m.page
  if isRes e then (s.setLeaf m.ctx m.page (e ||| 8)).2 else s

/-- The host's answer for the page of an entry (step 3 of R252, R257): refused for a page whose access waits, it becomes a
host-side page fault. A page whose host translation was taken back is translated afresh before its writeback, and a
refusal poisons it (R512). -/
def State.migAnswer (s : State) (key : Nat) (ans : HostAnswer) (write : Bool) : State :=
  match sFind s.res.migs key with
  | none => s
  | some m =>
    let refuse (s : State) : State :=
      if m.act = .evict || m.act = .flush then
        (if s.inOrphan then ((if m.act = .flush then s.setDirty m else s).resFail m 11).migEnd key m
         else ((s.pagePoison m).resFail m 7).migEnd key m) else
      let held := s.acc.list.filter fun a => a.ph = .mig && a.ctx = m.ctx && vpage a.va = m.page
      let s := if s.marked m.ctx m.page && m.act = .promote then held.foldl (fun s a => s.pageFault a true 0 0 0) s else s
      (s.resFail m 5).migLeave key m
    match ans with
    | .translated hp lg wr =>
      if write && !wr then refuse s
      else
        let n := 2 ^ lg
        s.setMig key { m with stage := 4, host := hp / n * n + m.page % n }
    | _ => refuse s

/-- The read-back of the writeback of entry `i` returns, or does not (R253, R260). -/
def State.writebackDone (s : State) (pm i : Nat) (r : Ack) : State :=
  let key := pm * 65536 + i
  match sFind s.res.migs key with
  | none => s
  | some m =>
    if m.stage ≠ 4 then s
    else match m.act with
    | .evict =>
      (match s.writeback m r with
      | (.full, s) => (s.setMark m false).evicted key m false
      | (.narrow, s) => ((s.setMark m true).inc (pmReg pm 0x110C)).evicted key m true
      | (.failed, s) => (((s.pagePoison m).resFail m 7).migEnd key m).rehint m.ctx (m.page / 64)
      | (.open_, s) => ((s.resFail m 9).migEnd key m).rehint m.ctx (m.page / 64))
    | .flush =>
      (match s.writeback m r with
      | (.failed, s) => (((s.pagePoison m).resFail m 7).migEnd key m).rehint m.ctx (m.page / 64)
      | (.open_, s) => ((s.setDirty m).resFail m 9).migEnd key m
      | (_, s) => ((s.setMark m false).resCount m).migEnd key m)
    | .widen =>
      let a := m.host * 4096
      let (b, z, s) := s.widened m.pm m.ctx m.page (s.host.read a 4096) (s.host.flags a 4096)
      (match s.wbWrite m b z r .full with
      | (.full, s) => ((s.setMark m false).resCount m).migEnd key m
      | (.open_, s) => (s.resFail m 9).migEnd key m
      | (_, s) => (s.resFail m 11).migEnd key m)
    | _ => s

/-! ### Batches (R249, R250, R257) -/

/-- Queue a batch. -/
def State.addBatch (s : State) (c : Nat) (act : MigAct) (ps : List Nat) (narrow demand : Bool) (req : Option Nat := none) : State :=
  if ps.isEmpty then s
  else { s with res := { s.res with
    batches := s.res.batches ++ [{ id := s.res.nextReq, pm := s.homeOf c, ctx := c, act := act, left := ps, narrow := narrow,
                                   demand := demand, req := req }],
    nextReq := s.res.nextReq + 1 } }

/-- The RESIDENT pages of a group that no entry or batch has. -/
def State.groupRes (s : State) (c g : Nat) : List Nat :=
  (groupPages g).filter fun p => isRes (s.leafVal c p) && !s.migrating c p && !s.writing c p &&
    !(s.res.batches.any fun b => b.ctx = c && b.left.contains p)

/-- The groups of a context that hold RESIDENT pages free to be evicted, with their counts. -/
def State.resGroups (s : State) (c : Nat) : List (Nat × Nat) :=
  (s.res.groups.filter fun e => e.1 / 2 ^ 40 = c && !e.2.hostPg.isEmpty && !(s.groupRes c (e.1 % 2 ^ 40)).isEmpty).map
    fun e => (e.1 % 2 ^ 40, e.2.count)

/-- Start evicting the group of context `c` with the lowest count, at most `lim` where it is given, other than group `but`: how many
pages. -/
def State.evictLowest (s : State) (c : Nat) (lim : Option Nat) (narrow : Bool) (req : Option Nat) (but : Option Nat := none) :
    Nat × State :=
  let l := (s.resGroups c).filter fun e => some e.1 ≠ but && match lim with
    | some n => e.2 ≤ n
    | none => true
  match s.pick l false with
  | (none, s) => (0, s)
  | (some g, s) =>
    let ps := s.groupRes c g
    (ps.length, s.addBatch c .evict ps narrow false req)

/-- Pages of a context on their way back to its pool. -/
def State.comingFree (s : State) (c : Nat) : Nat :=
  (s.res.migs.filter fun e => e.2.ctx = c && e.2.act = .evict).length +
    (s.res.batches.filter fun b => b.ctx = c && b.act = .evict).foldl (fun n b => n + b.left.length) 0

/-- Frames that queued promotions of a context still want. -/
def State.wanted (s : State) (c : Nat) : Nat :=
  (s.res.batches.filter fun b => b.ctx = c && b.act = .promote).foldl (fun n b => n + b.left.length) 0

/-- Enter what a batch can enter now: evictions as the table has room; promotions also need free frames, and a page that is no
longer eligible leaves the batch. -/
def State.batchGo (s : State) (b : Batch) : State :=
  let put (s : State) (l : List Nat) : State := { s with res := { s.res with
    batches := if l.isEmpty then s.res.batches.filter (fun x => x.id ≠ b.id)
      else s.res.batches.map fun x => if x.id = b.id then { x with left := l } else x } }
  if b.act = .promote then
    let l := b.left.filter (s.eligible b.ctx)
    if s.inOrphan then s
    else
      let room := s.odNum 0x5000 0x3B - (s.res.migs.filter fun e => e.1 / 65536 = b.pm && e.1 % 65536 < 256).length
      let n := min l.length (min room (s.resCtx b.ctx).free.length)
      if n = 0 then
        let s := put s l
        if b.demand && !l.isEmpty && (s.resCtx b.ctx).free.isEmpty && s.comingFree b.ctx = 0 then
          (s.evictLowest b.ctx none true none (some ((l.headD 0) / 64))).2
        else s
      else
        let now := l.take n
        match s.groupMake b.ctx (now.headD 0) with
        | (false, s) => put s []
        | (true, s) =>
          let (fs, s) := (put s (l.drop n)).takeFrames b.ctx n n
          (s.migEnter b.ctx .promote false b.req ((groupPages ((now.headD 0) / 64)).filter now.contains) fs).2
  else
    let wait := if b.act = .evict then b.left.filter (s.writing b.ctx) else []
    let l := b.left.filter fun p => !s.migrating b.ctx p && !wait.contains p &&
      (if b.act = .widen then s.marked b.ctx p && !isRes (s.leafVal b.ctx p) else isRes (s.leafVal b.ctx p))
    let wide := if b.act = .widen then b.left.filter fun p => s.migrating b.ctx p || (s.marked b.ctx p && isRes (s.leafVal b.ctx p)) else []
    let (out, s) := (put s []).migEnter b.ctx b.act b.narrow b.req l []
    let s := s.addBatch b.ctx .flush (wide.filter fun p => !s.migrating b.ctx p) false false b.req
    let left := wait ++ out ++ wide.filter (s.migrating b.ctx)
    if left.isEmpty then s else { s with res := { s.res with batches := { b with left := left } :: s.res.batches } }

/-- A demand promotion for each held access to a NARROWED page that has none yet (R257): its own page first. -/
def State.demand (s : State) : State :=
  if s.inOrphan then s else
  s.acc.list.foldl (fun s a =>
    let p := vpage a.va
    if a.ph ≠ .mig || s.migrating a.ctx p || !s.marked a.ctx p || isRes (s.leafVal a.ctx p) ||
        (s.res.batches.any fun b => b.ctx = a.ctx && b.act = .promote && b.left.contains p) then s
    else s.addBatch a.ctx .promote (p :: ((groupPages (p / 64)).filter fun x => x ≠ p && s.eligible a.ctx x)) false true) s

/-! ### Requests (R243, R244) -/

/-- A request ends: the slot reports it, the host's invalidation or the rest goes on. -/
def State.resDone (s : State) (r : ResReq) : State :=
  let s := { s with res := { s.res with reqs := s.res.reqs.filter fun x => x.id ≠ r.id } }
  match r.slot with
  | none => s
  | some k =>
    let o := pmReg r.pm (0x1000 + 0x40 * k)
    (s.wr (o + 0x28) (BitVec.ofNat 32 r.count)).slotDone (o + 0x24) r.status 0 (if s.bit (o + 0x20) 1 then some (0xCC0 + 4 * r.pm + k) else none)

/-- Set a request. -/
def State.setReq (s : State) (r : ResReq) : State :=
  { s with res := { s.res with reqs := s.res.reqs.map fun x => if x.id = r.id then r else x } }

/-- Whether entries or batches still serve a request. -/
def State.reqBusy (s : State) (r : ResReq) : Bool :=
  (s.res.migs.any fun e => e.2.req = some r.id) || s.res.batches.any fun b => b.req = some r.id

/-- The pages of a request. -/
def ResReq.range (r : ResReq) : List Nat := (List.range r.pages).map (r.first + ·)

/-- Pages whose leaf the engine cannot read have the guards of their tables asked (R31). -/
def State.looked (s : State) (c : Nat) (ps : List Nat) : State :=
  ps.foldl (fun t p => if (s.leafOf c p).isNone then t.leafLook c p else t) s

/-- A FLUSH looks at the pages that are neither MIGRATING nor being written back: dirty RESIDENT pages are to be written back and
NARROWED ones widened as the table has room, and D is cleared in every leaf, so that the next write to each page sets it. -/
def State.flushLook (s : State) (r : ResReq) : State :=
  let c := r.ctx
  let can := r.left.filter fun p => !s.migrating c p && !s.writing c p
  let s := s.looked c can
  let wb := can.filter fun p => isRes (s.leafVal c p) && (s.dirtyPage c p || s.marked c p)
  let wide := can.filter fun p => !isRes (s.leafVal c p) && s.marked c p && !(s.leafVal c p).getLsbD 63
  -- a page beside the range that was dirty through a hint keeps D = 1 in its own leaf
  let beside := ((can.map (· / 64)).eraseDups.flatMap groupPages).filter fun p =>
    !can.contains p && isRes (s.leafVal c p) && s.dirtyPage c p
  let s' := beside.foldl (fun t p =>
    let e := t.leafVal c p
    if e.getLsbD 3 then t else (t.setLeaf c p (e ||| 8)).2) s
  let s' := can.foldl (fun t p =>
    let e := t.leafVal c p
    if isRes e && e.getLsbD 3 then (t.setLeaf c p (e &&& ~~~(8 : W64))).2 else t) s'
  ((s'.addBatch c .flush wb false false (some r.id)).addBatch c .widen wide false false (some r.id)).setReq
    { r with left := r.left.filter fun p => !can.contains p }

/-- Evict or drop what a request still has to, as the table has room. -/
def State.evictLook (s : State) (r : ResReq) : State :=
  let c := r.ctx
  let drop := r.op = 4
  let can := r.left.filter fun p => !s.migrating c p && !s.writing c p
  let s := s.looked c can
  let go := can.filter fun p => isRes (s.leafVal c p) || (drop && (s.marked c p || (s.leafVal c p).getLsbD 63))
  let (out, s) := s.migEnter c (if drop then .drop else .evict) false (some r.id) go []
  s.setReq { r with left := r.left.filter fun p => !can.contains p || out.contains p }

/-- Write removed frames to the list of a TAKE. -/
def State.takeSome (s : State) (r : ResReq) : State :=
  let x := s.resCtx r.ctx
  let fs := x.free.take r.want
  if fs.isEmpty then s
  else
    let s := s.setResCtx r.ctx { x with free := x.free.drop fs.length, total := x.total - fs.length }
    let s := s.rangeRec (some r.ctx) (80 + r.pm) r.list (8 * fs.length)
    let (st, s) := s.ctlWrite r.pm r.list (fs.flatMap (leBytes 8)) false
    s.setReq { r with want := r.want - fs.length, list := r.list + 8 * fs.length, count := r.count + fs.length,
                      status := if r.status = 0 then st else r.status }

/-- Set the attributes of the groups of a range (R245). -/
def State.attrsRun (s : State) (r : ResReq) : State :=
  let g0 := r.first / 64
  let s := (List.range (r.pages / 64)).foldl (fun s i =>
    let (ok, s) := s.groupMake r.ctx (64 * (g0 + i))
    if !ok then s
    else
      let g := s.group r.ctx (64 * (g0 + i))
      let g := { g with fmt := bitsOf r.arg 4 0, nfmt := bitsOf r.arg 12 8, narrow := r.arg.testBit 16,
                        exclude := r.arg.testBit 17 }
      (s.setGroup r.ctx (64 * (g0 + i)) g).resCount { pm := r.pm, ctx := r.ctx, page := 0, act := .drop, req := some r.id }) s
  match s.res.reqs.find? fun x => x.id = r.id with
  | none => s
  | some r => s.resDone r

/-- The pages of a context that the engine keeps something of: what a rest flushes and evicts (R496). -/
def State.restPages (s : State) (c : Nat) : List Nat :=
  s.res.groups.flatMap fun e => if e.1 / 2 ^ 40 = c then
    (e.2.hostPg.map Prod.fst ++ e.2.narrowed).eraseDups.map fun h => e.1 % 2 ^ 40 * 64 + h else []

/-- A request goes on as far as it can. -/
def State.reqGo (s : State) (id : Nat) : State :=
  match s.res.reqs.find? fun x => x.id = id with
  | none => s
  | some r =>
    let cur (s : State) : Option ResReq := s.res.reqs.find? fun x => x.id = id
    if r.op = 1 then
      let s := s.takeSome r
      (match cur s with
      | none => s
      | some r =>
        if r.want = 0 then s.resDone r
        else if s.reqBusy r || s.comingFree r.ctx ≠ 0 then s
        else
          let (n, s) := s.evictLowest r.ctx none false (some r.id)
          if n = 0 && !(s.res.migs.any fun e => e.2.ctx = r.ctx) && !(s.res.batches.any fun b => b.ctx = r.ctx) then s.resDone r else s)
    else if r.op = 5 then
      (if r.range.any (s.migrating r.ctx) then s else s.attrsRun r)
    else if r.phase = 2 then
      let s := if r.left.isEmpty then s else s.flushLook r
      (match cur s with
      | none => s
      | some r =>
        if !r.left.isEmpty || s.reqBusy r then s
        else if r.op = 2 then s.resDone r
        else
          let r := { r with phase := 3, left := if r.slot.isNone then s.restPages r.ctx else r.range, count := 0 }
          (s.setReq r).evictLook r)
    else if r.phase = 3 then
      let s := if r.left.isEmpty then s else s.evictLook r
      (match cur s with
      | none => s
      | some r => if !r.left.isEmpty || s.reqBusy r then s else s.resDone r)
    else s

/-- Start a request's work: FLUSH and EVICT first invalidate their range. -/
def State.reqStart (s : State) (r : ResReq) : State :=
  let id := s.res.nextReq
  let first := r.op = 2 || r.op = 3
  let r := { r with id := id, left := if r.op = 1 || r.op = 5 then [] else r.range, phase := if first then 1 else 3 }
  let s := { s with res := { s.res with reqs := s.res.reqs ++ [r], nextReq := id + 1 } }
  if first then s.invalidate (.engine r.pm id) r.ctx r.first r.pages else s.reqGo id

/-- An invalidation of the engine is complete: of a batch, or of a FLUSH. -/
def State.engineInvDone (s : State) (k : Nat) : State :=
  let s := s.migInvalidated k
  match s.res.reqs.find? fun r => r.id = k with
  | none => s
  | some r => if r.phase = 1 then (s.setReq { r with phase := 2 }).reqGo k else s

/-- GIVE (R244): frames of the pool's owner join the pool; a frame that is in it already is not added again. -/
def State.giveRun (s : State) (c f n : Nat) : Nat × Nat × State :=
  let who : Asker := { ctx := some c, station := 80 + s.homeOf c }
  let (st, s) := (List.range n).foldl (fun (acc : Nat × State) i =>
    if acc.1 ≠ 0 then acc else acc.2.guardCheck (f + i) (acc.2.poolWord c) who) (0, s)
  if st ≠ 0 then (st, 0, s)
  else
    let r := s.resCtx c
    let inUse (x : Nat) : Bool := r.free.contains x ||
      (s.res.migs.any fun e => e.2.ctx = c && e.2.act = .promote && e.2.frame = x) ||
      s.res.groups.any fun e => e.1 / 2 ^ 40 = c && (e.2.poisoned.any (fun y => y.2 = x) ||
        e.2.hostPg.any fun y => ptePfn (s.leafVal c (e.1 % 2 ^ 40 * 64 + y.1)) = x)
    let add := ((List.range n).map (f + ·)).filter fun x => !inUse x
    (0, add.length, s.setResCtx c { r with free := r.free ++ add, total := r.total + add.length })

/-- Frames in the pools of the contexts homed in a pommel (R246). -/
def State.poolsAt (s : State) (pm : Nat) : Nat :=
  (s.res.ctxs.filter fun e => s.homeOf e.1 = pm).foldl (fun n e => n + e.2.total) 0

/-- Whether the operands of a residency request keep R244. -/
def State.resShape (s : State) (op c va n arg : Nat) : Bool :=
  let p := vpage va
  let reg := (s.ctx c).regionOf p
  let range := canonical va && va % 4096 = 0 && match reg with
    | some g => g.kind = 4 && p + n ≤ vpage g.base.toNat + g.pages
    | none => false
  let attrN := match reg with
    | some g => g.attr.testBit 1
    | none => false
  1 ≤ n && n ≤ 262144 && s.ctxInTable c &&
  match op with
  | 0 => arg < 2 ^ 36
  | 1 => arg % 8 = 0
  | 2 => arg = 0 && range
  | 3 => arg = 0 && range
  | 4 => arg = 0 && range
  | 5 => range && p % 64 = 0 && n % 64 = 0 && bitsOf arg 7 5 = 0 && bitsOf arg 15 13 = 0 && bitsOf arg 63 18 = 0 &&
      (!arg.testBit 16 || attrN) && fmtOk (bitsOf arg 4 0) && fmtOk (bitsOf arg 12 8)
  | _ => false

/-- GO at residency slot `k` of pommel `pm` (R243, R244). -/
def State.resGo (s : State) (pm k : Nat) (irq : Bool) : State :=
  let o := pmReg pm (0x1000 + 0x40 * k)
  if !s.live (80 + pm) then s
  else if s.slotBusy (o + 0x24) then s.inc (pmReg pm 0x112C)
  else
    let c := s.fld o 0 20
    let gen := (s.rd (o + 4)).toNat
    let va := s.rd64 (o + 8)
    let n := (s.rd (o + 0x10)).toNat
    let op := s.fld (o + 0x14) 0 3
    let arg := s.rd64 (o + 0x18)
    let s := s.setFld (o + 0x20) 1 1 (b2n irq)
    let src := if irq then some (0xCC0 + 4 * pm + k) else none
    let x := s.ctx c
    let fin (s : State) (st state count : Nat) : State := (s.wr (o + 0x28) (BitVec.ofNat 32 count)).slotDone (o + 0x24) st state src
    match firstRef [(!s.resShape op c va n arg, 1, 0), (gen ≠ x.gen, 10, 0),
        (x.state ≠ 1 && x.state ≠ 2, 2, 0x20 + x.state), (!s.resOn c, 2, 0x31),
        (op = 0 && 64 * s.groupRoom < s.poolsAt (s.homeOf c) + n, 3, 0)] with
    | some e => fin s e.1 e.2 0
    | none =>
      if op = 0 then
        let (st, m, s) := s.giveRun c arg n
        fin s st 0 m
      else (s.slotTake (o + 0x24)).reqStart
        { id := 0, pm := pm, slot := some k, ctx := c, op := op, first := vpage va, pages := n, arg := arg,
          want := if op = 1 then n else 0, list := arg }

/-! ### Samples and decisions (R247 to R249) -/

/-- The home takes up a sample of an access to page `p` of context `c`; one that finds no group record is dropped and counted (R247,
R263). -/
def State.sample (s : State) (c p : Nat) (host : Option Nat) : State :=
  let mig := match (s.ctx c).regionOf p with
    | some g => g.kind = 4
    | none => false
  if !(s.ctx c).mode.testBit 1 || !mig || !s.resOn c || 5 ≤ (s.ctx c).state || (s.ctx c).state = 0 then s
  else
    let r := s.resCtx c
    let s := match host with
      | some t => s.setResCtx c { r with mNow := (r.mNow.1 + t, r.mNow.2 + 1) }
      | none => s
    let (ok, s) := s.groupMake c p
    if !ok then s.sampleDrop (s.homeOf c)
    else
      let g := s.group c p
      s.setGroup c p { g with count := satAdd 16 g.count 1 }

/-- The home of context `c` takes the oldest sample of its queue (R247), which is this one. -/
def State.sampleNext (s : State) (c p : Nat) (host : Option Nat) : State :=
  let x : Sample := { pm := s.homeOf c, ctx := c, page := p, host := host }
  if (s.res.samples.find? fun y => y.pm = x.pm) ≠ some x then s
  else ({ s with res := { s.res with samples := s.res.samples.erase x } } : State).sample c p host

/-- The promotion threshold of a group with `p` eligible pages (R248). A mean latency of 0 makes it the ceiling. -/
def State.threshold (s : State) (r : ResCtx) (p : Nat) : Nat :=
  let base := s.odNum 0x5000 0x37
  let gain := if r.gain = 0 then base else r.gain
  let f := if r.f.2 = 0 then (s.odNum 0x5000 0x3D, 1) else r.f
  let tmax := s.odNum 0x5000 0x39
  let tmin := min (s.odNum 0x5000 0x38) tmax
  let den := 16 * 2 ^ s.odNum 0x5000 0x35 * r.m.1 * f.2
  if den = 0 then tmax else max tmin (min tmax ((gain * p * f.1 * r.m.2 + den - 1) / den))

/-- The costs and gain of a context at an interval's end (R248). -/
def State.resCosts (s : State) (c : Nat) : State :=
  let r := s.resCtx c
  let base := s.odNum 0x5000 0x37
  let gain := min (if r.gain = 0 then base else r.gain) (8 * base)
  let down := r.downNow + r.downLast
  let up := (r.upNow ++ r.upLast).length
  let gain := if up < 8 * down then min (2 * gain) (8 * base) else if down = 0 then max (gain / 2) base else max gain base
  s.setResCtx c { r with m := if r.mNow.2 = 0 then r.m else r.mNow, f := if r.fNow.2 = 0 then r.f else r.fNow,
                         mNow := (0, 0), fNow := (0, 0), gain := gain, upLast := r.upNow, upNow := [],
                         downLast := r.downNow, downNow := 0 }

/-- Frames that a new promotion of context `c` could use. -/
def State.spare (s : State) (c : Nat) : Nat := (s.resCtx c).free.length + s.comingFree c - s.wanted c

/-- Make room for `n` frames for a candidate with count `cnt`: evict groups whose count is at most half of it. The fuel bounds
the groups. -/
def State.makeRoom (s : State) (c n cnt : Nat) : Nat → State
  | 0 => s
  | k + 1 =>
    if n ≤ s.spare c then s
    else match s.evictLowest c (some (cnt / 2)) true none with
    | (0, s) => s
    | (_, s) => s.makeRoom c n cnt k

/-- Take the candidates in descending order of count, until one finds no frame (R249). The fuel bounds the candidates. -/
def State.candidates (s : State) (l : List (Nat × Nat)) : Nat → State
  | 0 => s
  | k + 1 =>
    match s.pick l true with
    | (none, s) => s
    | (some key, s) =>
      let c := key / 2 ^ 40
      let ps := (groupPages (key % 2 ^ 40)).filter (s.eligible c)
      let cnt := ((l.find? fun e => e.1 = key).map Prod.snd).getD 0
      let s := s.makeRoom c ps.length cnt 65536
      if s.spare c = 0 then s
      else (s.addBatch c .promote (ps.take (s.spare c)) false false).candidates (l.filter fun e => e.1 ≠ key) k

/-- Evict groups until the free frames of a pool reach the target (R249). -/
def State.freeTarget (s : State) (c : Nat) : Nat → State
  | 0 => s
  | k + 1 =>
    if s.odNum 0x5000 0x3A * (s.resCtx c).total ≤ 64 * s.spare c then s
    else match s.evictLowest c none true none with
    | (0, s) => s
    | (_, s) => s.freeTarget c k

/-- The contexts that the engine keeps something of. -/
def State.resContexts (s : State) : List Nat :=
  let a := s.res.groups.map fun e => e.1 / 2 ^ 40
  let b := s.res.migs.map fun e => e.2.ctx
  (a ++ b ++ s.res.ctxs.map Prod.fst ++ s.res.reqs.map (·.ctx)).eraseDups

/-- An interval of pommel `pm` ends (R247 to R249). -/
def State.intervalEnd (s : State) (pm : Nat) : State :=
  if s.odNum 0x5000 (0x30 + pm) = 0 then s
  else
    let cs := s.resContexts.filter fun c =>
      s.homeOf c = pm && (s.ctx c).mode.testBit 1 && ((s.ctx c).state = 1 || (s.ctx c).state = 2)
    let s := cs.foldl (fun s c => s.resCosts c) s
    let cand := (s.groupsAt pm).filter fun e =>
      let c := e.1 / 2 ^ 40
      let n := ((groupPages (e.1 % 2 ^ 40)).filter (s.eligible c)).length
      cs.contains c && !e.2.exclude && n ≠ 0 && s.threshold (s.resCtx c) n ≤ e.2.count
    let s := if s.inOrphan then s else
      let t := s.candidates (cand.map fun e => (e.1, e.2.count)) cand.length
      cs.foldl (fun t c => t.freeTarget c 65536) t
    let half (m : Smap Group) (e : Nat × Group) : Smap Group :=
      if s.homeOf (e.1 / 2 ^ 40) = pm then sPut {} m e.1 { e.2 with count := e.2.count / 2 } else m
    { s with res := { s.res with groups := s.res.groups.foldl half s.res.groups } }

/-! ### Revocation, host invalidations, rests -/

/-- What the engine keeps of a revoked context goes (R261): migrations end without writeback, requests end with ABORTED. -/
def State.resRevoke (s : State) (c : Nat) : State :=
  let ms := s.res.migs.filter fun e => e.2.ctx = c
  let s := { s with res := { s.res with batches := s.res.batches.filter fun b => b.ctx ≠ c } }
  let s := ms.foldl (fun s e => s.migEnd e.1 e.2) s
  let s := (s.res.reqs.filter fun r => r.ctx = c).foldl (fun s r => s.resDone { r with status := 8 }) s
  { s with res := { s.res with ctxs := sDel s.res.ctxs c, groups := sFilter s.res.groups fun k _ => k / 2 ^ 40 ≠ c } }

/-- A host invalidation meets pages of a context (R259): promotions in its range are abandoned, RESIDENT pages evicted at full
width under a request that names it. Answers whether a request was started. -/
def State.resHostInv (s : State) (inv c first pages : Nat) : Bool × State :=
  let hit (p : Nat) : Bool := first ≤ p && p < first + pages
  let cut (b : Batch) : Batch := if b.ctx = c && b.act = .promote then { b with left := b.left.filter fun p => !hit p } else b
  let s := { s with res := { s.res with batches := s.res.batches.map cut } }
  let s := { s with res := { s.res with batches := s.res.batches.filter fun b => !b.left.isEmpty } }
  let s := (s.res.migs.filter fun e => e.2.ctx = c && e.2.act = .promote && hit e.2.page).foldl (fun s e => s.migLeave e.1 e.2) s
  -- a page that is being widened in place is translated afresh
  let s := (s.res.migs.filter fun e => e.2.ctx = c && e.2.act = .widen && hit e.2.page).foldl (fun s e =>
    (s.addBatch c .widen [e.2.page] false false e.2.req).migEnd e.1 e.2) s
  let ps := s.res.groups.flatMap fun e => if e.1 / 2 ^ 40 = c then
    (e.2.hostPg.map fun h => e.1 % 2 ^ 40 * 64 + h.1).filter hit else []
  if ps.isEmpty then (false, s)
  else
    let id := s.res.nextReq
    let r : ResReq := { id := id, pm := s.homeOf c, host := some inv, ctx := c, op := 8, first := first, pages := pages, phase := 3,
                        left := ps }
    (true, ({ s with res := { s.res with reqs := s.res.reqs ++ [r], nextReq := id + 1 } } : State).reqGo id)

/-- Everything in the engine that can go on goes on: entries that lost their translation request leave, requests and batches
enter what the tables have room for, demand promotions start. -/
def State.resSettle (s : State) : State :=
  if s.res = ({ groups := s.res.groups, ctxs := s.res.ctxs, nextReq := s.res.nextReq, samples := s.res.samples,
                counts := s.res.counts } : ResSys) &&
      !(s.acc.list.any fun a => a.ph = .mig) && !(s.cs.recs.any fun e => 5 ≤ e.2.state) then s
  else
    let dead := s.resContexts.filter fun c => 5 ≤ (s.ctx c).state
    let s := dead.foldl (fun s c => s.resRevoke c) s
    let s := (s.res.migs.filter fun e => e.2.stage = 3 && !(s.x.walks.any fun w => w.res = some (e.1 / 65536, e.1 % 65536))).foldl
      (fun s e => s.migAnswer e.1 .abort false) s
    let s := s.res.reqs.foldl (fun s r => s.reqGo r.id) s
    let s := s.demand
    let s := s.res.batches.foldl (fun s b => match s.res.batches.find? fun x => x.id = b.id with
      | some b => s.batchGo b
      | none => s) s
    s.res.reqs.foldl (fun s r => s.reqGo r.id) s

end Sys2Proof.Machine
end

