-- ==== Sys2Proof/Machine/Ixcia.lean ====
section
/-! DEFINITION. Sending over Ixcia (R375 to R388): conduits, packets, paths, acknowledgements, retransmission, and what an
outbound access asks of a remote node. -/

namespace Sys2Proof.Machine

/-! ### Ports and conduits -/

/-- A register of the page of cantle `cn`. -/
def cnReg (cn off : Nat) : Nat := pageOf (84 + cn) + off

/-- Whether port `cn` is up. -/
def State.portUp (s : State) (cn : Nat) : Bool := s.live (84 + cn) && s.fld (cnReg cn 0x4000) 0 2 = 2

/-- The port-up mask. -/
def State.portMask (s : State) : Nat := (List.range 16).foldl (fun v p => v + 2 ^ p * b2n (s.portUp p)) 0

/-- The home cantle of the conduit of node `r` (R375). -/
def State.condHome (s : State) (r : Nat) : Option Nat := ((List.range 16).map fun i => (r + i) % 16).find? fun c => s.live (84 + c)

/-- The ticks by which the conduit of node `r` measures its intervals (R44): those of its home cantle. -/
def State.condTk (s : State) (r : Nat) : Nat := s.tk (84 + (s.condHome r).getD 0)

/-- The conduit of node `r`. -/
def State.conduit (s : State) (r : Nat) : Conduit := sGet {} s.peer.conduits r

/-- Set the conduit of node `r`. -/
def State.setConduit (s : State) (r : Nat) (c : Conduit) : State :=
  { s with peer := { s.peer with conduits := sPut {} s.peer.conduits r c } }

/-- The port record of a cantle. -/
def State.portQ (s : State) (cn : Nat) : PortQ := sGet {} s.peer.ports cn

/-- Set the port record of a cantle. -/
def State.setPortQ (s : State) (cn : Nat) (q : PortQ) : State := { s with peer := { s.peer with ports := sPut {} s.peer.ports cn q } }

/-- A status flag of a cantle (R399). -/
def State.perFlag (s : State) (cn b : Nat) : State := s.raise (cnReg cn 0x4004) b (cnReg cn (0x4008 + 4 * b))

/-- This node's ID. -/
def State.nodeId (s : State) : Nat := s.odNum 0x6000 1

/-- IXC_MTU. -/
def State.mtu (s : State) : Nat := s.odNum 0x6000 7

/-- The bytes of the frame of a packet (R378): Ethernet header and tag, Ixcia header, payload, trailer, FCS. -/
def State.wireBytes (s : State) (p : Packet) : Nat :=
  14 + (if s.odNum 0x6000 5 = 0 then 0 else 4) + 40 + p.payload.length + (if p.secure then 16 else 4) + 4

/-- A sequence number lies at or beyond another (R382). -/
def psnGe (p e : W32) : Bool := (p - e).toNat < 2 ^ 31

/-! ### Packets -/

/-- A packet of this node for node `r`, in the clear, with an empty body. -/
def State.blank (s : State) (r : Nat) : Packet :=
  { version := 1, secure := false, fenced := false, retx := false, ecnEcho := false, srcNode := s.nodeId, dstNode := r,
    psn := 0, ackPsn := (s.conduit r).expect, addr := 0, tag := 0, partition := 0, status := 0, incarnation := s.incarnation,
    lineMap := 0, payload := [], sealOk := true, ecn := false }

/-- The MAC address of port `p` of node `n` (R373). -/
def portMac (pre n p : Nat) : BitVec 48 := BitVec.ofNat 48 (0x02 * 2 ^ 40 + pre % 2 ^ 16 * 2 ^ 24 + n % 2 ^ 14 * 2 ^ 8 + p % 16)

/-- The Ethernet header of a frame from port `cn` to port `rport` of node `r` (R373, R378). -/
def State.ethHdr (s : State) (cn r rport : Nat) : EthHdr :=
  let vid := s.odNum 0x6000 5
  let pre := s.odNum 0x6000 2
  { dst := portMac pre r rport, src := portMac pre s.nodeId cn, tag := if vid = 0 then none else some (s.odNum 0x6000 4, vid),
    etherType := s.odNum 0x6000 3 }

/-- The 40-byte Ixcia header (R378). -/
def pktHeader (p : Packet) (type : Nat) : Bytes :=
  leBytes 1 (type + 16 * p.version) ++ leBytes 1 (b2n p.secure + 2 * b2n p.fenced + 4 * b2n p.retx + 8 * b2n p.ecnEcho) ++
    leBytes 2 p.srcNode ++ leBytes 2 p.dstNode ++ leBytes 2 p.payload.length ++ leBytes 4 p.psn.toNat ++ leBytes 4 p.ackPsn.toNat ++
    leBytes 8 p.addr.toNat ++ leBytes 4 p.tag.toNat ++ leBytes 1 p.partition ++ leBytes 1 p.status ++
    leBytes 2 p.incarnation.toNat ++ leBytes 8 p.lineMap.toNat

/-- One bit of the CRC-32C, of the reflected polynomial. -/
def crcBit (c : W32) : W32 := if c.getLsbD 0 then (c >>> 1) ^^^ 0x82F63B78#32 else c >>> 1

/-- The CRC-32C of a byte string (R378). -/
def crc32c (b : Bytes) : W32 :=
  ~~~(b.foldl (fun c x => (List.range 8).foldl (fun c _ => crcBit c) (c ^^^ x.setWidth 32)) 0xFFFFFFFF#32)

/-- Whether a TYPE is sequenced (R378). -/
def sequenced (type : Nat) : Bool := type < 6

/-- The nonce of a packet (R385). PRESUMED: its fields stand least significant byte first (log entry 94). -/
def pktNonce (p : Packet) (type : Nat) : Bytes :=
  leBytes 2 p.srcNode ++ leBytes 2 p.dstNode ++ leBytes 4 p.psn.toNat ++ leBytes 2 p.incarnation.toNat ++
    leBytes 2 (if sequenced type then 0 else 1)

/-! ### Keys (R385, R460 to R462) -/

/-- The word of key slot `k` (R463). -/
def State.keyWord (s : State) (k : Nat) : W32 := s.rd (0x2800 + 4 * k)

/-- The key slot of partition `p` for node `r` that has a key. -/
def State.keySlot (s : State) (p r : Nat) : Option Nat :=
  (List.range 512).find? fun k =>
    let w := s.keyWord k
    2 ≤ getBits w 0 3 && getBits w 3 6 = p && getBits w 9 14 = r

/-- The keys of slot `k`. -/
def State.keyMat (s : State) (k : Nat) : KeyMat := sGet {} s.sec.keys k

/-- The key that slot `k` sends under (R461). -/
def State.sendKey (s : State) (k : Nat) : Option (BitVec 256) :=
  let m := s.keyMat k
  if getBits (s.keyWord k) 0 3 = 5 then m.next else m.cur

/-- What closes the frame of a packet before its FCS (R378, R385): the CRC-32C of header and payload, or the ciphertext and the tag
under the key that partition `part` sends under at this moment; none where that key is gone. -/
def State.trailer (s : State) (w : WirePkt) : Option Bytes :=
  let h := pktHeader w.pkt w.type
  if !w.pkt.secure then some (leBytes 4 (crc32c (h ++ w.pkt.payload)).toNat)
  else (w.part.bind fun p => s.keySlot p w.pkt.dstNode).bind fun k =>
    (s.sendKey k).map fun key => Config.gcm key (pktNonce w.pkt w.type) h w.pkt.payload

/-- Put a packet on the wire of port `cn`, or hold it there while its priority is paused (R372, R381). While peers are disabled
nothing leaves (R374), and nothing leaves under a key that is gone. -/
def State.wire (s : State) (cn : Nat) (w : WirePkt) : State :=
  let q := s.portQ cn
  let pcp := s.odNum 0x6000 4
  if !s.peerEn then s
  else if q.paused.testBit pcp && (s.odNum 0x6000 6).testBit pcp then s.setPortQ cn { q with held := q.held ++ [w] }
  else match s.trailer w with
  | none => s
  | some t =>
    (s.inc64sat (cnReg cn 0x4020) (s.wireBytes w.pkt)).emit (.ixcia cn w.type (s.ethHdr cn w.pkt.dstNode w.rport) w.pkt t)

/-- Bytes queued on a port. -/
def State.queued (s : State) (cn : Nat) : Nat := (s.portQ cn).held.foldl (fun n p => n + s.wireBytes p.pkt) 0

/-- Choose the path of a packet for node `r` (R380): the local port with the fewest bytes queued, the next port of the remote
mask in rotation; excluded paths take one packet in 1,024, and the path `bad` that failed is avoided where another exists.
Which of equal local ports is taken is free. -/
def State.choosePath (s : State) (r : Nat) (bad : Option (Nat × Nat)) : Option (Nat × Nat) × State :=
  let c := s.conduit r
  let locals := (List.range 16).filter s.portUp
  let remotes := ((List.range 16).map fun i => (c.rot + 1 + i) % 16).filter fun p => c.mask.testBit p
  let all := remotes.flatMap fun b => locals.map fun a => (a, b)
  let out (p : Nat × Nat) : Bool := c.excl.any fun e => e.lport = p.1 && e.rport = p.2
  match c.excl.find? fun e => 1023 ≤ e.count && all.contains (e.lport, e.rport) && some (e.lport, e.rport) ≠ bad with
  | some e =>
    (some (e.lport, e.rport), s.setConduit r { c with excl := c.excl.map fun x => if x = e then { x with count := 0 } else x })
  | none =>
    let good := all.filter fun p => !out p && some p ≠ bad
    let good := if good.isEmpty then all.filter fun p => some p ≠ bad else good
    let good := if good.isEmpty then all else good
    match good with
    | [] => (none, s)
    | g :: _ =>
      let opts := good.filter fun p => p.2 = g.2
      let least := opts.foldl (fun m p => min m (s.queued p.1)) (s.queued g.1)
      let ties := opts.filter fun p => s.queued p.1 = least
      let (k, s) := s.draw
      let c := { c with rot := g.2, excl := c.excl.map fun x => { x with count := x.count + 1 } }
      (ties[Config.victim k % ties.length]?, s.setConduit r c)

/-- Send a packet to node `r` on a path chosen now; with no path nothing leaves. The receiver's acknowledgement travels with
it. -/
def State.sendOn (s : State) (r type : Nat) (part : Option Nat) (p : Packet) (bad : Option (Nat × Nat)) :
    Option (Nat × Nat) × State :=
  match s.choosePath r bad with
  | (none, s) => (none, s)
  | (some w, s) =>
    (some w, s.wire w.1 { type := type, rport := w.2, part := part, pkt := { p with ackPsn := (s.conduit r).expect } })

/-- Send an ACK to node `r` (R378, R382): it carries the control counter, the port-up mask, the SACK bitmap and ECN_ECHO. -/
def State.sendAck (s : State) (r : Nat) : State :=
  let c := s.conduit r
  let sack := (List.range 64).foldl (fun v i => v + 2 ^ i * b2n (c.got.contains (c.expect + 1 + BitVec.ofNat 32 i))) 0
  let s := s.setConduit r { c with ctl := c.ctl + 1, owed := 0, ecn := false }
  let p : Packet :=
    { s.blank r with psn := c.ctl, addr := BitVec.ofNat 64 s.portMask, lineMap := BitVec.ofNat 64 sack, ecnEcho := c.ecn }
  (s.sendOn r 6 none p none).2

/-- Send a PROBE, or its answer: it carries the sender's next PSN and its port-up mask (R376). It goes out on any port that is
up, to the next port of the last mask that the node reported; while it has reported none, which of its ports is free (log entry 94). -/
def State.sendProbe (s : State) (r : Nat) (rsp : Bool) : State :=
  let c := s.conduit r
  match (List.range 16).filter s.portUp with
  | [] => s
  | l =>
    let (k, s) := s.draw
    match l[Config.victim k % l.length]? with
    | none => s
    | some cn =>
      let (j, s) := s.draw
      let near := ((List.range 16).map fun i => (c.rot + 1 + i) % 16).find? fun p => c.mask.testBit p
      s.wire cn { type := if rsp then 8 else 7, rport := near.getD (Config.victim j % 16), part := none,
                  pkt := { s.blank r with psn := c.next, payload := leBytes 2 s.portMask } }

/-- The sequenced bytes unacknowledged. -/
def Conduit.outBytes (c : Conduit) : Nat := c.unacked.foldl (fun n u => n + u.pkt.payload.length) 0

/-- The window of a conduit (R381). -/
def State.condWindow (s : State) (c : Conduit) : Nat := if c.window = 0 then s.odNum 0x6000 0x13 else c.window

/-- Whether a slot's key is used up (R385). -/
def State.keyWorn (s : State) (k : Nat) : Bool := 2 ^ 32 - 2 ^ 16 ≤ sGet 0 s.sec.keyUses k

/-- A PSN is used under a slot's key; at 2^31 KEY_WEAR sets (R385, R463). -/
def State.keyUse (s : State) (k cn : Nat) : State :=
  let n := sGet 0 s.sec.keyUses k + 1
  let s := { s with sec := { s.sec with keyUses := sPut 0 s.sec.keyUses k n } }
  if n = 2 ^ 31 then (s.perFlag cn 4).raise 0x2004 1 0x200C else s

/-! ### Outbound requests -/

/-- An outbound request. -/
def State.remReq? (s : State) (id : Nat) : Option RemReq := s.peer.reqs.find? fun q => q.id = id

/-- Set an outbound request. -/
def State.setRem (s : State) (q : RemReq) : State :=
  { s with peer := { s.peer with reqs := s.peer.reqs.map fun x => if x.id = q.id then q else x } }

/-- Forget an outbound request and the packets of it that have not been sent. -/
def State.dropRem (s : State) (id : Nat) : State :=
  { s with peer := { s.peer with reqs := s.peer.reqs.filter fun x => x.id ≠ id } }

/-- An access at a remote node ends here: its status and data; a tag that is retired is absorbed (R432). A failure that the
remote node reports as FAULT or TIMEOUT writes a record (R211). -/
def State.remoteEnd (s : State) (q : RemReq) (status : Nat) (data : Bytes) (pz : List Bool) (far : Bool) : State :=
  let s := if far && (status = 5 || status = 9) then
      s.errCtx q.ctx 5 0x0503 (84 + (s.condHome q.node).getD 0) status q.va q.node else s
  let keep : Bool := match q.src with
    | .chan _ _ => q.kind = .store && status = 0
    | _ => false
  let s := if keep then s.setRem { q with acked := true } else s.dropRem q.id
  match s.acc? q.acc with
  | none => s
  | some a =>
    if a.ph = .done then s
    else if a.retired then (s.dropAcc a.id).inc (0x140 + 4 * skirtOf a.station)
    else s.setAcc { a with ph := .done, status := status, data := data, pz := pz }

/-! ### Sending sequenced packets -/

/-- Send what the conduit of node `r` lets go: PSN and path are assigned now (R379, R381), and the payload counts at the
cantle that transmits (R450). A protected packet whose key is used up or gone is not sent, and its access ends with DENIED
(R385). The fuel is the number of packets that wait. -/
def State.pump (s : State) (r : Nat) : Nat → State
  | 0 => s
  | n + 1 =>
    let c := s.conduit r
    match c.queue with
    | [] => s
    | o :: rest =>
      let p := o.pkt
      if c.state ≠ 2 || 4096 ≤ c.unacked.length ||
          (!c.unacked.isEmpty && s.condWindow c < c.outBytes + p.payload.length) then s
      else
        let key := o.part.bind fun x => s.keySlot x r
        let home := (s.condHome r).getD 0
        if p.secure && (match key with
            | some k => s.keyWorn k
            | none => true) then
          let s := s.setConduit r { c with queue := rest }
          let s := match o.req.bind s.remReq? with
            | some q => s.remoteEnd q 4 [] [] false
            | none => s
          s.pump r n
        else
          let p := { p with psn := c.next }
          let s := s.setConduit r { c with next := c.next + 1, queue := rest }
          let s := match key with
            | some k => if p.secure then s.keyUse k home else s
            | none => s
          let (w, s) := s.sendOn r o.type o.part p none
          let (a, b) := w.getD (home, 0)
          let s := match o.part with
            | some x => if w.isSome then s.moveBytes (84 + a) x 0 p.payload.length else s
            | none => s
          let c := s.conduit r
          let u : TxPkt := { type := o.type, pkt := p, lport := a, rport := b, sent := s.condTk r, req := o.req, part := o.part }
          (s.setConduit r { c with unacked := c.unacked ++ [u] }).pump r n

/-- Start a probe on a DOWN conduit (R376). -/
def State.probe (s : State) (r : Nat) : State :=
  let c := s.conduit r
  if c.state ≠ 0 then s
  else (s.setConduit r { c with state := 1, tries := 1, probeAt := s.condTk r }).sendProbe r false

/-! ### Cached conduits (R375) -/

/-- The home cantle's access to the state of conduit `r` passes its guard, which expects kind 11, ID IXCIA_CONDUIT and
partition 0. -/
def State.condOpen (s : State) (r : Nat) : Nat × State :=
  s.guardCheck (s.odNum 0x6000 8 / 4096 + r / 16) (ownerWord 0 3 0x30) { ctx := none, station := 84 + (s.condHome r).getD 0 }

/-- Whether conduit `r` has a packet outstanding. -/
def State.condBusy (s : State) (r : Nat) : Bool := !((s.conduit r).unacked.isEmpty && (s.conduit r).queue.isEmpty)

/-- The home cantle of conduit `r` holds it in its cache of 256 (R375): `none` when it does, `some 0` where it must wait because every
conduit there has a packet outstanding, else the status with which its guard refuses it. The least recently used conduit without
one is written back. DESIGN CHOICE: what a conduit that must wait, or is refused, holds up (log entry 92). -/
def State.condLoad (s : State) (r : Nat) : Option Nat × State :=
  let keep (s : State) (l : List Nat) : State := { s with peer := { s.peer with cached := r :: l.filter (· ≠ r) } }
  let l := s.peer.cached
  if l.contains r then (none, keep s l)
  else
    let mates := l.filter fun x => s.condHome x = s.condHome r
    match (if mates.length < 256 then some none else (mates.reverse.find? fun x => !s.condBusy x).map some) with
    | none => (some 0, s)
    | some v =>
      match s.condOpen r with
      | (0, s) =>
        (match v with
        | none => (none, keep s l)
        | some v => let (_, s) := s.condOpen v; (none, keep s (l.filter (· ≠ v))))
      | (st, s) => (some st, s)

/-- Take the waiting packets of conduit `r` off with a status. -/
def State.condFail (s : State) (r st : Nat) : State :=
  let q := (s.conduit r).queue
  (q.filterMap fun o => o.req.bind s.remReq?).foldl (fun s q => s.remoteEnd q st [] [] false)
    (s.setConduit r { s.conduit r with queue := [] })

/-- What waits on conduit `r` goes on once the conduit is cached; a DOWN conduit is probed first. -/
def State.condGo (s : State) (r : Nat) : State :=
  match s.condLoad r with
  | (none, s) => (s.probe r).pump r ((s.conduit r).queue.length)
  | (some 0, s) => s
  | (some st, s) => s.condFail r st

/-- Queue sequenced packets for node `r`, and send what can go. -/
def State.queuePkts (s : State) (r : Nat) (ps : List OutPkt) : State :=
  let c := s.conduit r
  (s.setConduit r { c with queue := c.queue ++ ps }).condGo r

/-! ### Packets of outbound requests -/

/-- The pieces of `n` bytes at remote address `a`, cut at IXC_MTU boundaries (R379). -/
def mtuCut (mtu a : Nat) : Nat → Nat → List (Nat × Nat)
  | 0, _ => []
  | _, 0 => []
  | f + 1, n =>
    let k := min n (mtu - a % mtu)
    (a, k) :: mtuCut mtu (a + k) f (n - k)

/-- LINE_MAP for bytes at address `a` (R378). -/
def lineMapOf (a : Nat) (pz : List Bool) : W64 :=
  BitVec.ofNat 64 ((pz.zipIdx).foldl (fun v e => if e.1 then Nat.lor v (2 ^ ((a % 64 + e.2) / 64 % 64)) else v) 0)

/-- Poison per byte of `n` bytes at address `a` from a LINE_MAP. -/
def lineFlags (a n : Nat) (m : W64) : List Bool := (List.range n).map fun i => m.getLsbD ((a % 64 + i) / 64)

/-- The outbound request that a TAG names: TAG holds the low 29 bits of its number, and the number of its packet below them. -/
def State.tagOf (s : State) (t : W32) : Option RemReq := s.peer.reqs.find? fun q => q.id % 2 ^ 29 = t.toNat / 8

/-- The packets of an outbound request, each under a TAG of its own, in the clear or protected for partition `part` of the receiver (R379, R462). A load
asks for the aligned 8-byte words that hold its bytes. -/
def State.reqPkts (s : State) (q : RemReq) (op : AccOp) (sec : Option Nat) : List OutPkt :=
  let base : Packet := { s.blank q.node with secure := sec.isSome, partition := sec.getD 0 }
  let mk (t i : Nat) (p : Packet) : OutPkt :=
    { type := t, pkt := { p with tag := BitVec.ofNat 32 (q.id * 8 + i) }, req := some q.id, part := some (s.ctx q.ctx).part }
  match q.kind, op with
  | .store, .store d pz =>
    (mtuCut s.mtu q.pa 5 q.len).zipIdx.map fun (e, i) =>
      let o := e.1 - q.pa
      mk 1 i { base with addr := BitVec.ofNat 64 e.1, payload := (d.drop o).take e.2, lineMap := lineMapOf e.1 ((pz.drop o).take e.2) }
  | .atomic, .signal v =>
    [mk 4 0 { base with addr := BitVec.ofNat 64 q.pa, payload := leBytes 8 v, fenced := true }]
  | _, _ =>
    let a := q.pa / 8 * 8
    let n := (q.pa + q.len + 7) / 8 * 8 - a
    (mtuCut s.mtu a 6 n).zipIdx.map fun (e, i) => mk 2 i { base with addr := BitVec.ofNat 64 e.1, payload := leBytes 4 e.2 }

/-- The read-back of the line that holds the last byte of a request's writes (R275, R322): a FENCED READ_REQ. -/
def State.backPkt (s : State) (q : RemReq) (sec : Option Nat) : OutPkt :=
  { type := 2, req := some q.id, part := some (s.ctx q.ctx).part,
    pkt := { s.blank q.node with tag := BitVec.ofNat 32 (q.id * 8 + 7), secure := sec.isSome, partition := sec.getD 0, fenced := true,
                                 addr := BitVec.ofNat 64 ((q.pa + q.len - 1) / 64 * 64), payload := leBytes 4 64 } }

/-- How partition `p` sends to node `r` (R462): `none` is DENIED, else the receiver's partition where the packet is
protected. -/
def State.protection (s : State) (p r : Nat) : Option (Option Nat) :=
  match s.keySlot p r with
  | some k => if s.keyWorn k then none else some (some (getBits (s.keyWord k) 23 6))
  | none => if s.bit (partReg p 0) 4 then none else some none

/-- The response data of a load, put together from its parts. -/
def RemReq.bytes (q : RemReq) : Bytes × List Bool :=
  let at_ (x : Nat) : Byte × Bool :=
    match q.parts.find? fun p => p.1 ≤ x && x < p.1 + p.2.1.length with
    | some p => ((p.2.1[x - p.1]?).getD 0, p.2.2)
    | none => (0, true)
  let l := (List.range q.len).map fun i => at_ (q.pa + i)
  (l.map Prod.fst, l.map Prod.snd)

/-- Send access `a` to its node (R374, R379, R388, R462): refused with LAME while peers are disabled, with DENIED where it
may not be sent. -/
def State.ixciaSend (s : State) (id : Nat) : State :=
  match s.acc? id with
  | none => s
  | some a =>
    if a.kind ≠ 3 || a.ph ≠ .ready || a.sent then s
    else if !s.peerEn || (s.condHome a.node).isNone then s.endAcc id 11
    else
      let p := (s.ctx a.ctx).part
      match s.protection p a.node with
      | none => s.endAcc id 4
      | some sec =>
        let kind : RemKind := match a.op with
          | .store _ _ => .store
          | .signal _ => .atomic
          | _ => .load
        let fenced := match a.op with
          | .touch => true
          | _ => false
        let pos := match a.src with
          | .chan st ch => (match s.chan? (chanKey st ch) with
            | some c => (match (c.wfly ++ c.fly).find? fun e => e.1 = id with
              | some e => e.2.pos
              | none => 0)
            | none => 0)
          | _ => 0
        let q : RemReq := { id := s.peer.nextReq, node := a.node, acc := id, src := a.src, kind := kind, ctx := a.ctx,
                            va := a.va, pa := a.pa, len := a.len, pos := pos, since := s.condTk a.node, back := fenced }
        let ps := if fenced then [s.backPkt q sec] else s.reqPkts q a.op sec
        let q := { q with left := ps.length }
        let s := { s with peer := { s.peer with reqs := s.peer.reqs ++ [q], nextReq := s.peer.nextReq + 1 } }
        (s.setAcc { a with sent := true }).queuePkts a.node ps

/-- Every access outstanding on the conduit of node `r` ends with TIMEOUT, and the conduit is DOWN (R376, R383). -/
def State.condDown (s : State) (r : Nat) : State :=
  let c := s.conduit r
  let s := s.setConduit r { c with state := 0, tries := 0, unacked := [], queue := [], fails := [], excl := [] }
  (s.peer.reqs.filter fun q => q.node = r).foldl (fun s q => if q.acked && !q.back then s else s.remoteEnd q 9 [] [] false) s

/-- The conduit of node `r` is lost (R383, R414): CONDUIT_DOWN sets, a record names the node, and the conduit goes DOWN. -/
def State.condLost (s : State) (r : Nat) : State :=
  let home := (s.condHome r).getD 0
  ((s.perFlag home 2).err { cls := 5, code := 0x0502, station := 84 + home, detail := r }).condDown r

/-! ### Acknowledgements -/

/-- All packets of a request are acknowledged: a channel's write is acknowledged to its channel; a tile's store or a signal
sends its read-back (R322, R388). -/
def State.reqAcked (s : State) (q : RemReq) : State :=
  match q.src with
  | .chan _ _ => s.remoteEnd q 0 [] [] false
  | _ =>
    match s.protection (s.ctx q.ctx).part q.node with
    | none => s.remoteEnd q 4 [] [] false
    | some sec => (s.setRem { q with back := true }).queuePkts q.node [s.backPkt q sec]

/-- A packet was acknowledged: its request counts it. -/
def State.pktAcked (s : State) (u : TxPkt) : State :=
  match u.req.bind s.remReq? with
  | none => s
  | some q =>
    if q.kind = .load || q.back then s
    else
      let q := { q with left := q.left - 1 }
      let s := s.setRem q
      if q.left = 0 then s.reqAcked q else s

/-- Send an unacknowledged packet again, on another path where one exists (R380, R383). After IXC_RETRY_MAX + 1 sends the
conduit goes DOWN. -/
def State.resendPkt (s : State) (r : Nat) (u : TxPkt) : State :=
  if s.odNum 0x6000 0x11 + 1 ≤ u.sends then s.condLost r
  else
    let (w, s) := s.sendOn r u.type u.part { u.pkt with retx := true } (some (u.lport, u.rport))
    let (a, b) := w.getD (u.lport, u.rport)
    let s := s.inc (cnReg a 0x403C)
    let c := s.conduit r
    s.setConduit r { c with unacked := c.unacked.map fun x =>
      if x.pkt.psn = u.pkt.psn then { x with lport := a, rport := b, sends := x.sends + 1, sent := s.condTk r } else x }

/-- The acknowledgement that a packet from node `r` carries (R382, R383): PSNs below `p` are received. -/
def State.ackBelow (s : State) (r : Nat) (p : W32) : State :=
  let c := s.conduit r
  let done := c.unacked.filter fun u => !psnGe u.pkt.psn p
  let s := s.setConduit r { c with unacked := c.unacked.filter fun u => psnGe u.pkt.psn p }
  (done.filter fun u => !u.sacked).foldl (fun s u => s.pktAcked u) s

/-- An ACK (R378, R381, R383): port mask, SACK, window, and packets that four later ones have overtaken are sent again. -/
def State.ackGot (s : State) (r : Nat) (p : Packet) : State :=
  let c := s.conduit r
  let w := s.condWindow c
  let w := if p.ecnEcho then max (16 * s.mtu) (w / 2) else min (s.odNum 0x6000 0x13) (w + s.mtu)
  let hit (u : TxPkt) : Bool :=
    let d := (u.pkt.psn - p.ackPsn).toNat
    1 ≤ d && d ≤ 64 && p.lineMap.getLsbD (d - 1)
  let now := c.unacked.filter fun u => hit u && !u.sacked
  let s := s.setConduit r { c with window := w, mask := p.addr.toNat % 65536,
                                   unacked := c.unacked.map fun u => if hit u then { u with sacked := true } else u }
  let s := now.foldl (fun s u => s.pktAcked u) s
  let c := s.conduit r
  let late := c.unacked.filter fun u => !u.sacked &&
    4 ≤ (c.unacked.filter fun v => v.sacked && psnGe v.pkt.psn u.pkt.psn).length
  let s := late.foldl (fun s u => if (s.conduit r).state = 2 then s.resendPkt r u else s) s
  let c := s.conduit r
  s.setConduit r { c with unacked := c.unacked.filter fun u => !(u.sacked && !psnGe u.pkt.psn p.ackPsn) }

end Sys2Proof.Machine
end

