-- ==== Sys2Proof/Machine/Inbound.lean ====
section
/-! DEFINITION. Receiving over Ixcia (R376 to R391) and the RoCEv2 subset (R393 to R396): peer windows, checks, inbound
accesses and their answers. -/

namespace Sys2Proof.Machine

/-! ### Windows (R386, R387) -/

/-- The window that an entry describes. -/
def winOf (b : Bytes) : Win :=
  let f (o w : Nat) : Nat := fieldAt b o w
  { base := f 0 8, pages := f 8 8, ctx := f 16 4, gen := f 20 4, source := f 24 2 % 2 ^ 14, any := (f 24 2).testBit 14,
    rights := f 26 1, op := f 27 1, fmt := f 28 1, round := f 29 1, seed := f 32 4, rkey := f 36 4 }

/-- RIGHTS.ROCE. -/
def Win.roce (w : Win) : Bool := w.rights.testBit 5

/-- RIGHTS.ROA. -/
def Win.roa (w : Win) : Bool := w.rights.testBit 3

/-- Whether a window admits a sender: a node, or with `roce` a queue pair. -/
def Win.admits (w : Win) (roce : Bool) (src : Nat) : Bool := w.roce = roce && (w.any || w.source = src)

/-- Whether `n` bytes at `a` lie in a window. -/
def Win.holds (w : Win) (a n : Nat) : Bool := w.base ≤ a && a + n ≤ w.base + w.pages * 4096

/-- Whether two windows could let in the same access (R387). -/
def Win.clash (v w : Win) : Bool :=
  v.roce = w.roce && (v.any || w.any || v.source = w.source) && meets v.base (v.pages * 4096) w.base (w.pages * 4096)

/-- The checks of a window beyond the match: the right, protection, the context (R385, R387). -/
def State.winCheck (s : State) (w : Win) (right : Bool) (sec : Option Nat) : Nat :=
  let c := s.ctx w.ctx
  if !right then 4
  else if w.rights.testBit 4 && sec ≠ some c.part then 4
  else if c.gen ≠ w.gen || !(c.state = 1 || c.state = 2) then 10
  else 0

/-! ### Inbound accesses -/

/-- The inbound request with a number. -/
def State.inb? (s : State) (k : Nat) : Option Inbound := s.peer.inb.find? fun i => i.k = k

/-- Set an inbound request. -/
def State.setInb (s : State) (i : Inbound) : State :=
  { s with peer := { s.peer with inb := s.peer.inb.map fun x => if x.k = i.k then i else x } }

/-- Forget an inbound request. -/
def State.dropInb (s : State) (k : Nat) : State := { s with peer := { s.peer with inb := s.peer.inb.filter fun x => x.k ≠ k } }

/-- The pages of `n` bytes at `a`: address and length of each piece. -/
def pageCut (a n : Nat) : List (Nat × Nat) := (pieces 0 a n 0).map fun p => (p.va, p.len)

/-- Add an inbound request; its number carries its window (R220). -/
def State.addInb (s : State) (i : Inbound) : Nat × State :=
  let k := s.peer.nextInb * 65536 + i.win
  (k, { s with peer := { s.peer with inb := s.peer.inb ++ [{ i with k := k }], nextInb := s.peer.nextInb + 1 } })

/-- Issue the accesses of an inbound request: one for each page, with the operation that `f` gives its offset and length. -/
def State.inbIssue (s : State) (k addr len : Nat) (write : Bool) (f : Nat → Nat → AccOp) : State :=
  match s.inb? k with
  | none => s
  | some i =>
    let ps := pageCut addr len
    let s := s.setInb { i with left := ps.length, addr := addr, len := len }
    ps.foldl (fun s p =>
      (s.issue { id := 0, src := .inbound k, station := 84 + i.cn, ctx := i.w.ctx, gen := i.w.gen, va := p.1, len := p.2,
                 write := write, op := f (p.1 - addr) p.2 }).2) s

/-- The line home of a frame (R390): a cantle index. -/
def State.lineHome (s : State) (f : Nat) : Nat :=
  let l := (List.range 16).filter fun c => s.live (84 + c)
  (l[f % l.length]?).getD 0

/-- Combine arriving bytes with those of the destination (R390): at the line home of the frame. DEDUCED: the position that
stochastic rounding uses is the offset in the window (log entry 41). -/
def State.roaCombine (s : State) (w : Win) (a : Access) (d : Bytes) (pz : List Bool) (old : Bytes) (oz : List Bool) : RowOut × State :=
  let rnd : Rnd := if w.round = 1 then some (BitVec.ofNat 32 w.seed) else none
  let r := skvAccum w.op w.fmt w.fmt rnd (a.va - w.base) d pz old oz
  (r, s.skvCount (84 + s.lineHome (a.pa / 4096)) [r] (d.length / unitBytes w.fmt))

/-- The effect of an inbound access at its home: status, data and poison. An inbound access that is itself peer-backed goes no
further. -/
def State.inbEffect (s : State) (a : Access) (w : Win) (uncorrectable : Bool) : Got × State :=
  if a.kind = 3 then ({ status := 5 }, s.errCtx a.ctx 3 0x0301 a.station 5 a.va 0)
  else if a.kind = 1 && s.inOrphan then ({ status := 11 }, s)
  else match a.op with
  | .signal _ =>
    let (g, s) := s.fenceAt (skirtOf a.station) a.kind a.pa a.op a.expect a.who
    ({ status := if g.status ≠ 0 then g.status else if g.outcome = 2 then 1 else 0 }, s)
  | .store d pz =>
    if w.roa && !w.roce then
      if a.kind = 2 then
        let (st, old, oz, s) := s.devRead a.pa a.len a.expect a.who uncorrectable
        if st = 4 || st = 11 then ({ status := st }, s)
        else
          let (r, s) := s.roaCombine w a d pz old oz
          let (st, s) := s.devWrite a.pa r.bytes r.pz a.expect a.who
          ({ status := st }, s)
      else
        let (r, s) := s.roaCombine w a d pz (s.host.read a.pa a.len) (s.host.flags a.pa a.len)
        s.hostAccess { a with op := .store r.bytes r.pz } .ok
    else if a.kind = 2 then
      let (st, s) := s.devWrite a.pa d pz a.expect a.who
      ({ status := st }, s)
    else s.hostAccess a .ok
  | _ =>
    if a.kind = 2 then
      let (st, d, pz, s) := s.devRead a.pa a.len a.expect a.who uncorrectable
      ({ status := st, data := d, pz := pz }, s)
    else s.hostAccess a .ok

/-! ### Answers over Ixcia -/

/-- Answer the sender with a READ_RSP or a NAK (R378, R384), protected as partition `part` sends to it; in the clear with
none. -/
def State.answerAs (s : State) (i : Inbound) (part : Option Nat) (type status : Nat) (data : Bytes) (lm : W64) : State :=
  match (match part with
    | some p => s.protection p i.node
    | none => some none) with
  | none => s
  | some sec =>
    let p : Packet := { s.blank i.node with tag := i.tag, fenced := i.fenced, status := status, payload := data, lineMap := lm,
                                            secure := sec.isSome, partition := sec.getD 0 }
    s.queuePkts i.node [{ type := type, part := part, pkt := p }]

/-- Answer for the partition of the window. -/
def State.answer (s : State) (i : Inbound) (type status : Nat) (data : Bytes) (lm : W64) : State :=
  s.answerAs i (some (s.ctx i.w.ctx).part) type status data lm

/-- A packet of node `r` has been executed (R384). -/
def State.executed (s : State) (r : Nat) (psn : W32) : State :=
  let c := s.conduit r
  s.setConduit r { c with busy := c.busy.filter (· ≠ psn) }

/-- The bytes read for an inbound request, in order. -/
def Inbound.bytes (i : Inbound) : Bytes × List Bool :=
  let l := (pageCut i.addr i.len).filterMap fun p => i.parts.find? fun e => e.1 = p.1
  (l.flatMap fun e => e.2.1, l.flatMap fun e => e.2.2)

/-- An Ixcia request ends: its packet is executed, and the sender is answered. -/
def State.inbEndIxcia (s : State) (i : Inbound) : State :=
  let s := (s.dropInb i.k).executed i.node i.psn
  if i.kind = .read && (i.status = 0 || i.status = 7) then
    let b := i.bytes
    if i.back then s.answer i 3 i.status [] 0 else s.answer i 3 i.status b.1 (lineMapOf i.addr b.2)
  else if i.status = 0 then s
  else s.answer i 5 i.status [] 0

/-! ### RoCEv2 (R393 to R396) -/

/-- Set a queue pair. -/
def State.setQp (s : State) (q : Nat) (x : Qp) : State := { s with peer := { s.peer with qps := sIns s.peer.qps q x } }

/-- PMTU of a queue pair in bytes. -/
def Qp.mtu (x : Qp) : Nat := 1024 * 2 ^ (fieldAt x.entry 30 1 % 4)

/-- The bytes of a RoCEv2 frame of a queue pair (R393, R394) that carries `n` bytes after its base transport header: Ethernet
header and tag, IP, UDP, base transport header, ICRC, FCS. PRESUMED: the header sizes are those of Ethernet, IP, UDP and the
InfiniBand specification (log entry 25). -/
def Qp.frame (x : Qp) (n : Nat) : Nat :=
  14 + (if (fieldAt x.entry 31 1).testBit 1 then 4 else 0) + (if (fieldAt x.entry 31 1).testBit 0 then 40 else 20) + 8 + 12 + n + 8

/-- A RoCEv2 packet with `xh` bytes of extended header was received on queue pair `x` (R399). -/
def State.roceIn (s : State) (p : RocePkt) (x : Qp) (xh : Nat) : State :=
  s.inc64sat (cnReg (p.qp % 16) 0x4028) (x.frame (xh + p.payload.length))

/-- The IP address of the port of queue pair `q` (R394). -/
def State.qpIp (s : State) (q : Nat) (x : Qp) : Bytes :=
  if (fieldAt x.entry 31 1).testBit 0 then s.odBlob 0x6000 (0x30 + q % 16) else leBytes 4 (s.odNum 0x6000 (0x20 + q % 16))

/-- The addressing of what queue pair `q` sends (R394). -/
def State.roceHdr (s : State) (q : Nat) (x : Qp) : RoceHdr :=
  { dst := BitVec.ofNat 48 (leNat ((x.entry.drop 24).take 6).reverse), src := portMac (s.odNum 0x6000 2) s.nodeId (q % 16),
    tci := if (fieldAt x.entry 31 1).testBit 1 then some (fieldAt x.entry 32 2) else none, sip := s.qpIp q x,
    dip := (x.entry.drop 8).take 16, dscp := fieldAt x.entry 34 1, qpn := fieldAt x.entry 0 3 }

/-- Send a RoCEv2 packet on the port of queue pair `q`, unless peers are disabled (R374); `n` bytes follow its base
transport header. -/
def State.roceOut (s : State) (q kind code psn n : Nat) (d : Bytes) : State :=
  match sFind s.peer.qps q with
  | none => s
  | some x =>
    if s.peerEn then
      (s.inc64sat (cnReg (q % 16) 0x4020) (x.frame n)).emit (.roce (q % 16) kind code q psn (s.roceHdr q x) d)
    else s

/-- A NAK of queue pair `q` (R393), counted. PRESUMED: the AETH codes of the InfiniBand specification (log entry 25). -/
def State.roceNak (s : State) (q code psn : Nat) : State :=
  (s.inc (cnReg (q % 16) 0x4054)).roceOut q 1 code psn 4 []

/-- The NAK code for a status (R395): DENIED and STALE are Remote Access Error, FAULT and POISON Invalid Request. A host
without a path is a Remote Access Error too. -/
def roceCode (status : Nat) : Nat := if status = 5 || status = 7 || status = 1 then 0x61 else 0x62

/-- Acknowledge queue pair `q` up to the last PSN before any packet still under way. -/
def State.roceAck (s : State) (q : Nat) : State :=
  match sFind s.peer.qps q with
  | none => s
  | some x =>
    let open_ := (s.peer.inb.filter fun i => i.roce && i.node = q).map fun i => i.psn.toNat
    let d (p : Nat) : Nat := (x.epsn + 2 ^ 24 - p) % 2 ^ 24
    let far := open_.foldl (fun m p => max m (d p)) 0
    s.roceOut q 0 0 ((x.epsn + 2 ^ 25 - far - 1) % 2 ^ 24) 4 []

/-- READ response packets: `n` bytes each, PSNs from that of the request. -/
def State.roceReads (s : State) (q psn mtu : Nat) (first : Bool) (d : Bytes) : Nat → State
  | 0 => s
  | f + 1 =>
    let s := s.roceOut q 3 0 (psn % 2 ^ 24) ((d.take mtu).length + if first || d.length ≤ mtu then 4 else 0) (d.take mtu)
    if d.length ≤ mtu then s else s.roceReads q (psn + 1) mtu false (d.drop mtu) f

/-- Where SEND number `n` of a queue pair lands in its receive ring (R396). -/
def slotVa (x : Qp) (w : Win) (n : Nat) : Nat := w.base + n % 2 ^ fieldAt x.entry 38 1 * 4096

/-- A SEND packet's data goes to its slot; the last packet writes the header first (R396). -/
def State.sendWrite (s : State) (i : Inbound) : State :=
  match sFind s.peer.qps i.node with
  | none => s.dropInb i.k
  | some x =>
    let at_ := slotVa x i.w x.delivered
    let s := (s.setInb { i with kind := .sendData }).setQp i.node { x with inMsg := x.inMsg + i.data.length }
    if i.last then
      -- header and data of a one-packet message go as one write; else the header follows the data
      let hd := leBytes 4 (x.inMsg + i.data.length) ++ leBytes 4 0
      if x.inMsg = 0 then
        let b := hd ++ i.data
        s.inbIssue i.k at_ b.length true fun o n => .store ((b.drop o).take n) (List.replicate n false)
      else
        let s := s.inbIssue i.k (at_ + 8 + x.inMsg) i.data.length true fun o n =>
          .store ((i.data.drop o).take n) (List.replicate n false)
        match s.inb? i.k with
        | none => s
        | some j =>
          let h : Access := { id := 0, src := .inbound i.k, station := 84 + i.cn, ctx := i.w.ctx, gen := i.w.gen, va := at_,
                              len := 8, write := true, op := .store hd (List.replicate 8 false) }
          ((s.setInb { j with left := j.left + 1 }).issue h).2
    else s.inbIssue i.k (at_ + 8 + x.inMsg) i.data.length true fun o n => .store ((i.data.drop o).take n) (List.replicate n false)

/-- A RoCEv2 packet ends: acknowledged, answered or refused; a SEND goes on to its next stage. -/
def State.inbEndRoce (s : State) (i : Inbound) : State :=
  match sFind s.peer.qps i.node with
  | none => s.dropInb i.k
  | some x =>
    let psn := i.psn.toNat
    if i.status ≠ 0 then
      ((s.dropInb i.k).setQp i.node { x with togo := 0, inMsg := 0 }).roceNak i.node (roceCode i.status) psn
    else match i.kind with
    | .read => ((s.dropInb i.k).roceReads i.node psn x.mtu true i.bytes.1 (i.len / x.mtu + 1))
    | .sendCheck =>
      let consumed := leNat i.bytes.1
      if 2 ^ fieldAt x.entry 38 1 ≤ x.delivered - consumed then
        -- the ring is full: RNR, and nothing is written; the packet was not taken
        (((s.dropInb i.k).setQp i.node { x with epsn := psn, inMsg := 0 }).inc (cnReg (i.node % 16) 0x4054)).roceOut
          i.node 2 (fieldAt x.entry 35 1 % 32) psn 4 []
      else s.sendWrite { i with left := 0, parts := [] }
    | .sendData =>
      if !i.last then (s.dropInb i.k).roceAck i.node
      else
        let n := x.delivered + 1
        let s := (s.setQp i.node { x with delivered := n, inMsg := 0, msn := x.msn + 1 }).setInb { i with kind := .sendBack }
        s.inbIssue i.k (fieldAt x.entry 40 8) 8 true fun _ _ => .signal n
    | _ => (s.dropInb i.k).roceAck i.node

/-- One access of an inbound request has ended. -/
def State.inbGot (s : State) (a : Access) (x : Got) : State :=
  let s := s.dropAcc a.id
  match a.src with
  | .inbound k =>
    (match s.inb? k with
    | none => s
    | some i =>
      let i := { i with left := i.left - 1, status := if i.status = 0 then x.status else i.status,
                        parts := i.parts ++ [(a.va, x.data, x.pz)] }
      let s := s.setInb i
      if i.left ≠ 0 then s else if i.roce then s.inbEndRoce i else s.inbEndIxcia i)
  | _ => s

/-- An inbound access that is translated has its effect, and one that ended is answered. A device access waits for its guard
request. -/
def State.inbStep (s : State) (a : Access) : State :=
  match a.src with
  | .inbound k =>
    if a.retired then (if a.ph = .ready && a.kind = 2 then s else s.dropAcc a.id)
    else if a.ph = .done then s.inbGot a { status := a.status }
    else if a.ph = .ready && a.kind ≠ 2 then
      match s.inb? k with
      | none => s.dropAcc a.id
      | some i =>
        let (g, s) := s.inbEffect a i.w false
        s.inbGot a g
    else s
  | _ => s

/-! ### Packets -/

/-- Judge an inbound access and start it, or answer with its failure (R387). -/
def State.inbJudge (s : State) (cn type : Nat) (p : Packet) : State :=
  let a := p.addr.toNat
  let n := if type = 2 then fieldAt p.payload 0 4 else p.payload.length
  let blankWin : Win := { base := 0, pages := 0, ctx := 0, gen := 0, source := 0, any := false, rights := 0 }
  let i0 : Inbound := { k := 0, cn := cn, node := p.srcNode, psn := p.psn, tag := p.tag, kind := .write, fenced := p.fenced || type = 4,
                        win := 0, w := blankWin, addr := a, len := n }
  match s.peer.wins.find? fun e => e.2.admits false p.srcNode && e.2.holds a 1 with
  | none => (((s.inc (cnReg cn 0x4044)).perFlag cn 3).executed p.srcNode p.psn).answerAs i0
      (if p.secure then some p.partition else none) 5 4 [] 0
  | some (k, w) =>
    let i := { i0 with win := k, w := w, kind := if type = 1 then .write else if type = 2 then .read else .atomic }
    let nak (s : State) (st : Nat) : State := (s.executed p.srcNode p.psn).answer i 5 st [] 0
    let back := type = 2 && p.fenced
    let right := if type = 1 then w.rights.testBit 1 else if type = 4 then w.rights.testBit 2
      else w.rights.testBit 0 || back && (w.rights.testBit 1 || w.rights.testBit 2)
    let st := s.winCheck w right (if p.secure then some p.partition else none)
    if !w.holds a n then nak ((s.inc (cnReg cn 0x4044)).perFlag cn 3) 4
    else if st ≠ 0 then nak s st
    else if type = 4 && (a % 8 ≠ 0 || n ≠ 8) || type = 2 && (n < 8 || s.mtu < n || n % 8 ≠ 0 || p.payload.length ≠ 4) ||
        type = 1 && (n = 0 || s.mtu < a % s.mtu + n) || type = 1 && w.roa && (a % unitBytes w.fmt ≠ 0 || n % unitBytes w.fmt ≠ 0) then nak s 1
    else
      let s := s.moveBytes (84 + cn) (s.ctx w.ctx).part 1 p.payload.length
      let (k, s) := s.addInb { i with back := back && !w.rights.testBit 0 }
      let pz := lineFlags a n p.lineMap
      if type = 2 then s.inbIssue k a n false fun _ _ => .load
      else if type = 4 then s.inbIssue k a 8 true fun _ _ => .signal (leNat p.payload)
      else s.inbIssue k a n true fun o m => .store ((p.payload.drop o).take m) ((pz.drop o).take m)

/-- A READ_RSP executes (R384, R388). -/
def State.rspGot (s : State) (cn : Nat) (p : Packet) : State :=
  let i := p.tag.toNat % 8
  match s.tagOf p.tag with
  | none => s
  | some q =>
    if q.node ≠ p.srcNode then s
    else if q.back && i = 7 then
      let touch : Bool := match s.acc? q.acc with
        | some a => a.op = .touch
        | none => false
      s.remoteEnd q (if touch then p.status else 0) [] [] false
    else match (mtuCut s.mtu (q.pa / 8 * 8) 6 ((q.pa + q.len + 7) / 8 * 8 - q.pa / 8 * 8))[i]? with
    | none => s
    | some e =>
      let s := s.moveBytes (84 + cn) (s.ctx q.ctx).part 1 p.payload.length
      let z := lineFlags e.1 p.payload.length p.lineMap
      let more := (p.payload.zip z).zipIdx.map fun x => (e.1 + x.2, [x.1.1], x.1.2)
      let q := { q with left := q.left - 1, parts := q.parts ++ more }
      let s := s.setRem q
      if q.left ≠ 0 then s
      else
        let b := q.bytes
        s.remoteEnd q (if b.2.any id then 7 else 0) b.1 b.2 false

/-- A NAK executes (R384, R388): a channel's write that was acknowledged already takes the failure at its destination
offset. -/
def State.nakGot (s : State) (p : Packet) : State :=
  match s.tagOf p.tag with
  | none => s
  | some q =>
    if q.node ≠ p.srcNode then s
    else if !q.acked then s.remoteEnd q p.status [] [] true
    else
      let s := s.dropRem q.id
      match q.src with
      | .chan st ch =>
        let s := if p.status = 5 || p.status = 9 then
          s.errCtx q.ctx 5 0x0503 (84 + (s.condHome q.node).getD 0) p.status q.va q.node else s
        (match s.chan? (chanKey st ch) with
        | some c =>
          let c := c.fail p.status q.pos 8
          ((s.setChan (chanKey st ch) c).unitsReady (chanKey st ch) c.pulled).chanIssue (chanKey st ch)
        | none => s)
      | _ => s

/-- An accepted packet executes. -/
def State.execPkt (s : State) (cn type : Nat) (p : Packet) : State :=
  if type = 3 then (s.rspGot cn p).executed p.srcNode p.psn
  else if type = 5 then (s.nakGot p).executed p.srcNode p.psn
  else s.inbJudge cn type p

/-- Advance the next expected PSN over packets that came. The fuel is their number. -/
def advancePsn (got : List W32) (e : W32) : Nat → W32
  | 0 => e
  | n + 1 => if got.contains e then advancePsn got (e + 1) n else e

/-- A sequenced packet (R382): a duplicate is acknowledged again, one beyond the window is dropped, another is accepted and
executes once, a FENCED one when its turn comes. -/
def State.seqGot (s : State) (cn type : Nat) (p : Packet) : State :=
  let r := p.srcNode
  let c := s.conduit r
  if !psnGe p.psn c.expect || c.got.contains p.psn then s.sendAck r
  else if 4096 ≤ (p.psn - c.expect).toNat then s.inc (cnReg cn 0x4050)
  else
    let got := p.psn :: c.got
    let e := advancePsn got c.expect got.length
    let fenced := p.fenced || type = 4
    let c := { c with got := got.filter fun x => psnGe x e, expect := e, busy := c.busy ++ [p.psn], owed := c.owed + 1,
                      owedAt := if c.owed = 0 then s.condTk r else c.owedAt, ecn := c.ecn || p.ecn,
                      fenced := if fenced then c.fenced ++ [(cn, type, p)] else c.fenced }
    let s := s.setConduit r c
    let s := if 16 ≤ c.owed then s.sendAck r else s
    if fenced then s else s.execPkt cn type p

/-- Whether a FENCED packet may execute (R384): every lower PSN has come, executed, and its writes have landed. -/
def Conduit.ripe (c : Conduit) (psn : W32) : Bool :=
  !psnGe psn c.expect && c.busy.all fun x => x = psn || psnGe x psn

/-- A frame on the port of cantle `cn`, with what the FEC and the FCS say of it (R372): `f` takes a good one. -/
def State.macGot (s : State) (cn : Nat) (e : FrameErr) (fixed : Nat) (f : State → State) : State :=
  let s := s.inc (cnReg cn 0x4030) fixed
  match e with
  | .uncorrected => s.inc (cnReg cn 0x4034)
  | .badFcs => s.inc (cnReg cn 0x4038)
  | .good => f s

/-- A packet arrives on the port of cantle `cn` and passes the checks that all packets meet (R374, R377, R378): `f` takes it. One whose
conduit cannot be cached is not taken, and its sender sends it again (R375, R383). -/
def State.ixGot (s : State) (cn : Nat) (p : Packet) (probe : Bool) (f : State → State) : State :=
  if !(cn < 16 && s.portUp cn) then s
  else s.macGot cn p.frame p.fixed fun s =>
  if !s.peerEn then s.inc (cnReg cn 0x4048)
  else
    let s := s.inc64sat (cnReg cn 0x4028) (s.wireBytes p)
    let keyed := !p.secure || (s.keySlot p.partition p.srcNode).isSome
    if p.version ≠ 1 || p.dstNode ≠ s.nodeId || 2 ^ 14 ≤ p.srcNode then s
    else if !(p.sealOk && keyed) then (s.inc (cnReg cn 0x4040)).perFlag cn 1
    else match s.condLoad p.srcNode with
    | (some _, s) => s
    | (none, s) =>
    if probe then f s
    else if (s.conduit p.srcNode).inc ≠ some p.incarnation then s.inc (cnReg cn 0x404C)
    else
      let s := f (if (s.conduit p.srcNode).state = 2 then s.ackBelow p.srcNode p.ackPsn else s)
      s.pump p.srcNode (s.conduit p.srcNode).queue.length

/-- A PROBE (R376): the receiving direction for its sender is set up, and answered. -/
def State.probeGot (s : State) (p : Packet) : State :=
  let r := p.srcNode
  let c := s.conduit r
  (s.setConduit r { c with expect := p.psn, got := [], fenced := [], busy := [], owed := 0, ecn := false,
                           inc := some p.incarnation, mask := fieldAt p.payload 0 2 }).sendProbe r true

/-- A PROBE_RSP (R376): the conduit is OPEN, and what waited goes out. -/
def State.probeRspGot (s : State) (p : Packet) : State :=
  let r := p.srcNode
  let c := s.conduit r
  if c.state ≠ 1 then s
  else
    let s := s.setConduit r { c with state := 2, tries := 0, inc := some p.incarnation, mask := fieldAt p.payload 0 2 }
    s.pump r c.queue.length

/-! ### RoCEv2 packets -/

/-- The checks that every RoCEv2 packet meets (R393, R394): `f` takes a good packet with the PSN expected, on queue pair `x`;
`xh` is the size of its extended header. A duplicate is acknowledged again unless it is still under way. DESIGN
CHOICE: one at another port or address is dropped and counted in PER_ROCE_NAKS (log entry 95). -/
def State.roceGot (s : State) (p : RocePkt) (xh : Nat) (f : State → Qp → State) : State :=
  let cn := p.cn
  if !(cn < 16 && s.portUp cn) || 2 ^ 24 ≤ p.psn then s
  else s.macGot cn p.frame p.fixed fun s =>
  if !s.peerEn then s.inc (cnReg cn 0x4048)
  else if !p.icrcOk then s
  else match sFind s.peer.qps p.qp with
  | none => s.inc (cnReg cn 0x4054)
  | some x =>
    if x.clearing || cn ≠ p.qp % 16 || p.ip ≠ s.qpIp p.qp x then s.inc (cnReg cn 0x4054)
    else
      let s := s.roceIn p x xh
      let due := match x.cnpAt with
        | some t => 50 ≤ s.tk (84 + cn) - t
        | none => true
      let (x, s) := if p.ecn && due then
          let x := { x with cnpAt := some (s.tk (84 + cn)) }
          (x, (s.setQp p.qp x).roceOut p.qp 4 0 0 16 [])
        else (x, s)
      let d := (p.psn + 2 ^ 24 - x.epsn) % 2 ^ 24
      if !p.supported then s.roceNak p.qp 0x61 p.psn
      else if d = 0 then f s x
      else if 2 ^ 23 ≤ d then
        if s.peer.inb.any fun i => i.roce && i.node = p.qp && i.psn.toNat = p.psn then s else s.roceAck p.qp
      else s.roceNak p.qp 0x60 x.epsn

/-- The window of an R_Key for queue pair `q` (R395), and the status of its checks for `n` bytes at `a`. -/
def State.roceWin (s : State) (q : Nat) (rkey : W32) (a n right : Nat) : Nat × Option (Nat × Win) :=
  match sFind s.peer.wins (rkey.toNat % 4096) with
  | none => (4, none)
  | some w =>
    if w.rkey ≠ rkey.toNat / 4096 || !w.admits true q || !w.holds a n then (4, none)
    else (s.winCheck w (w.rights.testBit right) none, some (rkey.toNat % 4096, w))

/-- An inbound RoCEv2 request in a window. -/
def roceInb (p : RocePkt) (kind : InbKind) (win : Nat) (w : Win) (a n : Nat) : Inbound :=
  { k := 0, cn := p.qp % 16, node := p.qp, roce := true, psn := BitVec.ofNat 32 p.psn, kind := kind, win := win, w := w, addr := a,
    len := n }

/-- An RDMA WRITE packet (R395). -/
def State.rdmaWrite (s : State) (p : RocePkt) : State :=
  s.roceGot p (if p.pos = .first || p.pos = .only then 16 else 0) fun s x =>
    let first := p.pos = .first || p.pos = .only
    let n := p.payload.length
    let a := if first then p.va.toNat else x.cursor
    let togo := if first then p.len else x.togo
    let key : W32 := if first then p.rkey else BitVec.ofNat 32 x.win
    let (st, w) := s.roceWin p.qp key (if first then p.va.toNat else a) (if first then p.len else n) 1
    let shape := n ≤ x.mtu && (if p.pos = .only || p.pos = .last then n = togo else n = x.mtu && n < togo) && (first || togo ≠ 0)
    if !shape then s.roceNak p.qp 0x61 p.psn
    else match st, w with
    | 0, some (k, v) =>
      let s := s.setQp p.qp { x with epsn := (x.epsn + 1) % 2 ^ 24, cursor := a + n, togo := togo - n, win := key.toNat }
      if n = 0 then s.roceAck p.qp
      else
        let s := s.moveBytes (84 + p.qp % 16) (s.ctx v.ctx).part 1 n
        let (id, s) := s.addInb (roceInb p .write k v a n)
        s.inbIssue id a n true fun o m => .store ((p.payload.drop o).take m) (List.replicate m false)
    | st, _ => s.roceNak p.qp (roceCode st) p.psn

/-- An RDMA READ Request (R395): its responses take as many PSNs as packets. -/
def State.rdmaRead (s : State) (p : RocePkt) : State :=
  s.roceGot p 16 fun s x =>
    let n := p.len
    match s.roceWin p.qp p.rkey p.va.toNat n 0 with
    | (0, some (k, v)) =>
      let cnt := max 1 ((n + x.mtu - 1) / x.mtu)
      let s := s.setQp p.qp { x with epsn := (x.epsn + cnt) % 2 ^ 24 }
      if n = 0 then s.roceReads p.qp p.psn x.mtu true [] 1
      else
        let s := s.moveBytes (84 + p.qp % 16) (s.ctx v.ctx).part 0 n
        let (id, s) := s.addInb (roceInb p .read k v p.va.toNat n)
        s.inbIssue id p.va.toNat n false fun _ _ => .load
    | (st, _) => s.roceNak p.qp (roceCode st) p.psn

/-- A SEND packet (R396): the first of a message asks whether a slot is free. -/
def State.roceSend (s : State) (p : RocePkt) : State :=
  s.roceGot p 0 fun s x =>
    let first := p.pos = .first || p.pos = .only
    let n := p.payload.length
    let wid := fieldAt x.entry 36 2
    match sFind s.peer.wins wid with
    | none => s.roceNak p.qp 0x61 p.psn
    | some w =>
      let st := if w.admits true p.qp && w.holds (slotVa x w x.delivered) 4096 then s.winCheck w (w.rights.testBit 1) none else 4
      if x.mtu < n || 4088 < x.inMsg + n || first ≠ (x.inMsg = 0 : Bool) then
        (s.setQp p.qp { x with inMsg := 0 }).roceNak p.qp 0x61 p.psn
      else if s.peer.inb.any fun i => i.roce && i.node = p.qp && (i.kind = .sendCheck || i.kind = .sendData && i.last) then s
      else if st ≠ 0 then s.roceNak p.qp (roceCode st) p.psn
      else
        let s := s.setQp p.qp { x with epsn := (x.epsn + 1) % 2 ^ 24 }
        let s := s.moveBytes (84 + p.qp % 16) (s.ctx w.ctx).part 1 n
        let i := { roceInb p .sendCheck wid w 0 0 with data := p.payload, last := p.pos = .only || p.pos = .last }
        let (id, s) := s.addInb i
        if first then s.inbIssue id (fieldAt x.entry 48 8) 8 false fun _ _ => .load
        else s.sendWrite { i with k := id }

/-! ### Peer object slots (R389) -/

/-- The 64-byte entry of a peer object slot. -/
def State.objEntry (s : State) (cn : Nat) : Bytes :=
  (List.range 16).flatMap fun i => leBytes 4 (s.rd (cnReg cn (0x4140 + 4 * i))).toNat

/-- Whether a window entry keeps R386 and R389. -/
def winShape (b : Bytes) : Bool :=
  let f (o w : Nat) : Nat := fieldAt b o w
  let r := f 26 1
  1 ≤ f 8 8 && f 8 8 < 2 ^ 45 && halfOk (f 0 8) (f 8 8) && f 16 4 < 2 ^ 20 && r < 64 && f 30 2 = 0 &&
    f 36 4 < 2 ^ 20 && (List.range 24).all (fun i => f (40 + i) 1 = 0) && f 27 1 ≤ 2 && f 29 1 ≤ 1 && (f 29 1 = 1 || f 32 4 = 0) &&
    (!r.testBit 3 || r.testBit 1 && isCk (f 28 1)) && !(r.testBit 5 && (r.testBit 4 || r.testBit 3))

/-- Whether a queue-pair entry keeps R394. -/
def qpShape (b : Bytes) : Bool :=
  let f (o w : Nat) : Nat := fieldAt b o w
  f 0 4 < 2 ^ 24 && f 4 4 < 2 ^ 24 && f 30 1 ≤ 2 && f 31 1 < 4 && f 34 1 < 64 && f 35 1 < 32 &&
    (f 36 2 = 0xFFFF || f 36 2 < 4096 && 4 ≤ f 38 1 && f 38 1 ≤ 12) && f 39 1 = 0 && f 40 8 % 8 = 0 && f 48 8 % 8 = 0 && f 56 8 = 0

/-- A window entry as the peer table holds it, with VALID (R386). -/
def winEntry (b : Bytes) (valid : Bool) : Bytes := b.take 24 ++ leBytes 2 (fieldAt b 24 2 % 2 ^ 15 + 2 ^ 15 * b2n valid) ++ b.drop 26

/-- A write into the peer table, behind its guard, which expects kind 11, ID PEER_TABLE and partition 0 (R386). DESIGN CHOICE: a request
whose write is refused ends with the guard's status (log entry 93). -/
def State.tableWrite (s : State) (cn off : Nat) (b : Bytes) : Nat × State :=
  s.devWrite (s.odNum 0x6000 9 + off) b (List.replicate b.length false) (ownerWord 0 3 0x31) { ctx := none, station := 84 + cn }

/-- GO at the peer object slot of cantle `cn` (R201, R389), for operation `op`. -/
def State.objGo (s : State) (cn op : Nat) (irq : Bool) : State :=
  let o := cnReg cn 0x410C
  if !(cn < 16) || s.fld (cnReg cn 0x4104) 0 2 ≠ op then s
  else if s.slotBusy o then s.inc (cnReg cn 0x4058)
  else
    let id := s.fld (cnReg cn 0x4100) 0 12
    let b := s.objEntry cn
    let s := s.setFld (cnReg cn 0x4108) 1 1 (b2n irq)
    let src := if irq then some (0xCD0 + cn) else none
    let fin (s : State) (e : Ref) : State := s.slotDone o e.1 e.2 src
    if op = 0 then
      let w := winOf b
      let c := s.ctx w.ctx
      match firstRef [(!winShape b || !s.ctxInTable w.ctx || (s.peer.wins.any fun e => e.1 ≠ id && e.2.clash w), 1, 0),
          (!s.bit (partReg c.part 0) 3, 4, 0), (w.gen ≠ c.gen, 10, 0), (c.state ≠ 1, 2, 0x20 + c.state),
          ((sFind s.peer.wins id).isSome, 2, 0x33)] with
      | some e => fin s e
      | none =>
        match s.tableWrite cn (id * 64) (winEntry b true) with
        | (0, s) => fin { s with peer := { s.peer with wins := sIns s.peer.wins id w } } (0, 0)
        | (st, s) => fin s (st, 0)
    else if op = 1 then
      match (if (sFind s.peer.wins id).isSome then s.tableWrite cn (id * 64 + 24) ((winEntry b false).drop 24 |>.take 2) else (0, s)) with
      | (0, s) =>
      { s.slotTake o with peer := { s.peer with wins := sDel s.peer.wins id, clears := (cn, id) :: s.peer.clears } }
      | (st, s) => fin s (st, 0)
    else if op = 2 then
      let rw := sFind s.peer.wins (fieldAt b 36 2)
      let c := s.ctx ((rw.map (·.ctx)).getD 0)
      match firstRef [(!qpShape b || fieldAt b 36 2 ≠ 0xFFFF && rw.isNone, 1, 0),
          (rw.isSome && !s.bit (partReg c.part 0) 3, 4, 0), (rw.isSome && (rw.map (·.gen)).getD 0 ≠ c.gen, 10, 0),
          (!s.live (84 + id % 16), 11, 0), (rw.isSome && c.state ≠ 1, 2, 0x20 + c.state),
          ((sFind s.peer.qps id).isSome, 2, 0x33)] with
      | some e => fin s e
      | none =>
        match s.tableWrite cn (0x40000 + id * 64) b with
        | (0, s) => fin (s.setQp id { entry := b, epsn := fieldAt b 4 4 }) (0, 0)
        | (st, s) => fin s (st, 0)
    else
      match sFind s.peer.qps id with
      | none => fin s (0, 0)
      | some x =>
        { (s.slotTake o).setQp id { x with clearing := true } with
          peer := { ((s.slotTake o).setQp id { x with clearing := true }).peer with clears := (cn, 4096 + id) :: s.peer.clears } }

/-- No inbound access of a cleared window or queue pair is under way: the slot of cantle `cn` completes (R389). -/
def State.objDone (s : State) (cn : Nat) (qp : Bool) : State :=
  match s.peer.clears.find? fun e => e.1 = cn && (4096 ≤ e.2 : Bool) = qp with
  | none => s
  | some e =>
    let busy := s.peer.inb.any fun i => if qp then i.roce && i.node = e.2 - 4096 else i.win = e.2
    if busy then s
    else
      let s := { s with peer := { s.peer with clears := s.peer.clears.filter (· ≠ e),
                                              qps := if qp then sDel s.peer.qps (e.2 - 4096) else s.peer.qps } }
      s.slotDone (cnReg cn 0x410C) 0 0 (if s.bit (cnReg cn 0x4108) 1 then some (0xCD0 + cn) else none)

/-- What the peer engine does by itself: inbound accesses that can go on do, queue pairs finish clearing, requests of channels
that ended go. -/
def State.peerSettle (s : State) : State :=
  let s := s.acc.list.foldl (fun s b => match s.acc? b.id with
    | some a => s.inbStep a
    | none => s) s
  let s := (s.peer.conduits.filter fun e => !e.2.queue.isEmpty && !s.peer.cached.contains e.1).foldl (fun s e => s.condGo e.1) s
  let s := s.peer.clears.foldl (fun s e => if 4096 ≤ e.2 then s.objDone e.1 true else s) s
  let gone (q : RemReq) : Bool := q.acked && match q.src with
    | .chan st ch => (s.chan? (chanKey st ch)).isNone
    | _ => true
  if s.peer.reqs.any gone then { s with peer := { s.peer with reqs := s.peer.reqs.filter fun q => !gone q } } else s

/-- A packet held on a port that went down takes another path (R397). -/
def State.respray (s : State) (cn : Nat) (e : WirePkt) : State :=
  let r := e.pkt.dstNode
  if e.type = 7 || e.type = 8 then s.sendProbe r (e.type = 8)
  else
    let (w, s) := s.sendOn r e.type e.part e.pkt none
    match w with
    | none => s
    | some (a, b) =>
      let c := s.conduit r
      if e.type = 6 then s
      else s.setConduit r { c with unacked := c.unacked.map fun u =>
        if u.pkt.psn = e.pkt.psn && u.lport = cn then { u with lport := a, rport := b } else u }

end Sys2Proof.Machine
end

