-- ==== Sys2Proof/Machine/Loss.lean ====
section
/-! DEFINITION. Losing a station (R432, R436, R437), losing the host (R504 to R507) and what a rest goes through by itself
(R496). -/

namespace Sys2Proof.Machine

/-! ### Retired tags (R432) -/

/-- The tile request that an access serves: stirrup and tag. -/
def Access.tileTag (a : Access) : Option (Nat × Nat) :=
  match a.src with
  | .tile st tag _ _ => some (st, tag)
  | _ => none

/-- Retire the tags of the accesses that `p` selects: those that have not left their unit go, those that have are absorbed
where they arrive. A tile whose request is retired is refused it, with status `st` (R38); a store that is being committed is let
finish. -/
def State.retireTags (s : State) (st : Nat) (p : Access → Bool) : State :=
  let go (a : Access) : Bool := p a && !a.retired && !s.committing a
  let tags := ((s.acc.list.filter go).filterMap Access.tileTag).eraseDups
  let gone (a : Access) : Bool := go a && !(a.ph = .ready || a.ph = .commit)
  let mark (a : Access) : Access := if go a then { a with retired := true } else a
  tags.foldl (fun s t => s.emit (.tile t.1 t.2 st false []))
    { s with acc := { s.acc with list := (s.acc.list.filter fun a => !gone a).map mark } }

/-- The inbound requests that `p` selects end, and their accesses are absorbed. -/
def State.retireInbound (s : State) (p : Inbound → Bool) : State :=
  let is := s.peer.inb.filter p
  let s := s.retireTags 11 fun a => match a.src with
    | .inbound k => is.any fun i => i.k = k
    | _ => false
  is.foldl (fun s i => if i.roce then s.dropInb i.k else (s.dropInb i.k).executed i.node i.psn) s

/-- A tile's accesses in flight through stirrup `n`. -/
def tileOf (n : Nat) (a : Access) : Bool :=
  match a.src with
  | .tile st _ _ _ => st = n
  | _ => false

/-- Retire the tags of a station: its tile's accesses, its inbound requests; its tile TLB goes with it. The accesses of its
channels are retired as the channels are freed. -/
def State.retireStation (s : State) (n : Nat) : State :=
  let s := s.retireTags 11 (tileOf n)
  let s := { s with x := { s.x with tlb := s.x.tlb.filter fun e => e.loc ≠ n } }
  if kindOf n = .cantle then
    let held := (s.portQ (n - 84)).held
    held.foldl (fun s e => s.respray (n - 84) e) ((s.setPortQ (n - 84) {}).retireInbound fun i => i.cn = n - 84)
  else s

/-! ### Losing a station -/

/-- The skirts that pommel `k` served before it was lost. -/
def State.servedBy (s : State) (k : Nat) : List Nat :=
  (List.range 4).filter fun j =>
    (((List.range 4).map fun i => (j + i) % 4).find? fun p => p = k || (s.present (80 + p) && !s.lame (80 + p))) = some k

/-- What pommel `k` holds for itself is lost (R437): coherent lines are dropped and what they watched is looked at again,
fault entries end with LAME, migrations are abandoned, cached translations go. -/
def State.pommelFlush (s : State) (k : Nat) : State :=
  let ls := s.cw.lines.filter fun l => l.pm = k
  let s := ls.foldl (fun s l => match l.use with
    | .tail q => s.unwatch q
    | _ => s) s
  let wake := ls.filterMap fun l => match l.use with
    | .wait q ri => some (q, ri)
    | _ => none
  let ctl := ls.filterMap fun l => match l.use with
    | .ctl c => some c
    | _ => none
  let s := { s with cw := { s.cw with lines := s.cw.lines.filter (fun l => l.pm ≠ k),
                                      woken := s.cw.woken ++ wake.filter (fun e => !s.cw.woken.contains e),
                                      moved := s.cw.moved ++ ctl.filter (fun c => !s.cw.moved.contains c) } }
  let s := { s with x := { s.x with tlb := s.x.tlb.filter (fun e => e.loc ≠ 100 + k), ulc := s.x.ulc.filter (fun u => u.skirt ≠ k) } }
  let s := (s.flt.entries.filter fun e => e.pm = k).foldl (fun s e => s.endEntry e (some 11)) s
  (s.res.migs.filter fun e => e.1 / 65536 = k).foldl (fun s e => s.migLeave e.1 e.2) s

/-- Walks of pommel `k` start over at pommel `p`. -/
def State.moveWalks (s : State) (k p : Nat) : State :=
  let mv (w : Walk) : Walk := if w.skirt = k && w.res.isNone then { w with skirt := p, active := false, host := 0 } else w
  ({ s with x := { s.x with walks := s.x.walks.map mv } } : State).startWalks

/-- The scheduler of the skirts `js` moves to pommel `p` (R437): records are loaded anew, doorbells on their way and the
residency engine's batches go there. -/
def State.moveSkirts (s : State) (k p : Nat) (js : List Nat) : State :=
  let mine (q : Nat) : Bool := js.contains (s.que q).skirt
  let out := s.qs.resident.filter mine
  let fwd (d : DbMsg) : DbMsg := if d.pm = k then { d with pm := p } else d
  let bat (b : Batch) : Batch := if b.pm = k then { b with pm := p } else b
  let req (r : ResReq) : ResReq := if r.pm = k then { r with pm := p } else r
  let s := { s with qs := { s.qs with resident := s.qs.resident.filter (fun q => !mine q),
                                      pendBits := out ++ s.qs.pendBits.filter (fun q => !out.contains q),
                                      fwd := s.qs.fwd.map fwd } }
  let s := { s with cs := { s.cs with resident := s.cs.resident.filter fun c => !js.contains (c % 4) } }
  { s with res := { s.res with batches := s.res.batches.map bat,
                               reqs := (s.res.reqs.filter fun r => !(r.pm = k && r.slot.isSome)).map req } }

/-- The loss of pommel `k` (R437): its skirts are adopted by the next live pommel; a descriptor that ran on it ends with LAME,
but for a WAIT, which is evaluated afresh. -/
def State.pommelLost (s : State) (k : Nat) : State :=
  let js := s.servedBy k
  let p := s.livePommel k
  let s := (s.pommelFlush k).moveWalks k p
  let s := (s.qs.jobs.filter fun j => js.contains (s.que j.queue).skirt).foldl (fun s j =>
    if dOp j.desc = 0x40 then (if j.phase = 1 then s.waitBack j.queue else s) else s.jobDone j 11 0 0) s
  s.moveSkirts k p js

/-- The queues that have a descriptor on a channel of station `n`. -/
def State.queuesOn (s : State) (n : Nat) : List Nat :=
  ((s.dma.chans.filter fun e => (chanOf e.1).1 = n).map fun e => e.2.queue).eraseDups

/-- The loss of station `n` begins (R436, R437): queues with a descriptor on a stirrup or cantle take MIGRATING. The station's leases
are broken as each expires. -/
def State.lossBegin (s : State) (n : Nat) : State :=
  let s := s.retireStation n
  let s := if kindOf n = .pommel then s.pommelLost (n - 80) else (s.queuesOn n).foldl (fun s q => s.pauseQue q 4) s
  { s with rcv := { s.rcv with lost := s.rcv.lost ++ [n] } }

/-- Losses go on (R436): once no channel of a lost station holds a descriptor, MIGRATING clears in the queues that have none
on another lost station. -/
def State.lossSettle (s : State) : State :=
  let fell : List Nat := s.rcv.fell
  let s : State := fell.foldl (fun (s : State) n => s.lossBegin n) { s with rcv := { s.rcv with fell := [] } }
  let still : List Nat := s.rcv.lost.filter fun n => !(s.queuesOn n).isEmpty
  if still = s.rcv.lost then s
  else
    let busy := still.flatMap s.queuesOn
    let s := { s with rcv := { s.rcv with lost := still } }
    (s.qs.recs.filter fun e => e.2.pause.testBit 4 && !busy.contains e.1).foldl (fun s e => s.unpauseQue e.1 4) s

/-! ### Host loss (R353 to R355, R505, R506) -/

/-- Set the TDI state of partition `p` (R354, R451). -/
def State.setTdi (s : State) (p v : Nat) : State := s.setFld (partReg p 0) 8 3 v

/-- TDIs in CONFIG_LOCKED or RUN move to ERROR. DEDUCED: one that is unlocked stays so, as in the worked case of R512 (log
entry 29). -/
def State.tdiErrors (s : State) : State :=
  (List.range 64).foldl (fun s p => if s.tdi p = 1 || s.tdi p = 2 then s.setTdi p 3 else s) s

/-- The heartbeat lease runs while HB_EN is 1 and the block is READY (R504): it starts and ends with that. -/
def State.hbSync (s : State) : State :=
  let want := s.bit 0x200 0 && s.phase = 2
  if want = s.bit 0x200 1 then s
  else if want then
    let l := (s.rd 0x204).toNat
    { s.setBit 0x200 1 true with orph := { s.orph with expiry := s.supTk 4 + l, leaseLen := l, hbFlagged := false } }
  else s.setBit 0x200 1 false

/-- The host translation requests that are out end their accesses with `st` (R347, R507). -/
def State.endHostWalks (s : State) (st : Nat) : State :=
  (s.x.walks.filter fun w => w.host ≠ 0).foldl (fun s w => s.walkEnd w fun s a => s.endAcc a.id st) s

/-- Host loss (R505, R506): ORPHAN is entered with its cause. -/
def State.orphanEnter (s : State) (cause : Nat) : State :=
  let s := (((s.setFld 0x08 0 4 3).wr 0x238 (BitVec.ofNat 32 cause)).raise 0x228 0 0x22C).inc 0x23C
  let s := (s.irq 0xCE4).hbSync
  let s := (s.qs.recs.map Prod.fst).foldl (fun s q => s.pauseQue q 2) s
  let s := { s with cw := {} }
  let s := (s.flt.entries.filter (·.host)).foldl (fun s e => s.endEntry e (some 11)) s
  let s := s.endHostWalks (if cause < 3 then 11 else 5)
  let free (x : Session) : Session := { x with bound := none }
  let s := ({ s with sec := { s.sec with ide := [], sessions := s.sec.sessions.map free } } : State).tdiErrors
  let late (t : Rest) : Rest := { t with status := 11, step := if t.step = 3 then 4 else t.step }
  let rest := s.cs.rest.map late
  let s := match s.cs.rest with
    | some t => if t.step ≠ 3 then s else
        { s with res := { s.res with reqs := s.res.reqs.filter fun r => !(r.slot.isNone && r.host.isNone) } }
    | none => s
  { s with cs := { s.cs with rest := rest }, orph := { s.orph with draining := true } }

/-- The fall of the boot link while the block runs is host loss (R505). -/
def State.hostLossSettle (s : State) : State :=
  if !s.orph.bootFell then s
  else
    let s := { s with orph := { s.orph with bootFell := false } }
    if s.phase = 2 || s.phase = 4 then s.orphanEnter 2 else s

/-- The work of partition `p` has paused: nothing of its queues is in flight. -/
def State.partPaused (s : State) (p : Nat) : Bool :=
  s.qs.recs.all fun e => e.2.priv || e.2.part ≠ p || e.2.fly.isEmpty

/-- TDIs that a hot reset put in ERROR unlock once their partition's work has paused (R347, R355). -/
def State.unlockSettle (s : State) : State :=
  let go := s.orph.unlock.filter s.partPaused
  if go.isEmpty then s
  else
    let s := { s with orph := { s.orph with unlock := s.orph.unlock.filter fun p => !go.contains p } }
    go.foldl (fun s p => if s.tdi p = 3 then s.setTdi p 0 else s) s

/-! ### Rests (R496) -/

/-- Step 4 of a rest: stamps are released, faults end, and the whole context is invalidated. -/
def State.restInvalidate (s : State) (c : Nat) : State :=
  ((s.freeCtxSlots c).endFaults c 8).invalidate (.rest c) c 0 0

/-- Step 3 of a rest has ended when no request of it is left (R496). -/
def State.restSettle (s : State) : State :=
  match s.cs.rest with
  | none => s
  | some t =>
    if t.step = 3 && !(s.res.reqs.any fun r => r.slot.isNone && r.host.isNone) then
      ({ s with cs := { s.cs with rest := some { t with step := 4 } } } : State).restInvalidate t.ctx
    else if t.step = 4 && !(s.x.invs.any fun i => i.src = .rest t.ctx) then
      ({ s with cs := { s.cs with rest := some { t with step := 4 } } } : State).restInvalidate t.ctx
    else s

end Sys2Proof.Machine
end

