-- ==== Sys2Proof/Machine/Recover.lean ====
section
/-! DEFINITION. Recovery: leases that break (R424 to R429), protected storage (R413 to R415), resets of a core, a station and
a partition (R430 to R433), the rolling reconfiguration (R439 to R442). -/

namespace Sys2Proof.Machine

/-! ### Held lines -/

/-- The bytes of the line that host memory holds, as tail and head. -/
def State.tailLine (s : State) (q : Nat) : W32 × W32 :=
  let b := s.host.read (s.que q).tailLine 8
  (BitVec.ofNat 32 (fieldAt b 0 4), BitVec.ofNat 32 (fieldAt b 4 4))

/-- Read the tail line of a watched queue, and hold it (R143). -/
def State.watchRead (s : State) (q : Nat) : State :=
  let r := s.que q
  let (t, h) := s.tailLine q
  (s.cwHold { pm := s.server r.skirt, line := r.tailLine, use := .tail q }).ring q (some t) (some h)

/-! ### Cores away and back -/

/-- Core `c` of station `n` stops for a while: its duties pass to other cores of the station (R23, R426, R430), and what it
supervised is handed over (R429). -/
def State.coreAway (s : State) (n c : Nat) : State :=
  let sup := s.supsAt fun x => x = (n, c)
  let s := (s.moveDuties n c).leaseEnd 1 (n * 8 + c)
  if sup.isEmpty || (s.supsAt fun x => x = (n, c)) = sup then s else s.handover sup

/-- A core that passed its self-check, or that awl resumes, takes its own duty back (R429, R430, R524). -/
def State.coreBack (s : State) (n c : Nat) : State :=
  if !(s.coresOk n).testBit c || s.lame n then s
  else
    let before := s.supsAt fun x => x = (n, c)
    let s := s.setBit (0x390 + n / 4 * 4) (n % 4 * 8 + c) false
    let s := (s.returnDuty n c).leaseStart 1 (n * 8 + c)
    let after := (s.supsAt fun x => x = (n, c)).filter fun k => !before.contains k
    if after.isEmpty then s else s.handover after

/-! ### Rolls (R439 to R442) -/

/-- The items of the staged image. -/
def State.rollItems (s : State) : List (Nat × Nat × Nat × Nat) :=
  let img := s.odBlob 0x2F00 2
  (List.range (img.length / 16)).map fun i =>
    (fieldAt img (16 * i) 1, fieldAt img (16 * i + 4) 4, fieldAt img (16 * i + 8) 4, fieldAt img (16 * i + 12) 4)

/-- Whether an item names station `n`. -/
def State.rollNames (s : State) (n : Nat) : Bool := s.rollItems.any fun i => (stageStations i.1).contains n

/-- Apply one item to station `n`: the bits of MASK that lie in an RWD field of this station. A value outside the field's
range leaves it as it is (R529). -/
def State.rollItem (s : State) (n : Nat) (i : Nat × Nat × Nat × Nat) : State :=
  if !(stageStations i.1).contains n then s
  else
    let o := pageOf n + i.2.1
    (regFields o).foldl (fun s f =>
      let m := i.2.2.1 / 2 ^ f.lo % 2 ^ f.w
      if f.acc ≠ .rwd || m = 0 then s
      else
        let old := s.fld o f.lo f.w
        let new := Nat.lor (Nat.xor old (Nat.land old m)) (Nat.land (i.2.2.2 / 2 ^ f.lo) m)
        let ok := match f.lim with
          | some (a, b) => decide (a ≤ new ∧ new ≤ b)
          | none => true
        if ok then s.setFld o f.lo f.w new else s) s

/-- A visit of station `n` begins: its DMA unit quiesces, and what a pommel serves is adopted (R440 step 1). -/
def State.rollBegin (s : State) (n : Nat) : State :=
  let s := { s with roll := { s.roll with visiting := s.roll.visiting ++ [(n, s.tk n)] } }
  let s := if s.bit (pageOf n + 0x2004) 0 then s.setBit (pageOf n + 0x2004) 1 true else s
  if kindOf n ≠ .pommel then s
  else
    let k := n - 80
    let js := (List.range 4).filter fun j => s.server j = k
    let s := ((s.qs.recs.filter fun e => js.contains e.2.skirt).map Prod.fst).foldl (fun s q => s.pauseQue q 3) s
    let p := s.livePommel ((k + 1) % 4)
    if p = k then s
    else
      let s := { s with rcv := { s.rcv with adopter := js.foldl (fun m j => sIns m j ((k + 1) % 4)) s.rcv.adopter } }
      s.moveWalks k p

/-- A visit of station `n` ends: its units run again; a pommel reads every watched tail line anew and its queues go on
(R440 step 3). -/
def State.rollEnd (s : State) (n : Nat) : State :=
  let s := { s with roll := { s.roll with visiting := s.roll.visiting.filter fun v => v.1 ≠ n } }
  let s := (s.setBit (pageOf n + 0x2004) 0 (s.bit (pageOf n + 0x2000) 0 && !s.lame n)).setBit (pageOf n + 0x2004) 1 false
  if kindOf n ≠ .pommel then s
  else
    let s := { s with rcv := { s.rcv with adopter := [] } }
    let qs := (s.qs.recs.filter fun e => e.2.pause.testBit 3).map Prod.fst
    let s := if s.inOrphan then s else (s.qs.watch.filter fun q => qs.contains q).foldl (fun s q => s.watchRead q) s
    qs.foldl (fun s q => s.unpauseQue q 3) s

/-- The roll is over. -/
def State.rollOver (s : State) (phase status state : Nat) : State :=
  let s := s.roll.visiting.foldl (fun s v => s.rollEnd v.1) s
  (({ s with roll := { s.roll with active := false, left := [], state := state } } : State).setBit 0x08 8 false).cmdEndPhase 4
    phase status 0

/-- Station `n` takes the roll's epoch, which raises 0xCE6 (R404, R440). -/
def State.rollTake (s : State) (n : Nat) : State :=
  ({ s with roll := { s.roll with epochs := sPut 0 s.roll.epochs n s.roll.epoch } } : State).irq 0xCE6

/-- The roll goes on (R440): stations that no item names take the epoch at once, others are visited in order, up to
ROLL_WIDTH of one skirt at once; stations lost meanwhile are passed over. The fuel bounds the stations. -/
def State.rollGo (s : State) : Nat → State
  | 0 => s
  | f + 1 =>
    if !s.roll.active then s
    else match s.roll.left with
    | [] =>
      if s.roll.visiting.isEmpty then (s.rollOver 2 (if s.roll.lost then 11 else 0) 2).irq 0xCE6 else s
    | n :: l =>
      let next (s : State) : State := { s with roll := { s.roll with left := l } }
      if !s.live n then (next s).rollGo f
      else if !s.rollNames n then (next s).rollTake n |>.rollGo f
      else if s.roll.visiting.all (fun v => skirtOf v.1 = skirtOf n) && s.roll.visiting.length < s.odNum 0x2F00 5 then
        ((next s).rollBegin n).rollGo f
      else s

/-- A visited station that is lost is skipped, and the roll ends with LAME (R442). -/
def State.rollSettle (s : State) : State :=
  let gone := s.roll.visiting.filter fun v => s.lame v.1
  if gone.isEmpty then s
  else
    let s := gone.foldl (fun s v => s.rollEnd v.1) s
    ({ s with roll := { s.roll with lost := true } } : State).rollGo 101

/-- Whether nothing runs on station `n` any more: no channel, no request of its tile, no descriptor on the pommel, no inbound
request. -/
def State.stationIdle (s : State) (n : Nat) : Bool :=
  !(s.dma.chans.any fun e => (chanOf e.1).1 = n) &&
    match kindOf n with
    | .stirrup => !(s.acc.list.any fun a => tileOf n a && !a.retired)
    | .pommel => !(s.qs.jobs.any fun j => (s.que j.queue).skirt = n - 80 || s.server (s.que j.queue).skirt = n - 80)
    | .cantle => !(s.peer.inb.any fun i => i.cn = n - 84)

/-! ### Leases that break (R426) -/

/-- The station whose unit holds a lease. -/
def State.leaseHolder (s : State) (kind res : Nat) : Nat :=
  match kind with
  | 1 => res / 8
  | 2 => (s.x.walks.find? fun w => w.id = res / 4).elim (80 + res % 4) (·.station)
  | 3 => res / 2 ^ 20
  | 4 => res
  | 7 => res
  | 8 => (s.supervisor (if res = 4 then 0 else res)).1
  | _ => 80 + s.server (s.leaseSkirt kind res)

/-- The global number of the DMA channel with key `key` (R17). -/
def chanNo (key : Nat) : Nat := (chanOf key).1 * 16 + (chanOf key).2

/-- The number that a LEASE_BROKEN record gives a resource (R421). DEDUCED: cores and DMA channels carry their global numbers (R17),
queues theirs, skiving units and delegated steps that of their station; the other kinds' are the implementation's (log entry 89). -/
def leaseNumber (kind res : Nat) : Nat :=
  match kind with
  | 1 => res
  | 3 => chanNo res
  | 4 => res
  | 5 => res
  | 7 => res
  | _ => (Config.resourceNumber kind res).toNat

/-- What every break does (R426): the record, BROKEN, the Buckle source, the wear ledger. -/
def State.leaseNoted (s : State) (kind res : Nat) : State :=
  let n := s.leaseHolder kind res
  let s := s.err { cls := 6, code := 0x0602, station := n,
                   detail := kind + 256 * (leaseNumber kind res % 2 ^ 16) }
  let w := sGet {} s.wear n
  let s := { s with wear := sPut {} s.wear n { w with leaseBreaks := satAdd 32 w.leaseBreaks 1 },
                    led := { s.led with leaseBreaksTotal := satAdd 32 s.led.leaseBreaksTotal 1 } }
  let s := s.odSet 0x7000 0x12 ((s.odNum 0x7000 0x12 + 1) % 2 ^ 32)
  (s.raise 0x150 0 0x154).irq 0xCE3

/-- The resource of a broken lease is out of service until its self-check (R426). -/
def State.scrub (s : State) (kind res : Nat) : State :=
  if s.rcv.scrubbing.contains (kind, res) then s
  else { s with rcv := { s.rcv with scrubbing := s.rcv.scrubbing ++ [(kind, res)] } }

/-- A core's lease breaks: the second time within 1,000,000 ticks of its supervisor marks it LAME (R434). The cores of a lost station
are out already (R436). -/
def State.coreBreak (s : State) (n c : Nat) : State :=
  let k := n * 8 + c
  if s.lame n || !(s.coresOk n).testBit c || s.rcv.scrubbing.contains (1, k) then s
  else
    let now := s.supTk (s.leaseSup (leaseKey 1 k))
    let again := match sFind s.rcv.coreBreaks k with
      | some t => decide (now - t < 1000000)
      | none => false
    let s := { s with rcv := { s.rcv with coreBreaks := sIns s.rcv.coreBreaks k now } }
    if again then s.dropCore n c true true else (s.scrub 1 k).coreAway n c

/-- The line of a queue's watch slot is lost (R144). -/
def State.watchBreak (s : State) (q : Nat) : State :=
  let r := s.que q
  let s := (s.unwatch q).errQueue q 4 0x0405 (s.queStation q) 0 r.tailLine 0
  if r.irq.testBit 15 then s.irq (r.irq % 4096) else s

/-- A held line's lease breaks (R144, R315). -/
def State.lineBreak (s : State) (res : Nat) : State :=
  let mine (l : CwLine) : Bool := match l.use with
    | .fetch => false
    | .tail q => res = q
    | .ctl c => res = 2 ^ 24 + c
    | .wait q _ => res = 2 ^ 25 + q
  (s.cw.lines.filter mine).foldl (fun s l =>
    let s := s.raise (pmReg l.pm 0x3000) 0 (pmReg l.pm 0x3020)
    match l.use with
    | .tail q => s.watchBreak q
    | _ => s.lineGone l) s

/-- A step that a station's node ran for the block is broken off: a roll passes the station over, a reset ends with LAME. -/
def State.nodeBreak (s : State) (n : Nat) : State :=
  let s := if s.roll.visiting.any fun v => v.1 = n then
      (({ s.rollEnd n with roll := { (s.rollEnd n).roll with lost := true } } : State).rollGo 101)
    else s
  match s.rcv.reset with
  | some (sc, u, _) =>
    if (sc = 1 || sc = 2) && u = n then
      let s := if s.rcv.checking.isSome then s.setBit (pageOf n) 14 false else s
      ({ s with rcv := { s.rcv with reset := none, checking := none } } : State).cmdEnd 3 11 0 else s
  | none => s

/-- A supervisor breaks the lease of a resource (R426): the holder's work on it ends, and it is scrubbed. A record and a line
need no self-check: they are loaded and read anew. -/
def State.leaseBreak (s : State) (kind res : Nat) : State :=
  let s := ({ s with rcv := { s.rcv with leases := sDel s.rcv.leases (leaseKey kind res) } } : State).leaseNoted kind res
  match kind with
  | 1 => s.coreBreak (res / 8) (res % 8)
  | 2 =>
    let s := s.scrub 2 res
    (match s.x.walks.find? fun w => w.id = res / 4 with
    | some w => s.walkEnd w fun s a => s.endAcc a.id 11
    | none => s)
  | 3 => (((s.scrub 3 res).matrixOut res).chanBreak res 11).dmaFlag (res / 2 ^ 20) 0
  | 4 =>
    ((s.dma.chans.filter fun e => (chanOf e.1).1 = res && 16 ≤ (chanOf e.1).2).map Prod.fst).foldl
      (fun s k => s.chanBreak k 11) (s.scrub 4 res)
  | 5 => { s with qs := { s.qs with resident := s.qs.resident.filter (· ≠ res),
                                    pendBits := if s.qs.pendBits.contains res then s.qs.pendBits else s.qs.pendBits ++ [res] } }
  | 6 => s.lineBreak res
  | 7 => (s.scrub 7 res).nodeBreak res
  | _ =>
    let (n, c) := s.supervisor (if res = 4 then 0 else res)
    (s.coreBreak n c).leaseStart 8 res

/-- Supervisor `k` finds a lease of its table expired (R426, R428). -/
def State.leaseExpired (s : State) (k key : Nat) : State :=
  match sFind s.rcv.leases key with
  | none => s
  | some l =>
    if s.supTk k < l.expiry || s.leaseSup key ≠ k then s
    else if s.bit 0x0C 3 then s.leaseBreak (key / 2 ^ 40) (key % 2 ^ 40)
    else if l.flagged then s
    else ({ s with rcv := { s.rcv with leases := sIns s.rcv.leases key { l with flagged := true } } } : State).raise 0x150 1 0x158

/-- The self-check of a scrubbed resource ends (R426, R434); a channel's waits for the matrix that it was writing (R304). -/
def State.selfChecked (s : State) (kind res : Nat) (ok : Bool) : State :=
  if !s.rcv.scrubbing.contains (kind, res) || kind = 3 && s.matrixLeft res then s
  else
    let s := { s with rcv := { s.rcv with scrubbing := s.rcv.scrubbing.filter (· ≠ (kind, res)) } }
    match kind with
    | 1 => if ok then s.coreBack (res / 8) (res % 8) else s.dropCore (res / 8) (res % 8) true true
    | 2 => if ok then s.startWalks else (s.scrub 12 res).unitLame (80 + res % 4) 2 (res / 4 % 256) []
    | 3 =>
      let (n, ch) := chanOf res
      if ok || s.lame n then s else (s.setBit (pageOf n + 0x2014) ch true).unitLame n 3 ch []
    | 4 =>
      if ok || s.lame res then s
      else ((s.setBit (pageOf res + 0x2200) 1 true).setBit (pageOf res + 0x2200) 0 false).unitLame res 4 0 []
    | _ =>
      if ok || s.lame res then s
      else (({ s with nodes := sMod {} s.nodes res fun n => { n with alive := false } } : State).timerSet .skipHop res (res + 1)).unitLame
        res 7 0 []

/-! ### Protected storage (R413 to R415) -/

/-- The station of a protected word; 0x80 for the parts of R20. -/
def State.wordStation (s : State) (w : StoreWord) : Nat :=
  match w with
  | .lineBuffer a => (s.acc? a).elim 0x80 (·.station)
  | .tileTlb st _ => st
  | .sharedTlb k _ => 80 + k
  | .upperCache k _ => 80 + k
  | .ownerLine g _ => 80 + g / 32
  | .windowLine pm _ => 80 + pm
  | .ctxRecord c => 80 + s.homeOf c
  | .queueRecord q => s.queStation q
  | .faultEntry pm _ => 80 + pm
  | .migration pm _ => 80 + pm
  | .conduit n => (s.condHome n).elim 0x80 (84 + ·)
  | .lease k r => s.leaseHolder k r
  | .skivingBuffer st _ _ => st
  | .other st => st

/-- The model's number for the structure of a protected word. -/
def wordKind : StoreWord → Nat
  | .lineBuffer _ => 0 | .tileTlb _ _ => 1 | .sharedTlb _ _ => 2 | .upperCache _ _ => 3 | .ownerLine _ _ => 4
  | .windowLine _ _ => 5 | .ctxRecord _ => 6 | .queueRecord _ => 7 | .faultEntry _ _ => 8 | .migration _ _ => 9
  | .conduit _ => 10 | .lease _ _ => 11 | .other _ => 12
  | .skivingBuffer _ _ _ => 13

/-- The list without its `i`-th entry that `p` selects. -/
def dropNth {α : Type} (p : α → Bool) : List α → Nat → List α
  | [], _ => []
  | a :: l, i => if p a then (if i = 0 then l else a :: dropNth p l (i - 1)) else a :: dropNth p l i

/-- What queue `q` has in flight ends with POISON, and the queue halts when `halt` (R414). -/
def State.quePoison (s : State) (q : Nat) (halt : Bool) : State :=
  let s := ((s.dma.chans.filter fun e => e.2.queue = q).map Prod.fst).foldl (fun s k =>
    let s := match s.chan? k with
      | some c => if halt then s.setChan k { c with dropped := true } else s
      | none => s
    s.chanBreak k 7) s
  let s := (s.qs.jobs.filter fun j => j.queue = q).foldl (fun s j =>
    (s.dropJob q j.ri).descDone q j.ri j.desc { status := 7, station := s.queStation q, halt := halt }) s
  let r := s.que q
  if halt && (r.state = 2 || r.state = 3) && r.halting = 0 then
    (s.setQue q { r with halting := 1, haltEnd := r.progStart + BitVec.ofNat 32 r.prog.length }).finishHalt q
  else s

/-- What a unit's buffer holds, with its 64 B line number `l` poisoned (R306, R414); `o` is where the list begins. -/
def spoil (l o : Nat) : List (Piece × Bytes × List Bool) → List (Piece × Bytes × List Bool)
  | [] => []
  | (p, d, z) :: rest => (p, d, z.zipIdx.map fun e => e.1 || (o + e.2) / 64 = l) :: spoil l (o + d.length) rest

/-- An uncorrectable word is never used as good (R414). DEDUCED: for a line of owner words that is what R179 says (log entry 98). -/
def State.wordLost (s : State) (w : StoreWord) : State :=
  match w with
  | .lineBuffer a =>
    (match s.acc? a with
    | none => s
    | some x =>
      let op := match x.op with
        | .store d pz => .store d (pz.map fun _ => true)
        | o => o
      s.setAcc { x with op := op, pz := x.data.map fun _ => true })
  | .tileTlb st i => { s with x := { s.x with tlb := dropNth (fun e => e.loc = st) s.x.tlb i } }
  | .sharedTlb k i => { s with x := { s.x with tlb := dropNth (fun e => e.loc = 100 + k) s.x.tlb i } }
  | .upperCache k i => { s with x := { s.x with ulc := dropNth (fun e => e.skirt = k) s.x.ulc i } }
  | .ownerLine g l =>
    -- the guard refuses the frames of the line until their owner words are written again (R179)
    let fs := s.owLine l
    let s := { s with acc := { s.acc with owc := sMod [] s.acc.owc g fun o => o.filter (· ≠ l),
                                          owBad := s.acc.owBad.filter (fun f => !fs.contains f) ++ fs } }
    if fs.isEmpty then s
    else (s.grdFlag g 3).err { cls := 2, code := 0x0205, station := 80 + g / 32, addr := fs.headD 0, detail := fs.length }
  | .windowLine pm l => (s.cw.lines.filter fun x => x.pm = pm && x.line = l).foldl State.lineGone s
  | .ctxRecord c =>
    if !s.cs.resident.contains c then s
    else
      let s := { s with cs := { s.cs with resident := s.cs.resident.filter (· ≠ c) } }
      let s := (s.ctxQueues c).foldl (fun s q => s.quePoison q false) s
      (s.acc.list.filter fun a => a.ctx = c && a.ph ≠ .done && !(a.ph = .commit || a.ph = .abort)).foldl (fun s a => s.endAcc a.id 7) s
  | .queueRecord q =>
    if !s.qs.resident.contains q then s
    else
      let s := { s with qs := { s.qs with resident := s.qs.resident.filter (· ≠ q),
                                          pendBits := if s.qs.pendBits.contains q then s.qs.pendBits else s.qs.pendBits ++ [q] } }
      s.quePoison q true
  | .faultEntry pm i => (s.flt.entries.filter fun e => e.pm = pm && e.idx = i).foldl (fun s e => s.endEntry e (some 7)) s
  | .migration pm p => (s.res.migs.filter fun e => e.1 / 65536 = pm && e.2.page = p).foldl (fun s e => s.migLeave e.1 e.2) s
  | .conduit n => if (s.conduit n).state = 0 then s else s.condLost n
  | .lease k r => if (sFind s.rcv.leases (leaseKey k r)).isSome then s.leaseBreak k r else s
  | .skivingBuffer st ch l => s.modChan (chanKey st ch) fun c => { c with got := spoil l 0 c.got }
  | .other _ => s

/-- An access or a scrubber meets a word with flipped bits (R414): one or two are corrected and counted, more are contained. -/
def State.wordMet (s : State) (w : StoreWord) (bits : Nat) : State :=
  let n := s.wordStation w
  let s := { s with rcv := { s.rcv with upsets := s.rcv.upsets.filter fun u => u.1 ≠ w } }
  if bits = 0 then s
  else if bits ≤ 2 then
    let x := sGet {} s.wear n
    let s := { s with wear := if n < 100 then sPut {} s.wear n { x with corrErr := satAdd 64 x.corrErr 1 } else s.wear,
                      led := { s.led with corrErrTotal := satAdd 64 s.led.corrErrTotal 1 } }
    let s := match w with
      | .ownerLine g _ => s.grdFlag g 2
      | _ => s
    if s.corrRecords then s.err { cls := 1, code := 0x0101, station := n, detail := bits } else s
  else
    (s.err { cls := 2, code := 0x0201, station := n, detail := (Config.structureKind (wordKind w)).toNat }).wordLost w

/-- An access meets the words that `p` selects (R414). -/
def State.wordsMet (s : State) (p : StoreWord → Bool) : State :=
  (s.rcv.upsets.filter fun u => p u.1).foldl (fun s u => s.wordMet u.1 u.2) s

/-- The words that an access of context `c` through station `st` meets as it is translated. -/
def State.xlatWords (s : State) (st c : Nat) (w : StoreWord) : Bool :=
  match w with
  | .tileTlb t _ => t = st
  | .sharedTlb k _ => k = s.server (skirtOf st)
  | .upperCache k _ => k = s.server (skirtOf st)
  | .ctxRecord x => x = c
  | _ => false

/-- The words that the start of a descriptor of queue `q` meets. -/
def State.queWords (s : State) (q : Nat) (w : StoreWord) : Bool :=
  let r := s.que q
  w = .queueRecord q || !r.priv && s.xlatWords (80 + s.server r.skirt) r.ctx w

/-- The words that a request at the lease table of supervisor `k` meets. -/
def State.leaseWords (s : State) (k : Nat) (w : StoreWord) : Bool :=
  match w with
  | .lease kind r => s.leaseSup (leaseKey kind r) = k
  | _ => false

/-- The fault entries of pommel `pm`. -/
def faultWords (pm : Nat) (w : StoreWord) : Bool :=
  match w with
  | .faultEntry k _ => k = pm
  | _ => false

/-- The held line at an address in the cache of pommel `pm`. -/
def lineWords (pm line : Nat) (w : StoreWord) : Bool :=
  match w with
  | .windowLine k l => k = pm && l / 64 = line / 64
  | _ => false

/-- The migration entries of pommel `pm`. -/
def migWords (pm : Nat) (w : StoreWord) : Bool :=
  match w with
  | .migration k _ => k = pm
  | _ => false

/-- The words that an access of a channel meets at its home: its place in the unit's buffers, and the owner-word line of its frame. -/
def State.dmaWords (s : State) (st ch : Nat) (a : Access) (w : StoreWord) : Bool :=
  match w with
  | .skivingBuffer n c _ => n = st && c = ch
  | .ownerLine g l => a.kind = 2 && g = s.guardOf (a.pa / 4096) && l = s.ownerAddr (a.pa / 4096) / 64
  | _ => false

/-- The words that a request to the guard of frame `f` meets. -/
def State.guardWords (s : State) (f : Nat) (w : StoreWord) : Bool :=
  match w with
  | .ownerLine g l => g = s.guardOf f && l = s.ownerAddr f / 64
  | _ => false

/-! ### Partition resets (R433, R465) -/

/-- The contexts of partition `p`. -/
def State.partCtxs (s : State) (p : Nat) : List Nat :=
  (s.cs.recs.filter fun e => e.2.state ≠ 0 && e.2.part = p).map Prod.fst

/-- A partition reset begins: contexts are revoked, one that rests in an image is dead at once. -/
def State.partBegin (s : State) (p : Nat) : State :=
  (s.partCtxs p).foldl (fun s c =>
    let st := (s.ctx c).state
    let s := { s with res := { s.res with batches := s.res.batches.filter fun b => b.ctx ≠ c } }
    let s := (s.res.migs.filter fun e => e.2.ctx = c).foldl (fun s e => s.migLeave e.1 e.2) s
    if 1 ≤ st && st ≤ 3 then s.revoke c else if st = 4 then (s.ctxDead c).2 else s) s

/-- The queues of partition `p`. -/
def State.partQues (s : State) (p : Nat) : List Nat :=
  (s.qs.recs.filter fun e => e.2.state ≠ 0 && !e.2.priv && e.2.part = p).map Prod.fst

/-- The work of partition `p` has ended (R431, R433). -/
def State.partDrained (s : State) (p : Nat) : Bool :=
  (s.partQues p).all (fun q => (s.que q).fly.isEmpty) &&
    !(s.dma.chans.any fun e => (s.ctx e.2.ctx).part = p) &&
    (s.partCtxs p).all fun c => (s.ctx c).state ≠ 5 || s.revokeSettled c

/-- The partition of a queue pair: that of its receive ring's window, else that of a window that names it. -/
def State.qpPart (s : State) (q : Nat) (x : Qp) : Option Nat :=
  match sFind s.peer.wins (fieldAt x.entry 36 2) with
  | some w => some (s.ctx w.ctx).part
  | none => (s.peer.wins.find? fun e => e.2.roce && !e.2.any && e.2.source = q).map fun e => (s.ctx e.2.ctx).part

/-- A drained partition is reset (R408, R432, R433). -/
def State.partClear (s : State) (p : Nat) : State :=
  let s := (s.partCtxs p).foldl (fun s c => s.ctxRevokedRun c) s
  let s := s.retireInbound fun i => (s.ctx i.w.ctx).part = p
  let s := s.retireTags 8 fun a => (s.ctx a.ctx).part = p
  let qps := s.peer.qps.filter fun e => s.qpPart e.1 e.2 ≠ some p
  let wins := s.peer.wins.filter fun e => (s.ctx e.2.ctx).part ≠ p
  let s := { s with peer := { s.peer with wins := wins, qps := qps } }
  let calm (n : Nat) (v : Src) : Src := if v.owned && v.part = p && n < 4096 then { v with st := .idle, target := none } else v
  let s := s.onBkl fun b => b.srcs.foldl (fun b e => b.setSrc e.1 (calm e.1 (b.src e.1))) b
  let free (x : Session) : Session := if x.bound = some p then { x with bound := none } else x
  { s with sec := { s.sec with sessions := s.sec.sessions.map free } }

/-- At the drain bound, what partition `p` still runs ends with ABORTED (R431). -/
def State.partAbort (s : State) (p : Nat) : State :=
  let s := ((s.dma.chans.filter fun e => (s.ctx e.2.ctx).part = p).map Prod.fst).foldl (fun s k => s.chanBreak k 8) s
  let s := (s.qs.jobs.filter fun j => !(s.que j.queue).priv && (s.que j.queue).part = p).foldl (fun s j => s.jobDone j 8 0 0) s
  (s.acc.list.filter fun a => (a.ph = .held || a.ph = .mig || a.ph = .ctxWait || a.ph = .walk) && (s.ctx a.ctx).part = p).foldl
    (fun s a => s.endAcc a.id 8) s

/-- A partition reset that an FLR or STOP_INTERFACE started is complete (R349, R355): the TDI unlocks, and STOP_INTERFACE is
answered. -/
def State.presetEnd (s : State) (p cause : Nat) : State :=
  let s := s.partClear p
  let s := { s with rcv := { s.rcv with presets := s.rcv.presets.filter (· ≠ (p, cause)) } }
  let s := if cause = 1 then { s with ep := { s.ep with flr := s.ep.flr.filter (· ≠ p + 1) } } else s
  let s := s.setTdi p 0
  if cause = 2 then s.emit (.tdisp (p + 1) 7 []) else s

/-! ### Resets of a core and of a station (R430, R431) -/

/-- At the drain bound, what station `n` still runs ends with ABORTED (R431). -/
def State.stationAbort (s : State) (n : Nat) : State :=
  let s := ((s.dma.chans.filter fun e => (chanOf e.1).1 = n).map Prod.fst).foldl (fun s k => s.chanBreak k 8) s
  let s := if kindOf n = .pommel then
      (s.qs.jobs.filter fun j => s.server (s.que j.queue).skirt = n - 80).foldl (fun s j => s.jobDone j 8 0 0) s
    else s
  let s := if kindOf n = .cantle then s.retireInbound fun i => i.cn = n - 84 else s
  (s.acc.list.filter fun a => tileOf n a && (a.ph = .held || a.ph = .mig || a.ph = .ctxWait || a.ph = .walk)).foldl
    (fun s a => s.endAcc a.id 8) s

/-- The reset of a drained station is performed (R21, R37, R430 to R432): its tags are retired, its port drops, and it is held in reset
while its self-check runs. -/
def State.stationReset (s : State) (n : Nat) : State :=
  let s := (s.retireStation n).portOff n
  let s := if kindOf n = .pommel then
      let k := n - 80
      let js := (List.range 4).filter fun j => s.server j = k
      ((s.pommelFlush k).moveWalks k k).moveSkirts k k js
    else s
  s.setBit (pageOf n) 14 true

/-- The self-check of a station in reset ends (R430): the station returns to service, or is marked LAME. -/
def State.stationBack (s : State) (n : Nat) (ok : Bool) : State :=
  let s := s.setBit (pageOf n) 14 false
  if !ok then s.lameStation n true
  else
    let s := (List.range 8).foldl (fun s c =>
      if s.halted n c then s.coreBack n c else if (s.coresOk n).testBit c then s.leaseStart 1 (n * 8 + c) else s) s
    s.leaseRestart (s.supsAt fun x => x.1 = n)

end Sys2Proof.Machine
end

