-- ==== Sys2Proof/Machine/Settle.lean ====
section
/-! DEFINITION. The stamp service (R194 to R199), and what the engines do by themselves once a command has changed the state:
accesses that are translated or ended are taken up, and leases follow the resources that are held (R424, R425). -/

namespace Sys2Proof.Machine

/-! ### Stamps (R195 to R197) -/

/-- Opcodes that are stamped: data descriptors and REDUCE (R194). -/
def stampable (op : Nat) : Bool := isData op || op = 0x44

/-- The pages of the footprint of a descriptor with no index term, each with whether it is written. -/
def footprint (d : Desc) : List (Nat × Bool) :=
  let g := geoOf d 0
  let row : RowOut := { bytes := List.replicate g.dlen 0, pz := List.replicate g.dlen false }
  let rows : List RowOut := if g.isMat then List.replicate g.rows row else [row]
  ((List.range g.units).flatMap fun u =>
    (g.srcPieces u).map (fun p => (vpage p.va, false)) ++ (g.dstPieces u rows).map fun o => (vpage o.1.va, true)).eraseDups

/-- Give a descriptor up unstamped (R195). -/
def State.unstamped (s : State) (key : Nat) : State := (s.freeSlot key).inc (pmReg (s.server (key / 4096)) 0x6AC)

/-- Issue the next translation of a slot (R195). -/
def State.stampAsk (s : State) (key : Nat) (v : SideSlot) : State :=
  match v.want with
  | [] => s
  | (p, wr) :: _ =>
    (s.issue { id := 0, src := .stamp (key / 4096) (key % 4096), station := 80 + s.server (key / 4096), ctx := v.ctx,
               gen := v.ctxGen, va := pageVa p, len := 1, write := wr, op := .touch }).2

/-- Sidecar slot `slot` is claimed (R195, R197): the buckets of the descriptor's blocks rise before any lookup. Where the guard of the
slot or of the ledger refuses, the descriptor is left unstamped (log entry 48). -/
def State.stampClaim (s : State) (q : Nat) (ri : W32) (d : Desc) (slot : Nat) : State :=
  let r := s.que q
  let key := r.skirt * 4096 + slot
  let fp := footprint d
  let blocks := (fp.map fun p => p.1 / 512).eraseDups
  let (st, s) := s.sidecarCheck key
  if st ≠ 0 then s.inc (pmReg (s.server r.skirt) 0x6AC)
  else
    let (up, s) := blocks.foldl (fun (e : List Nat × State) x =>
      let (ok, s) := e.2.ledgerUp r.ctx x
      (if ok then e.1 ++ [x] else e.1, s)) ([], s)
    let v : SideSlot :=
      { queue := q, ri := ri, ctx := r.ctx, ctxGen := (s.ctx r.ctx).gen, state := 1, blocks := up, want := fp }
    let s := { s with x := { s.x with slots := sPut {} s.x.slots key v } }
    if up.length < blocks.length then s.unstamped key else s.stampAsk key v

/-- The stamp service looks at descriptor `d` at ring index `ri` of queue `q`, with sidecar slot `slot` (R194 to R197). -/
def State.stampService (s : State) (q : Nat) (ri : W32) (d : Desc) (slot : Nat) : State :=
  let r := s.que q
  let c := s.ctx r.ctx
  let k := r.skirt
  let key := k * 4096 + slot
  let cap := 2 ^ s.odNum 0x5000 0x14
  let ahead := wdiff ri r.next
  if !s.unitEnabled .stamp || r.state = 0 || r.priv || c.state = 0 || 5 ≤ c.state || !c.mode.testBit 0 || !stampable (dOp d) || dFlag d 4 ||
      wdiff r.tailSeen ri = 0 || 2 ^ 31 ≤ wdiff r.tailSeen ri || 2 ^ 31 ≤ ahead || (s.slotFor q ri).isSome || r.fly.contains ri then s
  else
    let left := s.inc (pmReg (s.server k) 0x6AC)
    let none_ := s.odNum 0x5000 (0x10 + k) = 0 || (List.range cap).all fun i => (sFind s.x.slots (k * 4096 + i)).isSome
    if s.odNum 0x5000 0x15 = 0 || none_ then left
    else if s.odNum 0x5000 0x15 < ahead || cap ≤ slot || (sFind s.x.slots key).isSome then s
    else
      let fp := footprint d
      let peer := fp.any fun p => match c.regionOf p.1 with
        | some g => g.kind = 3
        | none => false
      if peer then left else s.stampClaim q ri d slot

/-- Whether run record `b` goes on from `a` within its block (R188). -/
def StampRun.next (a b : StampRun) : Bool :=
  a.page + a.len = b.page && a.frame + a.len = b.frame && a.page / 512 = b.page / 512 &&
    { a with page := 0, len := 0, frame := 0 } = ({ b with page := 0, len := 0, frame := 0 } : StampRun)

/-- Add a run record to a slot, joined to the records that it goes on from and that go on from it. -/
def addRun (l : List StampRun) (r : StampRun) : List StampRun :=
  let (l, r) := match l.find? fun o => o.next r with
    | some o => (l.erase o, { o with len := o.len + r.len })
    | none => (l, r)
  match l.find? fun o => r.next o with
  | some o => l.erase o ++ [{ r with len := r.len + o.len }]
  | none => l ++ [r]

/-- A translation of a slot has come: it is recorded, and the next is asked for; a failure leaves the descriptor unstamped. -/
def State.stampGot (s : State) (a : Access) : State :=
  match a.src with
  | .stamp k i =>
    let key := k * 4096 + i
    let s := s.dropAcc a.id
    (match sFind s.x.slots key with
    | none => s
    | some v =>
      if a.ph = .done || a.kind = 3 then s.unstamped key
      else
        let p := vpage a.va
        match s.tlbFind (100 + s.server k) a.ctx p a.write with
        | none => s.unstamped key
        | some e =>
          let r : StampRun := { page := p, len := 1, frame := e.frame + (p - e.base), wr := a.write, host := a.kind = 1,
                                ownSel := e.ownSel, fmt := e.fmt, n := e.n, mig := e.mig, own := e.own }
          let v := { v with runs := addRun v.runs r, want := v.want.drop 1 }
          let s := { s with x := { s.x with slots := sPut {} s.x.slots key v } }
          if v.want.isEmpty && 252 < v.runs.length then s.unstamped key else s.stampAsk key v)
  | _ => s

/-- The stamps of a skirt go on while their translations come back at once. The fuel bounds them. -/
def State.stampSettle (s : State) : Nat → State
  | 0 => s
  | n + 1 =>
    match s.acc.list.find? fun a => a.isStamp && (a.ph = .ready || a.ph = .done) with
    | some a => (s.stampGot a).stampSettle n
    | none => s

/-- Every page of a slot is translated: it is READY (R196). -/
def State.stampReady (s : State) (k slot : Nat) : State :=
  let key := k * 4096 + slot
  match sFind s.x.slots key with
  | none => s
  | some v => if v.state ≠ 1 || !v.want.isEmpty then s
    else { s with x := { s.x with slots := sPut {} s.x.slots key { v with state := 2 } } }

/-! ### Jobs -/

/-- Descriptors on the pommels whose access is translated or has ended go on. -/
def State.jobSettle (s : State) : State :=
  s.acc.list.foldl (fun s b =>
    match s.acc? b.id with
    | none => s
    | some a =>
      match a.src with
      | .job q ri =>
        if !(a.ph = .ready || a.ph = .done) then s
        else (match s.job? q ri with
          | none => s.dropAcc a.id
          | some j =>
            if dOp j.desc = 0xC8 then s.abandonReady j a
            else if dOp j.desc = 0x41 || dOp j.desc = 0x42 then
              (if a.ph = .ready && a.kind = 3 then s else s.jobReady j a)
            else s.jobReady j a)
      | _ => s) s

/-! ### Leases (R424, R425) -/

/-- The leases that the resources in use call for: walker slots, DMA channels, skiving units for REDUCE, queue records with
work in flight, lines held for watch slots, wait entries and control lines, steps of a roll or reset that a station runs. -/
def State.leaseHeld (s : State) : List (Nat × Nat) :=
  (s.x.walks.filter fun w => w.active && w.res.isNone).map (fun w => (2, w.id * 4 + w.skirt)) ++
  s.dma.chans.map (fun e => if 16 ≤ (chanOf e.1).2 then (4, (chanOf e.1).1) else (3, e.1)) ++
  (s.qs.resident.filter fun q => !(s.que q).fly.isEmpty).map (fun q => (5, q)) ++
  s.cw.lines.filterMap (fun l => match l.use with
    | .fetch => none
    | .tail q => some (6, q)
    | .ctl c => some (6, 2 ^ 24 + c)
    | .wait q _ => some (6, 2 ^ 25 + q)) ++
  s.roll.visiting.map (fun v => (7, v.1)) ++ (match s.rcv.reset with
    | some (sc, u, _) => if sc = 1 || sc = 2 then [(7, u)] else []
    | none => [])

/-- Leases start with their resource and go with it. -/
def State.leaseSync (s : State) : State :=
  let held := s.leaseHeld.map fun e => leaseKey e.1 e.2
  let keep := s.rcv.leases.filter fun e => e.1 / 2 ^ 40 < 2 || e.1 / 2 ^ 40 = 8 || held.contains e.1
  held.foldl (fun s k => if (sFind s.rcv.leases k).isSome then s else s.leaseStart (k / 2 ^ 40) (k % 2 ^ 40))
    { s with rcv := { s.rcv with leases := keep } }

/-! ### Host invalidations (R351) -/

/-- An Invalidate Request whose invalidations and evictions are complete is answered. -/
def State.hostInvSettle (s : State) : State :=
  s.x.hostInvs.foldl (fun s h =>
    if s.x.invs.any (fun i => i.src = .host h.pm h.fn h.id) || s.res.reqs.any (fun r => r.host = some h.id) then s
    else (({ s with x := { s.x with hostInvs := s.x.hostInvs.filter fun o => o.id ≠ h.id } } : State).inc
      (pmReg h.pm 0x3060)).emit (.atsInvDone h.pm h.fn)) s

/-! ### Idle ports (R343) -/

/-- Whether pommel `k` has nothing pending toward the host. -/
def State.pmIdle (s : State) (k : Nat) : Bool :=
  !(s.acc.list.any fun a => a.kind = 1 && a.pm = k && a.ph = .ready) && !(s.x.walks.any fun w => w.host = 2 && w.via = k)

/-- A port that carries traffic now is awake, and its idle interval starts again. DEDUCED: what counts as traffic (log entry 90). -/
def State.portBusy (s : State) (k : Nat) : State := (s.setBit (pmReg k 0x3040) 2 false).timerSet .idle k (80 + k)

/-- The ports with something pending toward the host are awake. -/
def State.idleSync (s : State) : State :=
  ([0, 1, 2, 3] : List Nat).foldl (fun s k => if s.pmIdle k then s else s.portBusy k) s

/-! ### Settling -/

/-- One round of what the engines do by themselves. -/
def State.settleOnce (s : State) : State :=
  ((((s.stampSettle 1024).peerSettle).jobSettle).resSettle.restSettle).unblock

/-- The engines go on until what a command changed has taken effect. -/
def State.settle (s : State) : State :=
  ((s.hostLossSettle.lossSettle.settleOnce.settleOnce).hostInvSettle.lossSettle).rollSettle.unlockSettle.leaseSync.hbSync.idleSync

/-- The answer of a command that the engines take: its effect, and what follows from it at once. -/
def upS (s : State) (f : State → State) : Out := up s fun s => (f s).settle

/-- As `upS`, for a command that a block that is not up answers with the message `m` (R4, R35). -/
def upElseS (s : State) (m : OutMsg) (f : State → State) : Out := upElse s m fun s => (f s).settle

end Sys2Proof.Machine
end

