-- ==== Sys2Proof/Machine/QueueRows.lean ====
section
/-! DEFINITION. Commands of the queues: doorbells, records, programs, queue commands, control descriptors (R136 to R156). -/

namespace Sys2Proof.Machine

/-! ### Doorbells (R76, R141 to R144) -/

/-- Whether pommel `pm` takes memory requests on stream 0 (R37, R331). -/
def State.pmServes (s : State) (pm : Nat) : Bool := pm < 4 && s.linkActive pm && !s.lame (80 + pm)

/-- A write to the slot of queue `q` reaches pommel `pm`: forwarded to the skirt that its queue map names, or dropped
(R142). -/
def State.doorbellAt (s : State) (pm q : Nat) (tail head : Option W32) : State :=
  let m := sGet 0 s.qs.maps (pm * 65536 + q)
  if m = 0 then s.inc (pmReg pm 0x410)
  else { s with qs := { s.qs with fwd := s.qs.fwd ++ [{ pm := s.server (m - 1), queue := q, tail := tail, head := head }] } }

/-- R76, R141, R142, R349: a doorbell. A partition function reaches the queues of its partition only, and none while its
function-level reset runs. -/
def State.doorbellWrite (s : State) (fn pm q : Nat) (tail head : Option W32) : State :=
  if !s.pmServes pm || 65536 ≤ q || 64 < fn then s
  else if fn = 0 then s.doorbellAt pm q tail head
  else if !s.vfOn fn then s
  else if s.ep.flr.contains fn || !s.configured (fn - 1) || !s.inPartQue (fn - 1) q then s.doorbellDenied (fn - 1)
  else s.doorbellAt pm q tail head

/-- R141: a doorbell. -/
def execDoorbell (fn pm q : Nat) (tail head : Option W32) (s : State) : Out :=
  upS s fun s => s.doorbellWrite fn pm q tail head

/-- R139, R142: the next doorbell forwarded to pommel `pm` arrives there; for a queue that has become FREE it is dropped and
counted. -/
def execDoorbellForward (pm : Nat) (s : State) : Out :=
  upS s fun s =>
    match s.qs.fwd.find? fun m => m.pm = pm with
    | none => s
    | some m =>
      let t : State := { s with qs := { s.qs with fwd := s.qs.fwd.erase m } }
      if (s.que m.queue).state = 0 then t.inc (pmReg pm 0x410) else t.bell m.queue m.tail m.head

/-- R143: the invalidation of a watched tail line is the doorbell: the pommel re-reads the line. -/
def execSnoopDoorbell (q : Nat) (s : State) : Out :=
  upS s fun s =>
    if !s.cw.rung.contains q then s
    else { s with cw := { s.cw with rung := s.cw.rung.filter (fun x => x % 2 ^ 20 ≠ q) ++ [q + 2 ^ 20],
                                    lines := s.cw.lines.filter fun l => l.use ≠ .tail q } }

/-- R143: the re-read of a tail line returns, and the line is held Shared again. -/
def execTailLineReread (q : Nat) (tail head : W32) (s : State) : Out :=
  upS s fun s =>
    if !s.cw.rung.contains (q + 2 ^ 20) then s
    else
      let r := s.que q
      let s := { s with cw := { s.cw with rung := s.cw.rung.filter (· ≠ q + 2 ^ 20) } }
      if !s.qs.watch.contains q then s
      else
        (s.cwHold { pm := s.server r.skirt, line := r.tailLine, use := .tail q }).bell q (some tail) (some head)

/-! ### Records -/

/-- R138: the scheduler reaches a queue whose record is not resident, and loads it. -/
def execQueueRecordLoad (q : Nat) (s : State) : Out :=
  upS s fun s => if (s.que q).state = 0 then s else s.loadQue q

/-- R108: the record of a context is loaded into the cache of its home, and the requests that waited for it go on; where its guard
refuses the load, they end with the guard's status (R174, R175). -/
def execCtxRecordLoad (c : Nat) (s : State) : Out :=
  upS s fun s =>
    if !s.ctxInTable c then s
    else match s.loadCtx c with
    | (none, s) => s
    | (some 0, s) => s
    | (some g, s) =>
      (s.acc.list.filter fun a => a.ph = .ctxWait && a.ctx = c && !s.ctxResident c).foldl (fun s a => s.endAcc a.id g) s

/-! ### Programs and queue commands -/

/-- Queue `q` starts descriptor `d` at its NEXT when it has opcode `op`, and `f` runs it. -/
def State.beginOp (s : State) (op q : Nat) (d : Desc) (f : W32 → State → State) : State :=
  if dOp d = op then (s.wordsMet (s.queWords q)).begin q d f else s

/-- R150: the program of queue `q`, fetched whole, is checked. -/
def execProgramCheck (q : Nat) (ds : List Desc) (s : State) : Out := upS s fun s => s.programRun q ds

/-- R156: QUEUE_CREATE. -/
def execQueueCreate (q : Nat) (d : Desc) (s : State) : Out :=
  upS s fun s => s.beginOp 0xD0 q d fun ri s => s.queueCreateRun q ri d

/-- R137, R143, R144: QUEUE_START; `tail` and `head` are what the tail line holds when it is read. -/
def execQueueStart (q : Nat) (d : Desc) (tail head : W32) (s : State) : Out :=
  upS s fun s => s.beginOp 0xD1 q d fun ri s => s.queueStartRun q ri d tail head

/-- R137: QUEUE_STOP. -/
def execQueueStop (q : Nat) (d : Desc) (s : State) : Out :=
  upS s fun s => s.beginOp 0xD2 q d fun ri s => s.queueStopRun q ri d

/-- R137: a queue that was told to stop has nothing in flight. -/
def execQueueStopped (target : Nat) (s : State) : Out := upS s fun s => s.queStopped target

/-- R137: QUEUE_DESTROY. -/
def execQueueDestroy (q : Nat) (d : Desc) (s : State) : Out :=
  upS s fun s => s.beginOp 0xD3 q d fun ri s => s.queueDestroyRun q ri d

/-- R136: Q0_ENABLE = 1. -/
def execQ0EnableBuild (s : State) : Out := upS s State.q0Build

/-- R136: Q0_ENABLE = 0. -/
def execQ0Disable (s : State) : Out := upS s State.q0Stop

/-! ### Control descriptors (R151 to R155) -/

/-- R151: WAIT. -/
def execWait (q : Nat) (d : Desc) (s : State) : Out :=
  upS s fun s => s.beginOp 0x40 q d fun ri s => s.waitStart q ri d

/-- The pending WAIT of queue `q` that satisfies a test. -/
def State.waitJob (s : State) (q : Nat) (f : CtlJob → Bool) : Option CtlJob :=
  s.qs.jobs.find? fun j => j.queue = q && dOp j.desc = 0x40 && j.phase = 2 && f j

/-- R121, R151: the fence of a pending WAIT has changed, and the WAIT evaluates it; its wait entry reloads a record that was evicted
(R138). -/
def execWaitWake (q : Nat) (s : State) : Out :=
  upS s fun s =>
    match s.waitJob q fun j => s.cw.woken.contains (q, j.ri) with
    | none => s
    | some j =>
      let s := s.loadQue q
      if !s.qs.resident.contains q then s else s.waitLook j (j.aux2 % 4) j.aux false

/-- R44, R151: a WAIT with no wait entry polls its fence, every 64 ticks of its pommel. -/
def execWaitPoll (q : Nat) (s : State) : Out :=
  upS s fun s =>
    let n := s.queStation q
    match s.waitJob q fun j => !j.entry && s.timerDue .poll q n 64 with
    | none => s
    | some j => (s.timerSet .poll q n).waitLook j (j.aux2 % 4) j.aux false

/-- R151: WAIT_TICKS expires: the fence is evaluated once more, and only then the WAIT ends with TIMEOUT. -/
def execWaitTimeout (q : Nat) (s : State) : Out :=
  upS s fun s =>
    match s.waitJob q fun j => df j.desc 40 4 ≠ 0 && df j.desc 40 4 ≤ s.tk (s.queStation q) - j.since with
    | none => s
    | some j => s.waitLook j (j.aux2 % 4) j.aux true

/-- R120, R151: SIGNAL. -/
def execSignal (q : Nat) (d : Desc) (s : State) : Out :=
  upS s fun s => s.beginOp 0x41 q d fun ri s => s.signalStart q ri d

/-- R152: BRANCH. -/
def execBranch (q : Nat) (d : Desc) (s : State) : Out :=
  upS s fun s => s.beginOp 0x42 q d fun ri s => s.branchStart q ri d

/-- R153: LOOP. -/
def execLoop (q : Nat) (d : Desc) (s : State) : Out :=
  upS s fun s => s.beginOp 0x43 q d fun ri s => s.loopRun q ri d

/-- R155: STAMP. -/
def execStamp (q : Nat) (d : Desc) (s : State) : Out :=
  upS s fun s => s.beginOp 0x45 q d fun ri s => s.stampStart q ri d

end Sys2Proof.Machine
end

