-- ==== Sys2Proof/Machine/ObjRows.lean ====
section
/-! DEFINITION. Object commands of a privileged queue (R106 to R134). -/

namespace Sys2Proof.Machine

/-- R114: FRAME_SET. -/
def execFrameSet (q : Nat) (d : Desc) (s : State) : Out :=
  upS s fun s => s.beginOp 0xC0 q d fun ri s => s.frameSetRun q ri d

/-- R116: FRAME_RECLAIM up to its guard drain. -/
def execFrameReclaim (q : Nat) (d : Desc) (s : State) : Out :=
  upS s fun s => s.beginOp 0xC1 q d fun ri s => s.frameReclaimRun q ri d

/-- R119: CTX_CREATE. -/
def execCtxCreate (q : Nat) (d : Desc) (s : State) : Out :=
  upS s fun s => s.beginOp 0xC3 q d fun ri s => s.ctxCreateRun q ri d

/-- R119: CTX_REGIONS. -/
def execCtxRegions (q : Nat) (d : Desc) (s : State) : Out :=
  upS s fun s => s.beginOp 0xC4 q d fun ri s => s.ctxRegionsRun q ri d

/-- R119: CTX_SHARE. -/
def execCtxShare (q : Nat) (d : Desc) (s : State) : Out :=
  upS s fun s => s.beginOp 0xC5 q d fun ri s => s.ctxShareRun q ri d

/-- R109, R133, R134: CTX_REVOKE. -/
def execCtxRevoke (q : Nat) (d : Desc) (s : State) : Out :=
  upS s fun s => s.beginOp 0xC6 q d fun ri s => s.ctxRevokeRun q ri d

/-- R122: FENCE_ABANDON. -/
def execFenceAbandon (q : Nat) (d : Desc) (s : State) : Out :=
  upS s fun s => s.beginOp 0xC8 q d fun ri s => s.fenceAbandonRun q ri d

/-- R127: REF_ACK. -/
def execRefAck (q : Nat) (d : Desc) (s : State) : Out :=
  upS s fun s => s.beginOp 0xC9 q d fun ri s => s.refAckRun q ri d

/-- R107: CTX_QUERY. -/
def execCtxQuery (q : Nat) (d : Desc) (s : State) : Out :=
  upS s fun s => s.beginOp 0xCA q d fun ri s => s.ctxQueryRun q ri d

/-- R118: PTE_WRITE; `r` is how the read of the entries from host memory ends. -/
def execPteWrite (q : Nat) (d : Desc) (r : Ack) (s : State) : Out :=
  upS s fun s => s.beginOp 0xC2 q d fun ri s => s.pteWriteRun q ri d r

/-- R127: CTX_DESTROY. -/
def execCtxDestroy (q : Nat) (d : Desc) (s : State) : Out :=
  upS s fun s => s.beginOp 0xC7 q d fun ri s =>
    s.ctxDestroyRun q ri d (!resOk d [(16, 4), (20, 4)]) (df d 16 4) (df d 20 4)

/-- R116: the guards hold no admitted request for the range of a reclaim. -/
def execReclaimDrainDone (q : Nat) (ri : W32) (s : State) : Out := upS s fun s => s.reclaimDrained q ri

/-- R116: the range of a reclaim is zeroed and freed. -/
def execReclaimScrubDone (q : Nat) (ri : W32) (s : State) : Out := upS s fun s => s.reclaimScrubbed q ri

/-- R133: every queue of a revoked context has stopped and its translations are gone. -/
def execCtxRevoked (c : Nat) (s : State) : Out := upS s fun s => s.ctxRevokedRun c

end Sys2Proof.Machine
end

