-- ==== Sys2Proof/Machine/AccRows.lean ====
section
/-! DEFINITION. Tile accesses (R227 to R231, R321, R448, R497) and what frame guards do with accesses that reach them (R176 to
R180, R229). -/

namespace Sys2Proof.Machine

/-! ### Parts of a straddling access -/

/-- Whether both parts of a straddling store are translated (R229). -/
def State.bothTranslated (s : State) (a : Access) : Bool :=
  match s.sibling a with
  | some b => b.ph = .ready || b.ph = .checked
  | none => false

/-- Whether a part of a straddling store that is not in device memory may leave now: the other part needs no check, or its
check was admitted (R229). Every other access may leave. -/
def State.released (s : State) (a : Access) : Bool :=
  !a.storePart || match s.sibling a with
    | some b => (b.kind ≠ 2 && b.ph = .ready) || b.ph = .commit || (b.ph = .done && b.status = 0)
    | none => false

/-- The first status of R231 that a part ended with. -/
def worstPart (l : List Nat) : Nat :=
  (([5, 7, 4, 9, 8, 11] : List Nat).find? fun x => l.contains x).getD (l.foldl max 0)

/-- An arrival under a retired tag is absorbed (R432). -/
def State.absorb (s : State) (a : Access) : State := (s.inc (0x140 + 4 * skirtOf a.station)).dropAcc a.id

/-! ### Homes -/

/-- A fence atomic of a tile is performed at its home, and accounted (R120). -/
def State.tileSignal (s : State) (a : Access) : State :=
  let (g, s) := s.fenceAt (skirtOf a.station) a.kind a.pa a.op a.expect a.who
  let v := match a.op with
    | .signal v => v
    | _ => 0
  let s := if g.status ≠ 0 then s
    else if g.outcome = 1 then s.lateSignal a.ctx
    else if g.outcome = 2 then (s.refusedSignal a.ctx).errCtx a.ctx 4 0x0401 a.station 1 a.va v
    else s
  s.setAcc { a with ph := .done, status := if g.status ≠ 0 then g.status else if g.outcome = 2 then 1 else 0 }

/-- An access has its effect at its guard (R176, R180); `bad` is a line that the stack controller could not correct. -/
def State.guardEffect (s : State) (a : Access) (bad : Bool) : State :=
  match a.op with
  | .store d pz =>
    let (d, s) := s.blend s.dev a d
    let (st, s) := s.devWrite a.pa d pz a.expect a.who
    s.setAcc { a with ph := .done, status := st }
  | .signal _ => s.tileSignal a
  | _ =>
    let (st, d, pz, s) := s.devRead a.pa a.len a.expect a.who bad
    s.setAcc { a with ph := .done, status := st, data := d, pz := pz }

/-- R26, R176, R229: access `a` reaches its guard, after those before it on its path. -/
def execGuardRequest (a : Nat) (uncorrectable : Bool) (s : State) : Out :=
  upS s fun s =>
    match s.acc? a with
    | none => s
    | some a =>
      if a.kind ≠ 2 || a.ph ≠ .ready || !s.firstOnPath a then s
      else if a.retired then s.absorb a
      else
      let s := s.wordsMet (s.guardWords (a.pa / 4096))
      match a.src with
      | .inbound k =>
        (match s.inb? k with
        | none => s.dropAcc a.id
        | some i =>
          let (g, s) := s.inbEffect a i.w uncorrectable
          s.inbGot a g)
      | .tile _ _ _ _ =>
        if !a.storePart then s.guardEffect a uncorrectable
        else if !s.bothTranslated a then s
        else
          let (st, s) := s.guardCheck (a.pa / 4096) a.expect a.who
          s.setAcc { a with ph := .checked, status := st }
      | .chan _ _ => s.guardEffect a uncorrectable
      | _ => s

/-- The parts of the straddling access in reassembly entry `e` of stirrup `st`. -/
def State.partsOf (s : State) (st e : Nat) : List Access :=
  s.acc.list.filter fun a => match a.src with
    | .tile n _ p re => n = st && re = e && p ≠ 0
    | _ => false

/-- R229, R231: the check results of a straddling store are in: commit to every guard, or abort. -/
def execStraddleCheckResult (st e : Nat) (s : State) : Out :=
  upS s fun s =>
    let ps := s.partsOf st e
    if !(ps.all (·.storePart)) || ps.any (fun a => a.ph = .commit || a.ph = .abort) then s
    else
      let bad := (ps.filter fun a => (a.ph = .checked || a.ph = .done) && a.status ≠ 0).map (·.status)
      if !bad.isEmpty then
        ps.foldl (fun s a => s.setAcc
          (if a.ph = .checked then { a with ph := .abort, status := worstPart bad }
           else { a with ph := .done, status := worstPart bad, entry := none, since := none })) s
      else if ps.all fun a => a.ph = .checked || (a.ph = .ready && a.kind ≠ 2) then
        ps.foldl (fun s a => if a.ph = .checked then s.setAcc { a with ph := .commit, sent := true } else s) s
      else s

/-- A commit, or the host-backed part that goes out with the commits, is lost with its guard or link or on its way (R229): LAME, with
a record that names both parts. -/
def State.commitLost (s : State) (a : Access) : State :=
  let b := (s.sibling a).getD a
  let s := if b.ph = .done && b.status = 11 then s
    else s.errCtx a.ctx 4 0x0406 a.station 11 (min a.va b.va) (max a.va b.va)
  s.setAcc { a with ph := .done, status := 11 }

/-- R229: a commit reaches its guard. -/
def execGuardCommit (a : Nat) (s : State) : Out :=
  upS s fun s =>
    match s.acc? a with
    | none => s
    | some a =>
      if a.ph ≠ .commit then s
      else if a.retired then s.absorb a
      else if !s.guardUp (s.guardOf (a.pa / 4096)) then s.commitLost a
      else match a.op with
      | .store d pz => ({ s with dev := s.dev.writeP a.pa d pz } : State).setAcc { a with ph := .done, status := 0 }
      | _ => s

/-- R229: an abort reaches its guard, which writes nothing. -/
def execGuardAbort (a : Nat) (s : State) : Out :=
  upS s fun s =>
    match s.acc? a with
    | none => s
    | some a => if a.ph = .abort then s.setAcc { a with ph := .done } else s

/-! ### Tile accesses -/

/-- A straddling store that ends without a commit is counted (R236). -/
def State.countAbort (s : State) (st : Nat) (a b : Access) (w : Nat) : State :=
  let host (x : Access) : Bool := x.kind = 1 || x.kind = 3
  if a.storePart && w ≠ 0 && !(a.sent || b.sent) && !(host a && host b) then s.inc (pageOf st + 0x62C) else s

/-- The tile receives its answer: a whole access when it has ended; a straddling one when both parts have, or at once with
the status of a part that failed before anything was committed (R228, R231). -/
def State.tileDeliver (s : State) (id : Nat) : State :=
  match s.acc? id with
  | none => s
  | some a =>
    match a.src with
    | .tile st tag p _ =>
      if a.ph ≠ .done then s
      else if p = 0 then (s.emit (.tile st tag a.status (a.pz.any (· = true)) a.data)).dropAcc id
      else (match s.sibling a with
        | none => s
        | some b =>
          if b.ph = .done then
            let w := worstPart [a.status, b.status]
            let d := if p = 1 then a.data ++ b.data else b.data ++ a.data
            (((s.countAbort st a b w).emit (.tile st tag w (w = 7) (if w = 0 then d else []))).dropAcc a.id).dropAcc b.id
          else if a.status ≠ 0 && !(b.ph = .checked || b.ph = .commit || b.ph = .abort) &&
              !(a.storePart && (s.released b && b.ph = .ready || b.sent) && a.status = 11) then
            (((s.countAbort st a b a.status).emit (.tile st tag a.status (a.status = 7) [])).dropAcc a.id).dropAcc b.id
          else s)
    | _ => s

/-- R321: the answer to tile access `a` returns. -/
def execTileAccessComplete (a : Nat) (r : Ack) (s : State) : Out :=
  upS s fun s =>
    match s.acc? a with
    | none => s
    | some a =>
      match a.src with
      | .tile _ _ _ _ =>
        if a.ph = .done then s.tileDeliver a.id
        else if a.retired && (a.ph = .ready || a.ph = .commit) then s.absorb a
        else if a.ph = .ready && a.kind = 1 && s.released a then
          (match a.op with
          | .signal _ =>
            let fin (st : Nat) : State := s.setAcc { a with ph := .done, status := st }
            let free (st : Nat) : State :=
              let (k, s) := s.draw
              if (Config.free64 k).getLsbD 0 then (match (s.tileSignal a).acc? a.id with
                | some b => (s.tileSignal a).setAcc { b with status := st }
                | none => s)
              else s.setAcc { a with ph := .done, status := st }
            (match r with
            | .timeout => free 9
            | .lost => free 11
            | .poisoned => fin 7
            | _ => s.tileSignal a)
          | _ =>
            let (g, s) := s.hostAccess a r
            if a.storePart && g.status ≠ 0 && g.status ≠ 7 then s.commitLost a
            else s.setAcc { a with ph := .done, status := g.status, data := g.data, pz := g.pz }).tileDeliver a.id
        else if a.ph = .ready && a.kind = 2 && !a.storePart && (r = .timeout || r = .lost) then
          (s.setAcc { a with ph := .done, status := if r = .timeout then 9 else 11 }).tileDeliver a.id
        else if a.ph = .commit && (r = .timeout || r = .lost) then
          let (k, s) := s.draw
          let s := match a.op with
            | .store d pz => if (Config.free64 k).getLsbD 0 then { s with dev := s.dev.writeP a.pa d pz } else s
            | _ => s
          (s.commitLost a).tileDeliver a.id
        else s
      | _ => s

/-- A tile request is refused, with a status and no data. -/
def State.tileRefuse (s : State) (st tag status : Nat) : State := s.emit (.tile st tag status false [])

/-- Why stirrup `st` refuses a tile access of context `c` (R37, R38, R106, R448, R497), if it does: INVALID beyond the context table,
before the partition is looked at (R131). DESIGN CHOICE: a port that is
down refuses with LAME; DEDUCED: a context that is revoked takes no access (log entry 27). -/
def State.tileRefusal (s : State) (st c : Nat) : Option Nat :=
  let x := s.ctx c
  let owner := (List.range 64).find? fun p => s.configured p && s.ownsStirrup p st
  if !s.live st || (match s.rcv.reset with
    | some (sc, u, _) => sc = 2 && u = st
    | none => false) then some 11
  else if 2 ^ s.odNum 0x2000 0x21 ≤ c then some 1
  else match owner with
  | none => some 4
  | some p =>
    if !s.inPartCtx p c then some 4
    else if x.state = 4 || 5 ≤ x.state || (x.state = 3 && s.cs.rest.any fun t => t.ctx = c && 4 ≤ t.step) then some 8
    else none

/-- Whether the tile port of stirrup `st` takes accesses of context `c` now (R440): it is enabled, and no roll visits it. -/
def State.tileOpen (s : State) (st c : Nat) : Bool :=
  (s.tileRefusal st c).isNone && s.bit (pageOf st) 15 && !s.roll.visiting.any (fun v => v.1 = st)

/-- The access of tile `tag` of stirrup `st`, whole (part 0) or one of its two parts in reassembly entry `re`. -/
def State.tileAcc (s : State) (st tag c va len : Nat) (write : Bool) (op : AccOp) (part : Nat := 0) (re : Nat := 0) : Access :=
  { id := 0, src := .tile st tag part re, station := st, ctx := c, gen := (s.ctx c).gen, va := va, len := len,
    write := write, op := op }

/-- A tile access arrives at stirrup `st` (R227): it is refused, or issued whole or in two parts. A straddling access that
finds no reassembly entry free, and any access while a roll visits the stirrup (R440), waits at the tile port: the tile
presents it again. -/
def State.tileGo (s : State) (st tag c va len : Nat) (write : Bool) (op : Nat → Nat → AccOp) : State :=
  if 80 ≤ st || len = 0 || 4096 < len then s
  else
  let s := s.wordsMet (s.xlatWords st c)
  match s.tileRefusal st c with
  | some e => (if e = 4 then s.inc (pageOf st + 0x630) else s).tileRefuse st tag e
  | none =>
    if !s.tileOpen st c then s
    else
      let low := 4096 - va % 4096
      if len ≤ low then (s.issue (s.tileAcc st tag c va len write (op 0 len))).2
      else match (List.range 32).find? fun e => (s.partsOf st e).isEmpty with
      | none => s
      | some e => (((s.inc (pageOf st + 0x628)).issue (s.tileAcc st tag c va low write (op 0 low) 1 e)).2.issue
          (s.tileAcc st tag c ((va + low) % 2 ^ 64) (len - low) write (op low (len - low)) 2 e)).2

/-- R186, R227, R228: a tile load. A block that is not up refuses it, as every tile request (R4, R35, log entry 27). -/
def execTileLoad (st tag ctx : Nat) (va : W64) (len : Nat) (s : State) : Out :=
  upElseS s (.tile st tag 11 false []) fun s => s.tileGo st tag ctx va.toNat len false fun _ _ => .load

/-- R229: a tile store. -/
def execTileStore (st tag ctx : Nat) (va : W64) (data : Bytes) (s : State) : Out :=
  upElseS s (.tile st tag 11 false []) fun s => s.tileGo st tag ctx va.toNat data.length true fun o n =>
    .store ((data.drop o).take n) (List.replicate n false)

/-- R120, R321: a tile's fence atomic. A word that is not aligned is no fence word (R120). -/
def execTileFenceAtomic (st tag ctx : Nat) (va : W64) (v : W64) (s : State) : Out :=
  upElseS s (.tile st tag 11 false []) fun s =>
    if va.toNat % 8 ≠ 0 then (if 80 ≤ st then s else s.tileRefuse st tag 1)
    else s.tileGo st tag ctx va.toNat 8 true fun _ _ => .signal v.toNat

end Sys2Proof.Machine
end

