-- ==== Sys2Proof/Machine/DmaRows.lean ====
section
/-! DEFINITION. Commands of the DMA channels and the skiving units (R154, R265 to R306). -/

namespace Sys2Proof.Machine

/-! ### Data descriptors -/

/-- Queue `q` starts the data descriptor `d` of opcode `op`, and for a COPY of SKV_OP `skv`, on channel `ch` of station `st`
(R145, R266, R269). With no channel that qualifies it waits; on a privileged queue it needs none, and ends with DENIED (R149). -/
def State.dataBegin (s : State) (op : Nat) (skv : Option Nat) (q : Nat) (d : Desc) (st ch : Nat) : State :=
  if dOp d ≠ op || skv.any (fun v => v ≠ df d 98 1) then s
  else
  let s := s.wordsMet (s.queWords q)
  if opAllowed (s.que q).priv op && !s.chanFor q st ch then s
  else s.begin q d fun ri s => s.chanStart (chanKey st ch) q ri d (termAt d (s.loopReg q d))

/-- R269: COPY with MOVE. -/
def execCopy (q : Nat) (d : Desc) (st ch : Nat) (s : State) : Out := upS s fun s => s.dataBegin 1 (some 0) q d st ch

/-- R294: COPY with ACCUM_SUM. -/
def execAccumSum (q : Nat) (d : Desc) (st ch : Nat) (s : State) : Out := upS s fun s => s.dataBegin 1 (some 1) q d st ch

/-- R294: COPY with ACCUM_MAX. -/
def execAccumMax (q : Nat) (d : Desc) (st ch : Nat) (s : State) : Out := upS s fun s => s.dataBegin 1 (some 2) q d st ch

/-- R294: COPY with ACCUM_MIN. -/
def execAccumMin (q : Nat) (d : Desc) (st ch : Nat) (s : State) : Out := upS s fun s => s.dataBegin 1 (some 3) q d st ch

/-- R299: COPY with CKSUM_APPEND. -/
def execCksumAppend (q : Nat) (d : Desc) (st ch : Nat) (s : State) : Out := upS s fun s => s.dataBegin 1 (some 4) q d st ch

/-- R300: COPY with CKSUM_VERIFY. -/
def execCksumVerify (q : Nat) (d : Desc) (st ch : Nat) (s : State) : Out := upS s fun s => s.dataBegin 1 (some 5) q d st ch

/-- R273: FILL. -/
def execFill (q : Nat) (d : Desc) (st ch : Nat) (s : State) : Out := upS s fun s => s.dataBegin 2 none q d st ch

/-- R274: GATHER_REDUCE. -/
def execGatherReduce (q : Nat) (d : Desc) (st ch : Nat) (s : State) : Out := upS s fun s => s.dataBegin 3 none q d st ch

/-- The station whose skiving unit serves a REDUCE of skirt `k`: its pommel's, else that of the lowest live stirrup (R306). -/
def State.reduceStation (s : State) (k : Nat) : Option Nat :=
  let pm := 80 + s.server k
  if s.live pm && s.skvLive pm then some pm
  else (List.range 80).find? fun n => skirtOf n = k && s.live n && s.skvLive n

/-- R154, R305: REDUCE runs on the pommel of the queue's skirt; with no unit left it completes with LAME (R435). -/
def execReduce (q : Nat) (d : Desc) (s : State) : Out :=
  upS s fun s => s.beginOp 0x44 q d fun ri s =>
    match s.reduceStation (s.que q).skirt with
    | none => s.descDone q ri d { status := 11, station := s.queStation q }
    | some st =>
      match (List.range 8).find? fun i => (s.chan? (chanKey st (16 + q * 8 + i))).isNone with
      | none => s
      | some i => s.chanStart (chanKey st (16 + q * 8 + i)) q ri d (termAt d (s.loopReg q d))

/-! ### Verify buffers -/

/-- R305: the channel that has waited longest in station `st` gets a free verify-buffer slot. -/
def execVbufSlotGranted (st ch : Nat) (s : State) : Out :=
  upS s fun s =>
    let key := chanKey st ch
    let held := (s.dma.chans.filter fun e => (chanOf e.1).1 = st && e.2.vbuf).length
    if (s.dma.vwait.find? fun k => (chanOf k).1 = st) ≠ some key || 4 ≤ held then s
    else match s.chan? key with
    | none => s
    | some c =>
      let s := { s with dma := { s.dma with vwait := s.dma.vwait.filter (· ≠ key) } }
      (s.unitBegin key { c with vbuf := true, stage := 1 }).chanIssue key

/-! ### Accesses of a channel -/

/-- Access `a` of a channel completes (R267): what it got is taken up. -/
def State.dmaDone (s : State) (a : Access) (r : Ack) : State :=
  let late : Bool := r = .timeout || r = .lost
  if a.ph = .done then
    (if a.retired then s.absorb a
     else s.chanGot a { status := a.status, data := a.data, pz := a.pz } (r = .residue))
  else if a.ph ≠ .ready || a.kind = 2 && !s.firstOnPath a then s
  else if a.retired then s.absorb a
  else if a.kind = 1 then
    let (g, s) := s.hostAccess a r
    s.chanGot a g (r = .residue)
  else if a.kind = 2 && late && s.firstOnPath a then s.chanGot a { status := if r = .timeout then 9 else 11 } false
  else s

/-- R267: access `a` of a channel completes. -/
def execDmaAccessDone (a : Nat) (r : Ack) (s : State) : Out :=
  upS s fun s =>
    match s.acc? a with
    | none => s
    | some a =>
      match a.src with
      | .chan st ch => (s.wordsMet (s.dmaWords st ch a)).dmaDone a r
      | _ => s

/-- The status with which the read-back of a path ends at its home (R275, R323). -/
def State.backStatus (s : State) (st : Nat) (c : Chan) (p : WPath) (r : Ack) : Option Nat × State :=
  let late : Option Nat := match r with
    | .timeout => some 9
    | .lost => some 11
    | .poisoned => some 7
    | _ => none
  if p.kind = 1 then
    if s.inOrphan then (if r = .poisoned then none else late, s)
    else match late with
    | some e => (some e, s)
    | none =>
      (some (if s.host.poisoned (p.addr / 64 * 64) 64 then 7 else 0), s.inc (pmReg (p.id / 4) 0x3018))
  else if p.kind = 2 then
    match late with
    | some e => (some e, s)
    | none =>
      let (g, s) := s.guardCheck (p.addr / 4096) p.expect { ctx := some c.ctx, station := st }
      (some (if g ≠ 0 then g else if s.dev.poisoned (p.addr / 64 * 64) 64 then 7 else 0), s)
  else (none, s)

/-- R275: read-back `path` of the descriptor on channel `ch` of station `st` returns; with the last one the descriptor
completes. The read-back of a node returns as its access does. -/
def execDmaReadbackDone (st ch path : Nat) (r : Ack) (s : State) : Out :=
  upS s fun s =>
    let key := chanKey st ch
    match s.chan? key with
    | none => s
    | some c =>
      match c.paths[path]? with
      | none => s
      | some p =>
        if c.stage ≠ 3 || p.back then s
        else
          let (e, s) := s.backStatus st c p r
          match e with
          | none => s
          | some e => s.pathBack key c path e

/-- Ticks of the unit timeout (R46, R281). -/
def handshakeTicks : Nat := 160

/-- R46, R281: the handshakes of a channel stall for its unit timeout: the page under way ends with TIMEOUT, and the stall is
reported. A read-back counts from the time at which the read-backs went out. -/
def execHandshakeTimeout (st ch : Nat) (s : State) : Out :=
  upS s fun s =>
    let key := chanKey st ch
    match s.chan? key with
    | none => s
    | some c =>
      let report (s : State) : State := s.errQueue c.queue 6 0x0601 st 9 0 (3 + 256 * ch)
      if c.stage = 3 then
        (match (c.paths.zipIdx).find? fun e => !e.1.back with
        | some e => if s.timerDue .stall key st handshakeTicks then (report s).pathBack key c e.2 9 else s
        | none => s)
      else
        match (c.wfly ++ c.fly).findSome? fun e => (s.acc? e.1).bind fun a =>
          if a.ph = .ready && handshakeTicks ≤ s.tk st - a.born then some a else none with
        | none => s
        | some a => if a.kind = 3 then (report s).chanGot a { status := 9 } false else (report s).dmaDone a .timeout

/-! ### The DMA unit of a station (R279, R283) -/

/-- A write of DMA_CTRL.ENABLE (R279, R283): 1 enables, 0 starts quiescence. -/
def State.dmaSet (s : State) (st : Nat) (on : Bool) : State :=
  if !s.live st then s
  else
    let s := s.setBit (pageOf st + 0x2000) 0 on
    if on then (s.setBit (pageOf st + 0x2004) 0 true).setBit (pageOf st + 0x2004) 1 false
    else if s.bit (pageOf st + 0x2004) 0 then s.setBit (pageOf st + 0x2004) 1 true else s

/-- R283: ENABLE = 1. -/
def execDmaEnable (st : Nat) (s : State) : Out := upS s fun s => s.dmaSet st true

/-- R279: ENABLE = 0 starts quiescence. -/
def execDmaDisable (st : Nat) (s : State) : Out := upS s fun s => s.dmaSet st false

/-- R64, R279: no channel of the station holds a descriptor: ENABLED falls. -/
def execDmaQuiesced (st : Nat) (s : State) : Out :=
  upS s fun s =>
    if !s.bit (pageOf st + 0x2004) 1 || s.dma.chans.any (fun e => (chanOf e.1).1 = st && (chanOf e.1).2 < 16) then s
    else (s.setBit (pageOf st + 0x2004) 0 false).setBit (pageOf st + 0x2004) 1 false

end Sys2Proof.Machine
end

