-- ==== Sys2Proof/Machine/XlatRows.lean ====
section
/-! DEFINITION. Commands of the walkers, the translation caches, the stamp service, the fault service and the host's
translation services (R161 to R235, R350 to R352). -/

namespace Sys2Proof.Machine

/-! ### Walks -/

/-- The walk with a number. -/
def State.walk? (s : State) (w : Nat) : Option Walk := s.x.walks.find? fun v => v.id = w

/-- R163, R187: the table read of walk `w` returns. -/
def execWalkTableReadDone (w : Nat) (s : State) : Out :=
  upS s fun s =>
    match s.walk? w with
    | none => s
    | some v => if v.active && v.host = 0 then s.walkRead v else s

/-- A translation request is over: its walk goes on, and requests that waited for room at their pommel are sent. -/
def State.hostAnswered (s : State) (v : Walk) (ans : HostAnswer) : State :=
  (match v.res with
  | some (pm, i) => ((s.dropWalk v.id).migAnswer (pm * 65536 + i) ans v.write).sendWaiting
  | none => (s.hostAnswer v ans).sendWaiting)

/-- R169, R192, R252: the host answers the translation request of walk `w`. -/
def execHostTranslationAnswer (w : Nat) (ans : HostAnswer) (s : State) : Out :=
  upS s fun s =>
    match s.walk? w with
    | none => s
    | some v => if v.host = 2 then s.hostAnswered v ans else s

/-- R350: a translation request has had no completion within ATS_TIMEOUT_TICKS: no answer. -/
def execAtsRequestTimeout (w : Nat) (s : State) : Out :=
  upS s fun s =>
    match s.walk? w with
    | none => s
    | some v =>
      if v.host ≠ 2 || s.tk (80 + v.via) - v.sent < s.odNum 0x2000 0x51 then s
      else ((s.epFlag v.via 1).inc (pmReg v.via 0x305C)).hostAnswered v .abort

/-! ### Stamps -/

/-- R195 to R197: the stamp service takes sidecar slot `slot` for descriptor `d` at ring index `ri` of queue `q`. -/
def execStampService (q : Nat) (ri : W32) (d : Desc) (slot : Nat) (s : State) : Out :=
  upS s fun s => s.stampService q ri d slot

/-- R196: every page of a slot is translated. -/
def execStampReady (skirt slot : Nat) (s : State) : Out :=
  upS s fun s => if skirt < 4 && slot < 4096 then s.stampReady skirt slot else s

/-! ### Invalidations -/

/-- R200 to R202: GO at invalidation slot `slot` of pommel `pm`. -/
def execTlbInvalidate (pm slot : Nat) (irq : Bool) (s : State) : Out :=
  upS s fun s => if pm < 4 && slot < 4 then s.invGo pm slot irq else s

/-- Tell whose invalidation has completed (R200). -/
def State.invTell (s : State) (i : Inv) : State :=
  match i.src with
  | .slot pm k =>
    let o := pmReg pm (0x600 + 0x20 * k)
    (s.inc (pmReg pm 0x6B0)).slotDone (o + 0x18) 0 0 (if s.bit (o + 0x14) 1 then some (0xCA0 + 4 * pm + k) else none)
  | .job q ri => (match s.job? q ri with
    | some j => s.jobDone j 0 0 0
    | none => s)
  | .engine _ k => s.engineInvDone k
  | .rest c => (match s.cs.rest with
    | some t => if t.ctx = c && t.step = 4 then { s with cs := { s.cs with rest := some { t with step := 5 } } } else s
    | none => s)
  | .host _ _ _ => s
  | .revoke _ => s
  | .block => s

/-- R203: step 5 of invalidation `i` is done. -/
def execInvalidationComplete (i : Nat) (s : State) : Out :=
  upS s fun s =>
    match s.x.invs.find? fun v => v.id = i with
    | none => s
    | some v =>
      if !s.invSettled v then s
      else ((s.trace 4 (80 + s.invPm v) v.ctx v.pages).invTell v).invEnd v

/-- The contexts that an Invalidate Request of function `fn` concerns (R351). -/
def State.invContexts (s : State) (fn : Nat) (pasid : Option Nat) (global : Bool) : List Nat :=
  match pasid with
  | none => []
  | some p => (s.cs.recs.filter fun e => e.2.state ≠ 0 && s.fnOf e.1 = fn && (global || e.2.pasid = p)).map Prod.fst

/-- An Invalidate Request (R259, R351): the translations of its contexts for its range go, in the caches and where the residency
engine holds them; a range that is malformed covers the contexts' whole space. -/
def State.hostInvalidate (s : State) (fn : Nat) (pasid : Option Nat) (va : W64) (pages : Nat) (global : Bool) : State :=
  let pm := s.bootPm
  let good : Bool := pages ≠ 0 && halfOk va.toNat pages
  let first := if good then vpage va.toNat else 0
  let n := if good then pages else 0
  let id := s.x.nextInv
  let h : HostInv := { id := id, pm := pm, fn := fn }
  let s := { s with x := { s.x with nextInv := id + 1, hostInvs := s.x.hostInvs ++ [h] } }
  (s.invContexts fn pasid global).foldl (fun s c =>
    let s := s.invalidate (.host pm fn id) c first n
    (s.resHostInv id c first (if good then pages else 2 ^ 45)).2) s

/-- R259, R351: an Invalidate Request. -/
def execAtsInvalidateRequest (fn : Nat) (pasid : Option Nat) (va : W64) (pages : Nat) (global : Bool) (s : State) : Out :=
  upS s fun s => s.hostInvalidate fn pasid va pages global

/-! ### Page requests (R218, R352) -/

/-- R218: a page request group response. -/
def execPrgResponse (index pasid : Nat) (code : PrgCode) (s : State) : Out := upS s fun s => s.prgResponse index pasid code

/-- R352: software writes PRI Control Reset: Response Failure clears, and page requests may be sent again. -/
def execPriControlReset (s : State) : Out :=
  upS s fun s => (s.setCfg 0 cfgPri (s.cfg 0 cfgPri &&& ~~~(0x30000#32))).sendPris

/-- R352: PRI Enable is written to 0. Entries whose request was not sent end with FAULT; those outstanding end when their
response comes. -/
def State.priOff (s : State) : State :=
  let s := s.setCfg 0 cfgPri (s.cfg 0 cfgPri &&& ~~~(1#32))
  ((s.flt.entries.filter fun e => e.host && e.pri.isNone).foldl (fun s e => s.endEntry e (some 5)) s).priStopped

/-- R352: PRI Enable is written to 0. -/
def execPriDisable (s : State) : Out := upS s State.priOff

/-! ### Fault responses (R216, R224, R225) -/

/-- Whether a response would find records not consumed, or requests held under R222 (R225). -/
def State.ringBusy (s : State) (c : Nat) : Bool :=
  (s.ctx c).frTail ≠ (s.ctx c).frHead ||
    s.acc.list.any fun a => a.ctx = c && a.ph = .held && a.entry.isNone && a.since.isSome

/-- GO at fault response slot `k` of pommel `pm` (R224, R225). -/
def State.fltGo (s : State) (pm k : Nat) (irq : Bool) : State :=
  let o := pmReg pm (0x700 + 0x20 * k)
  if !s.live (80 + pm) then s
  else if s.slotBusy (o + 0x14) then s.inc (pmReg pm 0x7AC)
  else
    let c := s.fld o 0 20
    let gen := (s.rd (o + 4)).toNat
    let tag := (s.rd (o + 8)).toNat
    let op := s.fld (o + 0xC) 0 2
    let all := s.bit (o + 0xC) 2
    let s := s.setFld (o + 0x10) 1 1 (b2n irq)
    let src := if irq then some (0xCB0 + 4 * pm + k) else none
    let x := s.ctx c
    let e := s.tagged c tag
    match firstRef [(!s.ctxInTable c || op = 3 || (all && op ≠ 1), 1, 0),
        (gen ≠ x.gen || (op < 2 && !all && e.isNone), 10, 0), (op = 2 && x.state ≠ 2, 2, 0x20 + x.state),
        (op = 2 && s.ringBusy c, 2, 0x30)] with
    | some r => s.slotDone (o + 0x14) r.1 r.2 src
    | none =>
      let s :=
        if op = 2 then
          (s.ctxQueues c).foldl (fun s q => s.unpauseQue q 0) (s.setCtx c { x with state := 1 })
        else if all then (s.flt.entries.filter fun f => f.ctx = c && !f.host).foldl (fun s f => s.endEntry f (some 5)) s
        else match e with
        | some f => s.endEntry f (if op = 0 then none else some 5)
        | none => s
      s.slotDone (o + 0x14) 0 0 src

/-- The response that a slot's registers ask for: OP, and ALL. -/
def State.fltOp (s : State) (pm k : Nat) : Nat × Bool :=
  let o := pmReg pm (0x700 + 0x20 * k + 0xC)
  (s.fld o 0 2, s.bit o 2)

/-- R225: GO of a RETRY. -/
def execRetry (pm slot : Nat) (irq : Bool) (s : State) : Out :=
  upS s fun s => if pm < 4 && slot < 4 && s.fltOp pm slot = (0, false) then (s.wordsMet (faultWords pm)).fltGo pm slot irq else s

/-- R225: GO of a FAIL. -/
def execFail (pm slot : Nat) (irq : Bool) (s : State) : Out :=
  upS s fun s => if pm < 4 && slot < 4 && s.fltOp pm slot = (1, false) then (s.wordsMet (faultWords pm)).fltGo pm slot irq else s

/-- R225: GO with ALL, which only FAIL may carry. -/
def execFailAll (pm slot : Nat) (irq : Bool) (s : State) : Out :=
  upS s fun s => if pm < 4 && slot < 4 && (s.fltOp pm slot).2 then (s.wordsMet (faultWords pm)).fltGo pm slot irq else s

/-- R233: GO of a RESUME, or of the OP code that is none. -/
def execResume (pm slot : Nat) (irq : Bool) (s : State) : Out :=
  upS s fun s =>
    if pm < 4 && slot < 4 && 2 ≤ (s.fltOp pm slot).1 && !(s.fltOp pm slot).2 then (s.wordsMet (faultWords pm)).fltGo pm slot irq else s

/-- R216: an entry has had no response within FAULT_RESPONSE_TICKS. A host-side entry whose request waits to be sent waits
without limit (R217). -/
def execFaultResponseTimeout (pm entry : Nat) (s : State) : Out :=
  upS s fun s =>
    match s.flt.entries.find? fun e => e.pm = pm && e.idx = entry with
    | none => s
    | some e =>
      let t := s.odNum 0x5000 0x26
      if t = 0 || s.tk (80 + pm) - e.since < t || (e.host && e.pri.isNone) then s
      else ((s.errCtx e.ctx 3 0x0306 (80 + pm) 9 (pageVa e.page) 0).inc (pmReg pm 0x79C)).endEntry e (some 9)

/-- R221: the control line of context `c`, read after its invalidation, holds `head`; it is held again. -/
def execFaultRingHead (c : Nat) (head : W32) (s : State) : Out :=
  upS s fun s => if s.cw.moved.contains c then (s.ctlHold c true).ringHead c head else s

/-- The context of access `a` stalls (R232): FAULT_STALLED, reported, its queues paused. -/
def State.faultStall (s : State) (a : Access) : State :=
  let c := a.ctx
  let k := s.homeOf c
  let s := (s.setCtx c { s.ctx c with state := 2 }).errCtx c 4 0x0404 a.station 0 0 0
  let s := (s.raise (pmReg k 0x780) 2 (pmReg k 0x7A8)).irq (0xC90 + k)
  (s.ctxQueues c).foldl (fun s q => s.pauseQue q 0) s

/-- R232: access `a` has been held with no entry for FAULT_HOLD_TICKS: its context stalls. -/
def execFaultStall (a : Nat) (s : State) : Out :=
  upS s fun s =>
    match s.acc? a with
    | none => s
    | some a =>
      match a.since with
      | none => s
      | some t =>
        if a.ph ≠ .held || s.tk a.station - t < s.odNum 0x5000 0x25 || (s.ctx a.ctx).state ≠ 1 then s else s.faultStall a

end Sys2Proof.Machine
end

