-- ==== Sys2Proof/Machine/PeerRows.lean ====
section
/-! DEFINITION. Commands of the peer ports: Ixcia packets and timers, ports, peer objects, RoCEv2 packets (R372 to R397). -/

namespace Sys2Proof.Machine

/-! ### Sending -/

/-- R374, R379, R388, R462: access `a` to a peer-backed address goes to its node. -/
def execIxciaSend (a : Nat) (s : State) : Out :=
  upS s fun s =>
    match s.acc? a with
    | some x => if s.released x then (s.wordsMet (· = .conduit x.node)).ixciaSend a else s
    | none => s

/-! ### Packets received (R378, R382) -/

/-- R378, R387: a WRITE arrives. -/
def execWrite (cn : Nat) (p : Packet) (s : State) : Out := upS s fun s => (s.wordsMet (· = .conduit p.srcNode)).ixGot cn p false fun s => s.seqGot cn 1 p

/-- R378, R387: a READ_REQ arrives. -/
def execReadReq (cn : Nat) (p : Packet) (s : State) : Out := upS s fun s => (s.wordsMet (· = .conduit p.srcNode)).ixGot cn p false fun s => s.seqGot cn 2 p

/-- R378, R384: a READ_RSP arrives. -/
def execReadRsp (cn : Nat) (p : Packet) (s : State) : Out := upS s fun s => (s.wordsMet (· = .conduit p.srcNode)).ixGot cn p false fun s => s.seqGot cn 3 p

/-- R120, R378: an ATOMIC arrives. -/
def execAtomic (cn : Nat) (p : Packet) (s : State) : Out := upS s fun s => (s.wordsMet (· = .conduit p.srcNode)).ixGot cn p false fun s => s.seqGot cn 4 p

/-- R378, R384: a NAK arrives. -/
def execNak (cn : Nat) (p : Packet) (s : State) : Out := upS s fun s => (s.wordsMet (· = .conduit p.srcNode)).ixGot cn p false fun s => s.seqGot cn 5 p

/-- R381, R383: an ACK arrives. -/
def execAck (cn : Nat) (p : Packet) (s : State) : Out :=
  upS s fun s => (s.wordsMet (· = .conduit p.srcNode)).ixGot cn p false fun s => if (s.conduit p.srcNode).state = 2 then s.ackGot p.srcNode p else s

/-- R376: a PROBE arrives. -/
def execProbe (cn : Nat) (p : Packet) (s : State) : Out := upS s fun s => (s.wordsMet (· = .conduit p.srcNode)).ixGot cn p true fun s => s.probeGot p

/-- R376: a PROBE_RSP arrives. -/
def execProbeRsp (cn : Nat) (p : Packet) (s : State) : Out := upS s fun s => (s.wordsMet (· = .conduit p.srcNode)).ixGot cn p true fun s => s.probeRspGot p

/-- R384: the FENCED packet with PSN `psn` from `node` executes, once every earlier packet of its direction has. -/
def execFencedExecute (node : Nat) (psn : W32) (s : State) : Out :=
  upS s fun s =>
    let c := s.conduit node
    match c.fenced.find? fun e => e.2.2.psn = psn with
    | none => s
    | some (cn, type, p) =>
      if !c.ripe psn then s
      else (s.setConduit node { c with fenced := c.fenced.filter fun e => e.2.2.psn ≠ psn }).execPkt cn type p

/-! ### Timers -/

/-- R376: no PROBE_RSP within IXC_RTO_TICKS: the next try, or after the last the waiting accesses end with TIMEOUT. -/
def execProbeTimeout (node : Nat) (s : State) : Out :=
  upS s fun s =>
    let c := s.conduit node
    if c.state ≠ 1 || s.condTk node - c.probeAt < s.odNum 0x6000 0x10 then s
    else if s.odNum 0x6000 0x11 + 1 ≤ c.tries then s.condDown node
    else (s.setConduit node { c with tries := c.tries + 1, probeAt := s.condTk node }).sendProbe node false

/-- A retransmission timeout on a path (R380): the third within 1,000 ticks puts it out of use. -/
def State.pathFail (s : State) (r a b : Nat) : State :=
  let c := s.conduit r
  let fs := (a, b, s.condTk r) :: c.fails.filter fun f => s.condTk r - f.2.2 ≤ 1000
  if 3 ≤ (fs.filter fun f => f.1 = a && f.2.1 = b).length then
    s.setConduit r { c with fails := fs.filter (fun f => !(f.1 = a && f.2.1 = b : Bool)),
                            excl := c.excl.filter (fun e => !(e.lport = a && e.rport = b : Bool)) ++
                              [({ lport := a, rport := b, since := s.condTk r } : Excl)] }
  else s.setConduit r { c with fails := fs }

/-- R380, R383: packet `psn` to `node` has had no acknowledgement within IXC_RTO_TICKS. -/
def execIxciaRto (node : Nat) (psn : W32) (s : State) : Out :=
  upS s fun s =>
    let c := s.conduit node
    match c.unacked.find? fun u => u.pkt.psn = psn with
    | none => s
    | some u =>
      if c.state ≠ 2 || u.sacked || s.condTk node - u.sent < s.odNum 0x6000 0x10 then s
      else (s.pathFail node u.lport u.rport).resendPkt node u

/-- R380: a path has been out of use for 10,000 ticks. -/
def execPathExclusionEnd (node lport rport : Nat) (s : State) : Out :=
  upS s fun s =>
    let c := s.conduit node
    if c.excl.isEmpty then s
    else s.setConduit node { c with excl := c.excl.filter fun e =>
      !(e.lport = lport && e.rport = rport && 10000 ≤ s.condTk node - e.since) }

/-- R382: two ticks with a packet not acknowledged. -/
def execAckTimer (node : Nat) (s : State) : Out :=
  upS s fun s =>
    let c := s.conduit node
    if c.owed = 0 || s.condTk node - c.owedAt < 2 then s else s.sendAck node

/-- R388: access `a` at a remote node has had no outcome within IXC_REMOTE_TICKS: it ends with TIMEOUT, recorded under R211,
and the conduit stays OPEN. -/
def execIxcRemoteTimeout (a : Nat) (s : State) : Out :=
  upS s fun s =>
    match s.peer.reqs.find? fun q => q.acc = a && !q.acked with
    | none => s
    | some q => if s.condTk q.node - q.since < s.odNum 0x6000 0x12 then s else s.remoteEnd q 9 [] [] true

/-! ### Ports (R381, R397) -/

/-- R397: the port of cantle `cn` is declared DOWN for a local fault, or with `remote` a remote one. DEDUCED: a priority that
the far side had paused is not paused when the port comes back (log entry 28). -/
def execPortDown (cn : Nat) (remote : Bool) (s : State) : Out :=
  upS s fun s =>
    if !(cn < 16) || s.fld (cnReg cn 0x4000) 0 2 ≠ 2 then s
    else
      let held := (s.portQ cn).held
      let s := (s.setFld (cnReg cn 0x4000) 0 4 (if remote then 8 else 4)).perFlag cn 0
      held.foldl (fun s e => s.respray cn e) (s.setPortQ cn {})

/-- R397, R52: the port of cantle `cn` comes back, and the wear ledger counts its retrain. A port that the girth gate did not
accept stays out of use (R488). -/
def execPortUp (cn : Nat) (s : State) : Out :=
  upS s fun s =>
    if !(cn < 16 && s.live (84 + cn)) || s.fld (cnReg cn 0x4000) 0 2 ≠ 0 || !(s.odNum 0x2000 0x91).testBit (4 + cn) then s
    else
      let w := sGet {} s.wear (84 + cn)
      let s := s.setFld (cnReg cn 0x4000) 0 4 2
      { s with wear := sPut {} s.wear (84 + cn) { w with retrains := satAdd 32 w.retrains 1 } }

/-- R372, R381: a PFC frame pauses or releases the priorities in `mask` on the port of cantle `cn`; packets held there for a
priority that is released go out. -/
def execPriorityFlowControl (cn : Nat) (mask : Byte) (pause : Bool) (s : State) : Out :=
  upS s fun s =>
    if !(cn < 16 && s.portUp cn) then s
    else
      let q := s.portQ cn
      let m := if pause then Nat.lor q.paused mask.toNat else Nat.xor q.paused (Nat.land q.paused mask.toNat)
      q.held.foldl (fun s e => s.wire cn e) (s.setPortQ cn { paused := m, held := [] })

/-! ### RETRAIN of a link (R488) -/

/-- The measurement of link `k` (0 to 3 host ports, 4 to 19 cantles) begins with its dwell (R482). DEDUCED: the dwell counts from
here (log entry 20). -/
def State.measureStart (s : State) (k : Nat) : State :=
  ({ s with bu := { s.bu with dwell := some k } } : State).timerSet .dwell k (80 + k)

/-- The measurement of a RETRAIN is over; a dwell of the girth gate goes on. -/
def State.measureEnd (s : State) : State := if s.bu.girthRun then s else { s with bu := { s.bu with dwell := none } }

/-- Whether a RETRAIN measures link `k` now. -/
def State.measuring (s : State) (k : Nat) : Bool := !s.bu.girthRun && s.bu.dwell = some k

/-- A host port leaves service for its RETRAIN (R488): its bad-lane marks are cleared first, and it is measured before ACTIVE. -/
def State.hostOut (s : State) (k : Nat) : State :=
  (((List.range 4).foldl (fun s i => s.wr64 (pmReg k (0x30A0 + 8 * i)) 0) s).retrainStart k).measureStart k

/-- A host port that has been measured is retrained (R488): lanes are marked, its record and its bit of GIRTH_ACCEPT follow the
verdict, and it comes back where a width is left. -/
def State.hostRetrain (s : State) (k : Nat) (m : PortMeas) : State :=
  let r := judgeHost (s.odNum 0x2000 0x94) m
  let s := (s.markLanes k r).setGirth k r
  let acc := s.odNum 0x2000 0x91
  let s := s.odSet 0x2000 0x91 (if r.verdict = 3 then Nat.xor acc (Nat.land acc (2 ^ k)) else Nat.lor acc (2 ^ k))
  if r.width = 0 || s.bu.blocked || s.lame (80 + k) then s.linkDown k
  else
    let d := s.port k
    (s.setPort k { d with linkDisabled := false, streams := true }).retrainUp k m.rotated r.width r.spares

/-- R488: the RETRAIN of a host port. It first takes the port out and starts its measurement, where no other port is out and the port is
not retraining already; once the dwell has passed, the measurement ends and the port is retrained. DEDUCED: the command completes
with OK whatever the verdict, which the report shows (log entry 20). -/
def execRetrainHostPort (m : PortMeas) (s : State) : Out :=
  upS s fun s =>
    let (kind, k) := s.retrainArg
    if !(s.cmdRunning 8 && kind = 1 && k < 4) then s
    else if s.retrainGone 1 k then s.measureEnd.cmdEnd 8 11 0
    else if s.measuring k then
      if s.timerDue .dwell k (80 + k) (s.odNum 0x2000 0x92) then (s.measureEnd.hostRetrain k m).cmdEnd 8 0 0 else s
    else if s.bu.girthRun || s.bu.dwell.isSome || s.fld (pmReg k 0x3080) 0 2 = 3 then s
    else s.hostOut k

/-- A cantle port leaves service for its RETRAIN (R488): it is TRAINING, and the packets held on it go out through other ports, as R397
has it. -/
def State.cantleOut (s : State) (p : Nat) : State :=
  ((s.portQ p).held.foldl (fun s e => s.respray p e) ((s.setFld (cnReg p 0x4000) 0 4 1).setPortQ p {})).measureStart (4 + p)

/-- A cantle port that has been measured is retrained (R488): it returns to use on a pass or with WAIVE. -/
def State.cantleRetrain (s : State) (p : Nat) (m : PortMeas) : State :=
  let r := judgeCantle (s.odNum 0x2000 0x95) m
  let use := (r.verdict ≠ 3 || bitOf (s.cmdArg 8 0 4) 7) && !s.bu.blocked && s.present (84 + p) && !s.lame (84 + p)
  let s := s.setGirth (4 + p) r
  let acc := s.odNum 0x2000 0x91
  let s := s.odSet 0x2000 0x91
    (if use then Nat.lor acc (2 ^ (4 + p)) else Nat.xor acc (Nat.land acc (2 ^ (4 + p))))
  let w := sGet {} s.wear (84 + p)
  if use then
    { s.setFld (cnReg p 0x4000) 0 2 2 with
      wear := sPut {} s.wear (84 + p) { w with retrains := satAdd 32 w.retrains 1 } }
  else s.setFld (cnReg p 0x4000) 0 2 0

/-- R488: the RETRAIN of a cantle port, which is measured for the dwell of R482 and retrained as a host port is. -/
def execRetrainCantlePort (m : PortMeas) (s : State) : Out :=
  upS s fun s =>
    let (kind, p) := s.retrainArg
    if !(s.cmdRunning 8 && kind = 2 && p < 16) then s
    else if s.retrainGone 2 p then s.measureEnd.cmdEnd 8 11 0
    else if s.measuring (4 + p) then
      if s.timerDue .dwell (4 + p) (84 + p) (s.odNum 0x2000 0x93) then (s.measureEnd.cantleRetrain p m).cmdEnd 8 0 0 else s
    else if s.bu.girthRun || s.bu.dwell.isSome then s
    else s.cantleOut p

/-! ### Peer objects (R386 to R389) -/

/-- Whether the object slot of cantle `cn` is there to write (R21). -/
def State.objSlot (s : State) (cn : Nat) : Bool := cn < 16 && s.live (84 + cn)

/-- R389: GO of a WIN_SET. -/
def execWinSet (cn : Nat) (irq : Bool) (s : State) : Out := upS s fun s => if s.objSlot cn then s.objGo cn 0 irq else s

/-- R389: GO of a WIN_CLEAR. -/
def execWinClear (cn : Nat) (irq : Bool) (s : State) : Out := upS s fun s => if s.objSlot cn then s.objGo cn 1 irq else s

/-- R389: no inbound access of the cleared window is in flight. -/
def execWinClearDone (cn : Nat) (s : State) : Out := upS s fun s => s.objDone cn false

/-- R389: GO of a QP_SET. -/
def execQpSet (cn : Nat) (irq : Bool) (s : State) : Out := upS s fun s => if s.objSlot cn then s.objGo cn 2 irq else s

/-- R389: GO of a QP_CLEAR. -/
def execQpClear (cn : Nat) (irq : Bool) (s : State) : Out := upS s fun s => if s.objSlot cn then s.objGo cn 3 irq else s

/-! ### RoCEv2 (R393 to R396) -/

/-- R395: an RDMA WRITE packet. -/
def execRdmaWrite (p : RocePkt) (s : State) : Out := upS s fun s => s.rdmaWrite p

/-- R395: an RDMA READ Request. -/
def execRdmaReadRequest (p : RocePkt) (s : State) : Out := upS s fun s => s.rdmaRead p

/-- R396: a SEND packet. -/
def execSend (p : RocePkt) (s : State) : Out := upS s fun s => s.roceSend p

end Sys2Proof.Machine
end

