-- ==== Sys2Proof/Machine/ResRows.lean ====
section
/-! DEFINITION. Commands of the residency engine (R243 to R261) and host snoops (R315). -/

namespace Sys2Proof.Machine

/-- Whether the operation in residency slot `k` of pommel `pm` is `op`, so that its GO is this command. An OP code that is
none answers INVALID as GIVE would. -/
def State.resOp (s : State) (pm k op : Nat) : Bool :=
  let x := s.fld (pmReg pm (0x1000 + 0x40 * k) + 0x14) 0 3
  pm < 4 && k < 4 && (x = op || op = 0 && 6 ≤ x)

/-- R244: GO of a GIVE. -/
def execGive (pm slot : Nat) (irq : Bool) (s : State) : Out :=
  upS s fun s => if s.resOp pm slot 0 then s.resGo pm slot irq else s

/-- R244: GO of a TAKE. -/
def execTake (pm slot : Nat) (irq : Bool) (s : State) : Out :=
  upS s fun s => if s.resOp pm slot 1 then s.resGo pm slot irq else s

/-- R244: GO of a FLUSH. -/
def execFlush (pm slot : Nat) (irq : Bool) (s : State) : Out :=
  upS s fun s => if s.resOp pm slot 2 then s.resGo pm slot irq else s

/-- R244: GO of an EVICT. -/
def execEvict (pm slot : Nat) (irq : Bool) (s : State) : Out :=
  upS s fun s => if s.resOp pm slot 3 then s.resGo pm slot irq else s

/-- R244, R258: GO of a DROP. -/
def execDrop (pm slot : Nat) (irq : Bool) (s : State) : Out :=
  upS s fun s => if s.resOp pm slot 4 then s.resGo pm slot irq else s

/-- R244, R245: GO of a SET_ATTR. -/
def execSetAttr (pm slot : Nat) (irq : Bool) (s : State) : Out :=
  upS s fun s => if s.resOp pm slot 5 then s.resGo pm slot irq else s

/-- R247: the home pommel takes up the sample of an access to page `vaPage` of context `c`. -/
def execResSample (c vaPage : Nat) (hostTicks : Option Nat) (s : State) : Out := upS s fun s => s.sampleNext c vaPage hostTicks

/-- R247 to R249: the sampling interval of pommel `pm` ends, once RES_INTERVAL_TICKS of its ticks have passed. -/
def execResIntervalEnd (pm : Nat) (s : State) : Out :=
  upS s fun s =>
    if pm < 4 && s.timerDue .residency pm (80 + pm) (s.odNum 0x5000 0x36) then
      (s.timerSet .residency pm (80 + pm)).intervalEnd pm
    else s

/-- R252: the read-back of a promotion's copy returns. -/
def execPromotionCopyDone (pm i : Nat) (s : State) : Out := upS s fun s => (s.wordsMet (migWords pm)).promotionDone pm i

/-- R254: the read-back of a writeback returns. -/
def execEvictionWritebackDone (pm i : Nat) (r : Ack) (s : State) : Out := upS s fun s => (s.wordsMet (migWords pm)).writebackDone pm i r

/-- R315: a host snoop of the line at `line`, answered with what the line holds; with `inval` the line is given up, and the
host's store then takes effect. No snoop is served once the host is gone (R371, R507). -/
def execHostSnoop (pm line : Nat) (inval : Bool) (store : Option (Nat × Bytes)) (s : State) : Out :=
  upS s fun s =>
    if !(pm < 4 && s.linkActive pm) || s.lame (80 + pm) || s.inOrphan then s
    else
      let a := line / 64 * 64
      let s := ((s.wordsMet (lineWords pm line)).portBusy pm |>.inc (pmReg pm 0x3008)).emit (.snoopRsp pm a (s.host.read a 64))
      if !inval && store.isNone then s
      else
        let gone := s.cw.lines.filter fun l => l.pm = pm && l.line / 64 = line / 64
        let s := gone.foldl State.lineGone s
        match store with
        | some (o, b) => if o + b.length ≤ 64 then { s with host := s.host.write (a + o) b } else s
        | none => s

end Sys2Proof.Machine
end

