-- ==== Sys2Proof/Machine/HostRows.lean ====
section
/-! DEFINITION. Resting and resuming a context (R495 to R503), the heartbeat lease, ORPHAN and reattach (R504 to R512). -/

namespace Sys2Proof.Machine

/-! ### The heartbeat lease (R504) -/

/-- A renewal of the heartbeat lease, by either route: the lease restarts at the length now set. -/
def State.hbRenew (s : State) (seq : W32) : State :=
  let s := s.wr 0x20C seq
  if s.bit 0x200 1 then
    let l := (s.rd 0x204).toNat
    { s with orph := { s.orph with expiry := s.supTk 4 + l, leaseLen := l, hbFlagged := false } }
  else s

/-- R504: a write of BLK_HB_RENEW. -/
def execHbRenew (seq : W32) (s : State) : Out := upS s fun s => s.hbRenew seq

/-- The block supervisor finds the heartbeat lease expired (R428, R505): host loss, or with LEASE_SUP_EN = 0 a flag. DEDUCED:
no LEASE_BROKEN record is written, since R425 does not list this lease (log entry 30). -/
def State.hbCheck (s : State) : State :=
  if !s.bit 0x200 1 || s.supTk 4 < s.orph.expiry then s
  else if s.bit 0x0C 3 then s.orphanEnter 1
  else if s.orph.hbFlagged then s
  else ({ s with orph := { s.orph with hbFlagged := true } } : State).raise 0x150 1 0x158

/-- R505: the heartbeat lease expires. -/
def execHbExpired (s : State) : Out := upS s State.hbCheck

/-! ### The tenure token and reattach (R509 to R512) -/

/-- R509: a write of `size` bytes to BLK_TENURE_TOKEN. -/
def State.tokenWrite (s : State) (size : Nat) (v : W64) : State :=
  if size ≠ 8 || s.phase ≠ 2 then s.accessErr 0 0 0x210
  else { s.setBit 0x218 0 (v ≠ 0) with orph := { s.orph with token := v.toNat } }

/-- R509: a write of BLK_TENURE_TOKEN. -/
def execTenureTokenWrite (size : Nat) (v : W64) (s : State) : Out := upS s fun s => s.tokenWrite size v

/-- Read the control line of a context's fault ring, and hold it (R221). -/
def State.ctlRead8 (s : State) (c : Nat) : State :=
  let h := s.host.num (s.ctx c).ctlLine 4
  (s.ctlHold c true).ringHead c (BitVec.ofNat 32 h)

/-- Reattach with PRESERVE = 1 (R511). The records are written in the order produced. -/
def State.reattachKept (s : State) : State :=
  let l := s.orph.deferred
  let s := { s with orph := { s.orph with deferred := [] } }
  let s := l.foldl (fun s e =>
    let s := s.hostCtlWrite e.1 e.2.1 e.2.2.1
    if e.2.2.2 = 0 then s else s.irq (e.2.2.2 - 1)) s
  let s := s.qs.watch.foldl (fun s q => s.watchRead q) s
  let s := (s.cs.recs.filter fun e => 1 ≤ e.2.state && e.2.state ≤ 5).foldl (fun s e => s.ctlRead8 e.1) s
  let s := s.serveHeld.unblock
  (s.qs.recs.map Prod.fst).foldl (fun s q => s.unpauseQue q 2) s

/-- Requests held for device-side faults end with ABORTED, with their entries (R512). -/
def State.endHeld (s : State) : State :=
  let s := (s.flt.entries.filter fun e => !e.host).foldl (fun s e => s.endEntry e (some 8)) s
  (s.acc.list.filter fun a => a.ph = .held && !a.fHost).foldl (fun s a => s.endAcc a.id 8) s

/-- Host translations go, in the caches and in the stamps, as an invalidation of the whole block takes them (R203, R512); walks
under way are doomed, and what is on its way to a host that is gone ends with LAME. -/
def State.dropHostRuns (s : State) : State :=
  let hit (v : SideSlot) : Bool := !v.stale && (v.runs.any (·.host) || v.state = 1)
  let ks := (s.x.slots.filter fun e => hit e.2).map Prod.fst
  let s := ks.foldl (fun s k => s.inc (pmReg (s.server (k / 4096)) 0x6A4)) s
  let doom (w : Walk) : Walk := if w.res.isNone then { w with doomed := true } else w
  let s := { s with x := { s.x with tlb := s.x.tlb.filter (fun e => e.kind ≠ 1), walks := s.x.walks.map doom,
                                    slots := sMap s.x.slots fun _ v => if hit v then { v with stale := true } else v } }
  (s.acc.list.filter fun a => a.ph = .ready && a.kind = 1).foldl (fun s a => s.endAcc a.id 11) s

/-- What the residency engine knew of the host's memory goes (R512): migrations are abandoned, recorded host pages are unknown,
narrowed marks clear. -/
def State.forgetHost (s : State) : State :=
  let s := s.res.migs.foldl (fun s e =>
    (if e.2.act = .flush then s.setDirty e.2 else s).migLeave e.1 e.2) s
  let wipe (g : Group) : Group := { g with narrowed := [], nfmts := [], hostPg := sMap g.hostPg fun _ _ => hostUnknown }
  { s with res := { s.res with groups := sMap s.res.groups fun _ g => wipe g } }

/-- Queue 0 stops with Q0_ENABLE (R512). -/
def State.q0Drop (s : State) : State :=
  let s := s.odSet 0x2000 0x36 0
  let r := s.que 0
  if r.state = 0 || r.state = 5 then s
  else s.setQue 0 { r with state := if r.state = 4 then 4 else 1, pause := if r.pause.testBit 2 then r.pause - 4 else r.pause }

/-- Reattach with PRESERVE = 0 (R512). -/
def State.reattachFresh (s : State) : State :=
  let some_ := !s.orph.deferred.isEmpty
  let s := { s with orph := { s.orph with deferred := [] } }
  let s := if some_ then s.raise 0x228 2 0x234 else s
  let s := s.endHeld.dropHostRuns.forgetHost
  let s := s.qs.watch.foldl (fun s q => s.unwatch q) s
  (((s.setBit 0x0C 0 false).setBit 0x108 0 false).setBit 0x108 1 false).q0Drop

/-- The block reattaches (R510 steps 3 to 5). DESIGN CHOICE: the steps are one step of the model, so REATTACH is seen by no
reader (log entry 31). -/
def State.reattach (s : State) : State :=
  let keep := s.bit 0x21C 0
  let s := if keep then s else s.reattachFresh
  let s := s.setFld 0x08 0 4 4
  let s := if keep then s.reattachKept else s
  ((s.setFld 0x08 0 4 2).hbSync).irq 0xCE5

/-- A presented token is a mismatch (R510): the first one starts the 100,000 ticks in which every other counts as one too. -/
def State.tokenMismatch (s : State) : State := s.raise 0x228 1 0x230

/-- Whether a mismatch mutes presentations now. -/
def State.muted (s : State) : Bool := s.orph.mismatch.any fun t => s.tk 80 - t < 100000

/-- Judge a token (R510 step 3). -/
def State.judgeToken (s : State) (v : Nat) : State :=
  if s.phase ≠ 3 then s
  else if s.muted then s.tokenMismatch
  else if s.orph.token ≠ 0 && v = s.orph.token then s.reattach
  else ({ s with orph := { s.orph with mismatch := [s.tk 80] } } : State).tokenMismatch

/-- R510: a write of `size` bytes to BLK_REATTACH. While descriptors of the entry still run, the token waits. Outside ORPHAN it
is ignored. -/
def State.present8 (s : State) (size : Nat) (v : W64) : State :=
  if size ≠ 8 then s.accessErr 0 0 0x220
  else if s.phase ≠ 3 then s
  else if s.muted then s.tokenMismatch
  else if s.orph.draining then { s with orph := { s.orph with present := s.orph.present ++ [v.toNat] } }
  else s.judgeToken v.toNat

/-- R510: a write of BLK_REATTACH. -/
def execReattach (size : Nat) (v : W64) (s : State) : Out := upS s fun s => s.present8 size v

/-- R506: the last descriptor in flight at the entry has reached its boundary; tokens that waited are judged. -/
def execOrphanDrained (s : State) : Out :=
  upS s fun s =>
    if s.phase ≠ 3 || !s.orph.draining || s.qs.recs.any (fun e => !e.2.fly.isEmpty) then s
    else
      let l := s.orph.present
      let s := { s with orph := { s.orph with draining := false, present := [] } }
      l.foldl (fun s v => s.judgeToken v) s

/-! ### Resting (R496, R498) -/

/-- R496 step 1: the accepted CTX_REST makes its context RESTING and pauses its queues. -/
def execCtxRest (s : State) : Out :=
  upS s fun s =>
    if !s.cmdRunning 5 || s.cs.rest.isSome then s
    else
      let c := s.cmdArg 5 0 4 % 2 ^ 20
      let x := s.ctx c
      if x.gen ≠ s.cmdArg 5 4 4 then s.cmdEnd 5 10 0
      else if x.state ≠ 1 && x.state ≠ 2 then s.cmdEnd 5 2 (0x20 + x.state)
      else
        let t : Rest := { ctx := c, image := s.cmdArg 5 8 8, keep := bitOf (s.cmdArg 5 0 4) 31, since := s.tk (80 + s.homeOf c),
                          status := if s.inOrphan then 11 else 0 }
        let s := (s.ctxQueues c).foldl (fun s q => s.pauseQue q 1) (s.setCtx c { x with state := 3 })
        { s with cs := { s.cs with rest := some t } }

/-- The rest of context `c`, while it is at a step. -/
def State.restAt (s : State) (c step : Nat) : Option Rest :=
  match s.cs.rest with
  | some t => if t.ctx = c && t.step = step then some t else none
  | none => none

/-- Step 3 of a rest begins: promotions under way are abandoned, and the context's resident pages are written back, and with
KEEP_RESIDENT = 0 evicted at full width. In ORPHAN nothing is written back, and the pages stay resident (R261, R498). -/
def State.restFlush (s : State) (t : Rest) : State :=
  let s : State := { s with cs := { s.cs with rest := some { t with step := 3 } } }
  let s : State := { s with res := { s.res with batches := s.res.batches.filter fun b => !(b.ctx = t.ctx && b.act = .promote) } }
  let s := (s.res.migs.filter fun e => e.2.ctx = t.ctx && e.2.act = .promote).foldl (fun s e => s.migLeave e.1 e.2) s
  let ps := s.restPages t.ctx
  if s.inOrphan || ps.isEmpty then s
  else
    let id := s.res.nextReq
    let r : ResReq := { id := id, pm := s.homeOf t.ctx, ctx := t.ctx, op := if t.keep then 2 else 3, first := 0, pages := 0,
                        left := ps, phase := 1 }
    ({ s with res := { s.res with reqs := s.res.reqs ++ [r], nextReq := id + 1 } } : State).invalidate
      (.engine r.pm id) t.ctx 0 0

/-- R496 step 2 ends: no descriptor of context `c` is in flight. -/
def execRestDrainDone (c : Nat) (s : State) : Out :=
  upS s fun s =>
    match s.restAt c 2 with
    | none => s
    | some t => if s.ctxIdle c && !(s.dma.chans.any fun e => e.2.ctx = c) then s.restFlush t else s

/-- R496 step 2: REST_HOLD_TICKS have passed: requests still held for context `c` end with ABORTED. -/
def execRestHoldExpiry (c : Nat) (s : State) : Out :=
  upS s fun s =>
    match s.restAt c 2 with
    | none => s
    | some t => if s.tk (80 + s.homeOf c) - t.since < s.odNum 0x2000 0xB0 then s else s.endFaults c 8

/-- The 128 bytes of a queue record (R135). -/
def queBytes (r : QueueRec) : Bytes :=
  leBytes 1 r.state ++ leBytes 1 (b2n r.priv + 2 * b2n r.snoop + 4 * b2n r.snoopActive) ++ leBytes 1 r.prio ++
    leBytes 1 r.weight ++ leBytes 4 r.ctx ++ leBytes 4 r.ctxGen ++ leBytes 4 r.gen ++ leBytes 8 r.ringBase ++
    leBytes 8 r.tailLine ++ leBytes 8 r.cqBase ++ leBytes 8 r.refHeader ++ leBytes 1 r.ringLog2 ++ leBytes 1 r.cqLog2 ++
    leBytes 1 r.skirt ++ leBytes 1 r.hint ++ leBytes 1 r.depth ++ leBytes 1 r.pause ++ leBytes 2 r.irq ++
    leBytes 4 r.head.toNat ++ leBytes 4 r.tailSeen.toNat ++ leBytes 4 r.cqTail.toNat ++ leBytes 4 r.cqHeadSeen.toNat ++
    leBytes 4 r.progStart.toNat ++ leBytes 4 r.next.toNat ++ ((List.range 4).flatMap fun i => leBytes 4 ((r.loops[i]?).getD 0)) ++
    leBytes 4 r.doorbells ++ leBytes 4 r.dropped ++ leBytes 4 r.lateDb ++ leBytes 4 0 ++ leBytes 8 r.done ++ leBytes 8 0

/-- The 32 bytes of a region-map entry (R111). -/
def regionBytes (g : Region) : Bytes :=
  leBytes 8 g.base.toNat ++ leBytes 8 g.pages ++ leBytes 1 g.kind ++ leBytes 1 g.attr ++ leBytes 2 g.node ++ leBytes 4 0 ++
    leBytes 8 g.target.toNat

/-- The image of context `c` (R499). Queue entries stand in ascending number. -/
def State.restImage (s : State) (c : Nat) (keep : Bool) : Bytes :=
  let qs := s.ctxQueues c
  let x := s.ctx c
  leBytes 4 0x54534552 ++ leBytes 2 1 ++ leBytes 2 qs.length ++ leBytes 8 s.fuses.serial ++ leBytes 4 c ++ leBytes 4 x.gen ++
    leBytes 2 (s.odNum 0x6000 1 % 2 ^ 14) ++ leBytes 1 (b2n keep) ++ leBytes 1 0 ++ leBytes 4 0 ++
    leBytes 4 (2560 + 256 * qs.length) ++ leBytes 4 0 ++ leBytes 216 0 ++ s.ctxBytes c ++
    ((List.range 64).flatMap fun i => match x.regions[i]? with
      | some g => regionBytes g
      | none => leBytes 32 0) ++
    qs.flatMap fun q => leBytes 4 q ++ leBytes 124 0 ++ queBytes (s.que q)

/-- R496 steps 5 and 6: the image is written and its read-back ends as `r` says; the context is RESTED either way, and a failed
or interrupted rest ends FAILED (R498). Whether an image whose read-back did not return landed is free. -/
def execRestImageWritten (c : Nat) (r : Ack) (s : State) : Out :=
  upS s fun s =>
    match s.restAt c 5 with
    | none => s
    | some t =>
      let img := s.restImage c t.keep
      let s := s.rangeRec (some c) (80 + s.homeOf c) t.image img.length
      let put (s : State) : Nat × State := s.ctlWrite (c % 4) t.image img false
      let free (st : Nat) (s : State) : Nat × State :=
        let (k, s) := s.draw
        (st, if (Config.free64 k).getLsbD 0 then (put s).2 else s)
      let (st, s) := if t.status ≠ 0 then (t.status, s) else match r with
        | .timeout => free 9 s
        | .lost => free 11 s
        | .poisoned => (7, (put s).2)
        | _ => put s
      let s := (s.ctxCheck c).2
      let x := s.ctx c
      let s := s.setCtx c { x with state := 4, pinned := false,
                                   mode := if x.mode.testBit 2 then x.mode - 4 else x.mode }
      (({ s with cs := { s.cs with rest := none } } : State).cmdEnd 5 st 0)

/-! ### Resuming (R500 to R503) -/

/-- Entry `i` of an image: QUEUE and the queue record. -/
def imageQueue (b : Bytes) (i : Nat) : Nat × Bytes :=
  (fieldAt b (2560 + 256 * i) 4, ((b.drop (2560 + 256 * i + 128)).take 128))

/-- The operands of the QUEUE_CREATE that a queue record of an image stands for (R156). -/
def queDesc (n c gen : Nat) (q : Bytes) : Desc :=
  let f (o w : Nat) : Bytes := (q.drop o).take w
  BitVec.ofNat 1024 (leNat (leBytes 16 0 ++ leBytes 4 n ++ leBytes 4 c ++ leBytes 4 gen ++ leBytes 4 0 ++ f 16 8 ++ f 24 8 ++
    f 32 8 ++ f 40 8 ++ f 48 1 ++ f 49 1 ++ f 2 1 ++ f 3 1 ++ f 50 1 ++ f 51 1 ++ leBytes 1 (fieldAt q 1 1 % 4) ++ f 52 1 ++
    f 54 2))

/-- The record that an image makes of a queue (R500, R503): the kept fields, and a PAUSED queue running once its bits REST,
ORPHAN and FAULT_STALLED are cleared. -/
def State.queResumed (s : State) (c : Nat) (gen cgen : Nat) (n : Nat) (q : Bytes) : QueueRec :=
  let r := s.queNew (queDesc n c cgen q) gen
  let w (o : Nat) : W32 := BitVec.ofNat 32 (fieldAt q o 4)
  let st := fieldAt q 0 1
  { r with
    ctx := c, ctxGen := cgen, part := (s.ctx c).part, state := if st = 3 || st = 2 then 2 else if st = 4 then 4 else 1,
    pause := Nat.land (s.que n).pause 24, head := w 56, tailSeen := w 60, cqTail := w 64, cqHeadSeen := w 68,
    progStart := w 72, next := w 76, loops := (List.range 4).map fun i => fieldAt q (80 + 4 * i) 4,
    doorbells := fieldAt q 96 4, dropped := fieldAt q 100 4, lateDb := fieldAt q 104 4, done := fieldAt q 112 8 }

/-- A resumed queue goes on (R503): its reasons to pause clear, and with SNOOP it takes a watch slot as QUEUE_START does. -/
def State.queGoOn (s : State) (q : Nat) : State :=
  let s := ((s.unpauseQue q 0).unpauseQue q 1).unpauseQue q 2
  let r := s.que q
  let s := if r.pause ≠ 0 && r.state = 2 then s.setQue q { r with state := 3 } else s
  let (t, h) := s.tailLine q
  if r.state = 2 || r.state = 3 then s.watchTake q t h else s

/-- A resumed context is LIVE: its record is loaded and its control line held. -/
def State.ctxGoOn (s : State) (c : Nat) : State :=
  let s := ((s.setCtx c { s.ctx c with state := 1 }).loadCtx c).2
  (s.ctxQueues c).foldl (fun s q => s.queGoOn q) (s.ctlHold c true)

/-- The context record that an image makes (R500), with the counters that it keeps. -/
def imageCtx (b : Bytes) (gen n : Nat) : CtxRec :=
  let x := (b.drop 256).take 256
  let m := (b.drop 512).take 2048
  { ctxImage x ((List.range (min (fieldAt x 3 1) 64)).map (regionAt m)) gen with queues := n }

/-- MAGIC, VERSION and LENGTH of an image (R499). -/
def imageShape (b : Bytes) : Bool :=
  fieldAt b 0 4 = 0x54534552 && fieldAt b 4 2 = 1 && fieldAt b 32 4 = 2560 + 256 * fieldAt b 6 2

/-- The checks of R119 on the record and map of an image. -/
def State.imageCtxOk (s : State) (b : Bytes) (c : Nat) : Bool :=
  let x := (b.drop 256).take 256
  s.imageOk x c && s.mapOk ((b.drop 512).take 2048) (min (fieldAt x 3 1) 64)

/-- Read the image at an address: status and bytes. Its length is its own LENGTH. -/
def State.readImage (s : State) (c a : Nat) : Nat × Bytes :=
  let (st, h) := s.ctlRead (c % 4) a 64
  if st ≠ 0 then (st, [])
  else if !imageShape h then (1, [])
  else s.ctlRead (c % 4) a (fieldAt h 32 4)

/-- Take a reference on a header that an edit names anew; `none` where it cannot be taken. -/
def State.refNew (s : State) (c skirt old new : Nat) : Option State :=
  if old = new then some s
  else
    let (t, s) := s.refTake (some c) skirt new
    if t.status = 0 then some s else none

/-- Take the references that the edits of an in-place image ask for, in order. -/
def State.refsNew (s : State) (c : Nat) : List (Nat × Nat × Nat) → Option State
  | [] => some s
  | (k, o, n) :: l => match s.refNew c k o n with
    | some s => s.refsNew c l
    | none => none

/-- The checks of an in-place resume with an image (R501). -/
def State.inPlaceOk (s : State) (c : Nat) (b : Bytes) : Bool :=
  let qs := s.ctxQueues c
  let x := (b.drop 256).take 256
  let p := fieldAt x 2 1
  let rec_ := imageCtx b (s.ctx c).gen qs.length
  fieldAt b 8 8 = s.fuses.serial && fieldAt b 16 4 = c && fieldAt b 20 4 = (s.ctx c).gen && fieldAt b 6 2 = qs.length &&
    s.imageCtxOk b c && s.configured p && s.inPartCtx p c && s.bit (partReg p 0) 1 &&
    (!rec_.pinned || s.pinsOf c < 256) && s.tablesOf rec_.regionMap p &&
    (qs.zipIdx).all fun e =>
      let (n, q) := imageQueue b e.2
      let d := queDesc n c (s.ctx c).gen q
      n = e.1 && fieldAt q 1 1 % 2 = 0 && s.queShape d && fieldAt q 48 1 = (s.que n).ringLog2 && fieldAt q 49 1 = (s.que n).cqLog2 &&
        s.inPartQue p n

/-- Resume in place with an image (R501): every check first, then the edits. Any failure ends with INVALID and changes
nothing. -/
def State.resumeImage (s : State) (c a : Nat) : State :=
  let s := s.rangeRec (some c) (80 + s.homeOf c) a 64
  let (st, b) := s.readImage c a
  if st ≠ 0 then s.cmdEnd 6 st 0
  else if !s.inPlaceOk c b then s.cmdEnd 6 1 0
  else
    let qs := s.ctxQueues c
    let x := s.ctx c
    let new := imageCtx b x.gen qs.length
    let refs := (c % 4, x.refHeader, new.refHeader) :: (qs.zipIdx).map fun e =>
      ((s.que e.1).skirt, (s.que e.1).refHeader, fieldAt (imageQueue b e.2).2 40 8)
    match s.refsNew c refs with
    | none => s.cmdEnd 6 1 0
    | some s =>
      let s := s.setCtx c { new with state := 4 }
      let s := if new.mode.testBit 0 && new.stampLedger ≠ x.stampLedger then (s.ledgerZero c).2 else s
      let s := { s with flt := { s.flt with noted := s.flt.noted.filter (· ≠ c) } }
      let s := (qs.zipIdx).foldl (fun s e =>
        let s := s.unwatch e.1
        let old := s.que e.1
        let r := s.queResumed c old.gen x.gen e.1 (imageQueue b e.2).2
        let s := s.setQue e.1 { r with state := if r.state = 2 && r.pause ≠ 0 then 3 else r.state }
        if r.skirt = old.skirt then s
        else
          let s := { s with qs := { s.qs with resident := s.qs.resident.filter (· ≠ e.1) } }
          ((s.mapQue e.1 r.skirt).loadQue e.1)) s
      (s.ctxGoOn c).cmdEnd 6 0 0

/-- The judgement of a resume from FREE of the context of an image (R502, R119). -/
def State.freeCtxRef (s : State) (c : Nat) (b : Bytes) : Option Ref :=
  let x := (b.drop 256).take 256
  let p := fieldAt x 2 1 % 64
  let g (a : Nat) (w : W32) : Nat := (s.guardCheck (a / 4096) w { ctx := none, station := 80 + s.server (c % 4) }).1
  let g1 := g (s.ctxFrame c * 4096) ctxTableWord
  let g2 := g (fieldAt x 24 8) (ownerWord p 3 2)
  let g3 := if (fieldAt x 1 1).testBit 0 then g (fieldAt x 48 8) (ownerWord p 3 2) else 0
  firstRef [(!s.imageCtxOk b c || bitOf (fieldAt b 26 1) 0, 1, 0), (!s.configured p || !s.inPartCtx p c, 4, 0), (g1 ≠ 0, g1, 0),
    (g2 ≠ 0, g2, 0), (g3 ≠ 0, g3, 0), (!s.bit (partReg p 0) 1, 2, 0x35), ((fieldAt x 1 1).testBit 2 && 256 ≤ s.pinsOf c, 3, 0)]

/-- The judgement of entry `i` of an image (R502, R156, R448). -/
def State.freeQueRef (s : State) (c : Nat) (b : Bytes) (i : Nat) : Option Ref :=
  let (n, q) := imageQueue b i
  let p := fieldAt ((b.drop 256).take 256) 2 1 % 64
  let g := (s.guardCheck (s.queFrame n) queTableWord { ctx := none, station := 80 + s.server (c % 4) }).1
  let twice := (List.range i).any fun j => (imageQueue b j).1 = n
  firstRef [(fieldAt q 1 1 % 2 ≠ 0 || !s.queShape (queDesc n c 0 q), 1, 0), (!s.inPartQue p n, 4, 0), (g ≠ 0, g, 0),
    ((s.que n).state ≠ 0, 2, 0x2A + (s.que n).state), (twice, 2, 0x2B)]

/-- The place of a status in the order of R131. -/
def refRank (st : Nat) : Nat := match st with
  | 1 => 0 | 4 => 1 | 10 => 2 | 11 => 3 | 2 => 4 | 3 => 5 | _ => 6

/-- The refusal of a list that comes first in the order of R131, with its entry. -/
def firstRank : List (Nat × Ref) → Option (Nat × Ref)
  | [] => none
  | a :: l => match firstRank l with
    | none => some a
    | some b => if refRank b.2.1 < refRank a.2.1 then some b else some a

/-- Take a reference on each header in turn: the entry and refusal of the first that cannot be taken, or the state. -/
def State.refsTake (s : State) (c : Nat) : List (Nat × Nat × Nat) → (Nat × Ref) ⊕ State
  | [] => .inr s
  | (i, k, a) :: l =>
    let (t, s) := s.refTake (some c) k a
    if t.status = 0 then s.refsTake c l else .inl (i, t.status, t.state)

/-- A resume from FREE fails (R502): FAIL_INDEX is written, and nothing else changes. -/
def State.resumeFail (s : State) (c a idx : Nat) (e : Ref) : State :=
  (s.ctlWrite (c % 4) (a + 36) (leBytes 4 idx) false).2.cmdEnd 6 e.1 e.2

/-- Resume from FREE (R502): everything is checked before anything changes. -/
def State.resumeFree (s : State) (c a : Nat) : State :=
  let s := s.rangeRec (some c) (80 + s.homeOf c) a 64
  let (st, b) := s.readImage c a
  if st ≠ 0 then (if st = 1 then s.resumeFail c a 0xFFFFFFFF (1, 0) else s.cmdEnd 6 st 0)
  else
    let n := fieldAt b 6 2
    let refs := ((s.freeCtxRef c b).toList.map fun e => (0xFFFFFFFF, e)) ++
      (List.range n).filterMap fun i => (s.freeQueRef c b i).map fun e => (i, e)
    match firstRank refs with
    | some (i, e) => s.resumeFail c a i e
    | none =>
      let heads := (0xFFFFFFFF, c % 4, fieldAt b (256 + 56) 8) :: (List.range n).map fun i =>
        let q := (imageQueue b i).2
        (i, fieldAt q 50 1, fieldAt q 40 8)
      match s.refsTake c heads with
      | .inl (i, e) => s.resumeFail c a i e
      | .inr s =>
        let gen := nextGen (s.ctx c).gen
        let s := { s with res := { s.res with ctxs := sDel s.res.ctxs c,
                                              groups := sFilter s.res.groups fun x _ => x / 2 ^ 40 ≠ c },
                          flt := { s.flt with noted := s.flt.noted.filter (· ≠ c) } }
        let s := s.setCtx c (imageCtx b gen n)
        let s := if (s.ctx c).mode.testBit 0 then (s.ledgerZero c).2 else s
        let s := (s.ctlWrite (c % 4) (a + 28) (leBytes 4 gen) false).2
        let s := (List.range n).foldl (fun s i =>
          let (k, q) := imageQueue b i
          let g := nextGen (s.que k).gen
          let r := s.queResumed c g gen k q
          let s := ((s.setQue k r).mapQue k r.skirt)
          let s := if (s.skirtResident r.skirt).length < 4096 then s.loadQue k else s
          (s.ctlWrite (c % 4) (a + 2560 + 256 * i + 4) (leBytes 4 g) false).2) s
        (s.ctxGoOn c).cmdEnd 6 0 0

/-- R501, R502: the accepted CTX_RESUME. -/
def execCtxResume (s : State) : Out :=
  upS s fun s =>
    if !s.cmdRunning 6 then s
    else
      let c := s.cmdArg 6 0 4 % 2 ^ 20
      let a := s.cmdArg 6 8 8
      let x := s.ctx c
      if s.inOrphan then s.cmdEnd 6 2 6
      else if s.cmdArg 6 4 4 ≠ s.restGen 6 c then s.cmdEnd 6 10 0
      else if x.state = 4 then (if a = 0 then (s.ctxGoOn c).cmdEnd 6 0 0 else s.resumeImage c a)
      else if x.state = 0 then s.resumeFree c a
      else s.cmdEnd 6 2 (0x20 + x.state)

end Sys2Proof.Machine
end

