-- ==== Sys2Proof/Machine/RecRows.lean ====
section
/-! DEFINITION. The error queue's head, leases, heartbeats over Latigo, resets and rolls as commands (R101, R413 to R442), and
what protected storage goes through. -/

namespace Sys2Proof.Machine

/-! ### The error queue -/

/-- A free-running HEAD is written at `o`, with its TAIL at `o + 4` and BAD_HEAD in the status word at `o + 8` (R419): one behind
the last accepted value is ignored, one beyond TAIL too, and sets BAD_HEAD. The answer says whether it was taken. -/
def State.headWrite (s : State) (o : Nat) (v : W32) (cnt : Nat) : State × Bool :=
  let adv := (v - s.rd o).toNat
  if 2 ^ 31 ≤ adv then (s, false)
  else if (s.rd (o + 4) - s.rd o).toNat < adv then (s.raise (o + 8) 1 cnt, false)
  else (s.wr o v, true)

/-- A write of BLK_ERRQ_HEAD (R419, R422). -/
def State.errqHead (s : State) (v : W32) : State :=
  let r := s.headWrite 0x10C v 0x11C
  if r.2 then r.1.errSummary else r.1

/-- R419: a write of BLK_ERRQ_HEAD. -/
def execErrqHeadWrite (v : W32) (s : State) : Out := upS s fun s => s.errqHead v

/-! ### Leases -/

/-- R424, R427: a renewal restarts the expiry of a lease in the table; it is refused once the lease was removed, and for a unit of
a station marked LAME. -/
def execLeaseRenew (kind res : Nat) (s : State) : Out :=
  upS s fun s =>
    let key := leaseKey kind res
    let s := s.wordsMet (· = .lease kind res)
    match sFind s.rcv.leases key with
    | none => s
    | some _ => if s.lame (s.leaseHolder kind res) then s else s.leaseStart kind res

/-- R425 to R428: supervisor `k` scans its table, 4 for the block supervisor, which looks at the heartbeat lease too (R504). -/
def execLeaseScan (k : Nat) (s : State) : Out :=
  upS s fun s =>
    if 4 < k then s
    else
      let s := s.wordsMet (s.leaseWords k)
      let s := (s.rcv.leases.map Prod.fst).foldl (fun s key => s.leaseExpired k key) s
      if k = 4 then s.hbCheck else s

/-- R426 steps 5 and 6: the self-check of a scrubbed resource ends. -/
def execLeaseSelfCheckDone (kind res : Nat) (ok : Bool) (s : State) : Out := upS s fun s => s.selfChecked kind res ok

/-! ### Heartbeats over Latigo (R101) -/

/-- A station misses a heartbeat: the second in a row declares it lost (R101, R434). -/
def State.hbMissed (s : State) (n : Nat) : State :=
  let m := sGet 0 s.gw.hbMiss n + 1
  let s := { s with gw := { s.gw with hbMiss := sPut 0 s.gw.hbMiss n m } }
  if m < 2 then s else (s.err { cls := 6, code := 0x0604, station := n }).lameStation n true

/-- A guard that its skirt's heartbeat report declares lost is LAME (R434, R435). -/
def State.guardLost (s : State) (g : Nat) : State :=
  if 128 ≤ g || !s.guardIn g then s
  else ((s.setBit (grdReg g 4) 2 true).setBit (grdReg g 4) 0 false).unitLame (80 + g / 32) 5 g []

/-- R101, R434: a HEARTBEAT returns to the gateway. A corrupt one says nothing. -/
def execHeartbeatReturn (h : HeartbeatBack) (s : State) : Out :=
  upS s fun s =>
    if !s.gw.hbOut || !frameOk h.frame || h.frame.corrupt || h.frame.type ≠ 6 then s
    else
      let s := { s with gw := { s.gw with hbOut := false } }
      h.guards.foldl State.guardLost <| (List.range 100).foldl (fun s n =>
        if !s.present n || s.lame n then s
        else if (leNat h.frame.payload).testBit (n + 1) then { s with gw := { s.gw with hbMiss := sPut 0 s.gw.hbMiss n 0 } }
        else s.hbMissed n) s

/-! ### Resets (R430 to R433) -/

/-- The accepted RESET_UNIT of a scope, while no reset runs: its unit and core. -/
def State.resetAsked (s : State) (scope : Nat) : Option (Nat × Nat) :=
  let v := s.cmdArg 3 0 4
  if s.cmdRunning 3 && s.rcv.reset.isNone && bitsOf v 3 0 = scope then some (bitsOf v 10 4, bitsOf v 13 11) else none

/-- A reset begins. -/
def State.resetBegin (s : State) (scope u c : Nat) : State := { s with rcv := { s.rcv with reset := some (scope, u, c) } }

/-- R430: RESET_UNIT scope 1. A core that is not live any more ends it with LAME (R433). -/
def execResetCore (s : State) : Out :=
  upS s fun s =>
    match s.resetAsked 1 with
    | none => s
    | some (n, c) =>
      if !s.present n || s.lame n || !(s.coresOk n).testBit c then s.cmdEnd 3 11 0
      else (s.resetBegin 1 n c).coreAway n c

/-- R430: RESET_UNIT scope 2. -/
def execResetStation (s : State) : Out :=
  upS s fun s =>
    match s.resetAsked 2 with
    | none => s
    | some (n, _) => if !s.present n || s.lame n then s.cmdEnd 3 11 0 else s.resetBegin 2 n 0

/-- R355, R433: RESET_UNIT scope 3; a locked TDI goes to ERROR. -/
def execResetPartition (s : State) : Out :=
  upS s fun s =>
    match s.resetAsked 3 with
    | none => s
    | some (p, _) =>
      let s := if s.tdi p = 1 || s.tdi p = 2 then s.setTdi p 3 else s
      (s.resetBegin 3 p 0).partBegin p

/-- The registers that a block reset keeps (R21, R39, R365, R473, R474): STN_IDENT, the floor-plan counter, the boot port's link
state, lane marks and straps of every host port, the marks of channels and skiving units, the service bits of guards, and the
whole record of a guard that is out of service. -/
def State.keepReg (s : State) (off : Nat) : Bool :=
  off = 0x10 || ((List.range 100).any fun n => off = pageOf n || off = pageOf n + 0x2200 || off = pageOf n + 0x2014) ||
    off = pmReg s.bootPm 0x3080 || off = pmReg s.bootPm 0x30C0 ||
    ((List.range 4).any fun k => off = pmReg k 0x30C8 || pmReg k 0x30A0 ≤ off && off < pmReg k 0x30C0) ||
    (List.range 128).any fun g => off = grdReg g 4 || !s.guardIn g && grdReg g 0 ≤ off && off < grdReg g 0x40

/-- A roll that a block reset breaks off ends FAILED (R433). -/
def State.rollLeft (s : State) : Roll := { state := if s.roll.active then 3 else 0 }

/-- Every interrupt line on side stream 3 is deasserted (R35, R408). -/
def State.levelsOff (s : State) : State := s.onBkl fun b => { sent := b.sent }

/-- The block reset of scope 4 (R35, R36, R84, R430, R473, R474). The management endpoint asks to join again (R88). -/
def State.blockReset (s : State) : State :=
  let s := s.levelsOff.emit (.i3c 0)
  let b := s.bu
  let tag (r : TagRec) (n : Nat) : TagRec := { seq := if n = 0x80 then 0 else r.seq, wrapped := n ≠ 0x80 && r.wrapped, adopted := s.tk n }
  let tags := (List.range 100 ++ [0x80]).foldl (fun m n => sPut {} m n (tag (s.tagRec n) n)) ([] : Smap TagRec)
  let node (n : Node) : Node := { alive := n.alive, skip := n.skip }
  let nodes := s.nodes.foldl (fun m e => sPut {} m e.1 (node e.2)) ([] : Smap Node)
  let port (d : D2d) : D2d := { linkDisabled := b.blocked && d.linkDisabled, seq3 := d.seq3, seq4 := d.seq4, seq5 := d.seq5 }
  let d2d := s.d2d.foldl (fun m e => sPut {} m e.1 (port e.2)) ([] : Smap D2d)
  let bu : BringUp :=
    { blocked := b.blocked, firstRun3 := b.firstRun3, again := true, pcBlown := b.pcBlown, presentFirst := b.presentFirst,
      coresFirst := b.coresFirst, tilesFirst := b.tilesFirst, guardsFirst := b.guardsFirst, skvFirst := b.skvFirst,
      bootRes := b.bootRes, girth := b.girth.filter fun e => e.1 = s.bootPm, blockResets := b.blockResets + 1,
      incSeq := b.incSeq }
  let rcv : Recov := { duty := s.rcv.duty.filter fun e => !(s.coresOk (e.1 / 8)).testBit (e.1 % 8),
                       railOver := s.rcv.railOver,
                       scrubbing := s.rcv.scrubbing.filter fun e => e.1 = 12 }
  let t : State :=
    { State.reset with
        pending := s.pending, freeSeq := s.freeSeq, out := s.out, power := s.power, ticks := s.ticks, pins := s.pins,
        fuses := s.fuses, regs := s.regs.filter (fun e => s.keepReg e.1), dev := s.dev, host := s.host, wear := s.wear,
        led := s.led, tags := tags, nodes := nodes, d2d := d2d, bu := bu, rcv := rcv, roll := s.rollLeft }
  let t := (List.range 100).foldl (fun t n => t.setBit (pageOf n) 14 true) t
  let t := (List.range 100).foldl (fun t n => t.setFld (pageOf n + 0x2200) 2 3 0) t
  let t := (List.range 128).foldl (fun t g => if s.guardIn g then t.setBit (grdReg g 4) 1 false else t) t
  t.setBit (pmReg t.bootPm 0x3080) 7 false

/-- R433, R473: RESET_UNIT scope 4. -/
def execResetBlock (s : State) : Out :=
  up s fun s => if s.cmdRunning 3 && bitsOf (s.cmdArg 3 0 4) 3 0 = 4 then s.blockReset else s

/-- The running reset is done: RESET_UNIT completes. -/
def State.resetEnd (s : State) : State := ({ s with rcv := { s.rcv with reset := none, checking := none } } : State).cmdEnd 3 0 0

/-- What the running RESET_UNIT waits for has come: it is performed (R431 steps 4 and 5). A station is then held in reset until the
next tick, by which its self-check has ended as `ok` says (log entry 42). -/
def State.resetPerform (s : State) (scope u c : Nat) (ok : Bool) : State :=
  if scope = 1 then (if ok then s.coreBack u c else s.dropCore u c true true).resetEnd
  else if scope = 2 then
    (if s.rcv.checking.isSome || !s.stationIdle u then s
     else { s.stationReset u with rcv := { (s.stationReset u).rcv with checking := some ok } })
  else if s.partDrained u then (s.partClear u).resetEnd else s

/-- The self-check of a station that is held in reset has ended. -/
def State.checkEnds (s : State) : State :=
  match s.rcv.checking, s.rcv.reset with
  | some ok, some (2, u, _) => (s.stationBack u ok).resetEnd
  | _, _ => s

/-- R431: the scope of a running reset is drained. Partition resets of an FLR or a STOP_INTERFACE end with it where theirs are. -/
def execResetDrainDone (selfCheckOk : Bool) (s : State) : Out :=
  upS s fun s =>
    s.rcv.presets.foldl (fun s e => if s.partDrained e.1 then s.presetEnd e.1 e.2 else s) (match s.rcv.reset with
      | some (sc, u, c) => s.resetPerform sc u c selfCheckOk
      | none => s)

/-- R431 step 3: the drain bound has passed. -/
def execDrainBoundExpiry (s : State) : Out :=
  upS s fun s =>
    s.rcv.presets.foldl (fun s e => s.partAbort e.1) (match s.rcv.reset with
      | some (sc, u, _) => if sc = 2 then s.stationAbort u else if sc = 3 then s.partAbort u else s
      | none => s)

/-! ### Rolls (R439 to R442) -/

/-- The stations in the order of R440: stirrups, cantles, pommels. -/
def rollOrder : List Nat := List.range 80 ++ ((List.range 16).map (84 + ·)) ++ (List.range 4).map (80 + ·)

/-- R440: the accepted ROLL_START. -/
def execRollStart (s : State) : Out :=
  upS s fun s =>
    if !s.cmdRunning 4 || s.roll.active then s
    else
      let e := s.cmdArg 4 0 4
      let l := rollOrder.filter fun n => s.live n && sGet 0 s.roll.epochs n ≠ e
      (({ s with roll := { s.roll with active := true, epoch := e, left := l, visiting := [], lost := false, state := 1 } } :
        State).setBit 0x08 8 true).rollGo 101

/-- Whether a roll visits station `n`, and since which tick. -/
def State.rollAt (s : State) (n : Nat) : Option Nat := (s.roll.visiting.find? fun v => v.1 = n).map (·.2)

/-- R440 steps 2 and 3: a visited station has quiesced. -/
def execRollStationQuiesced (st : Nat) (s : State) : Out :=
  upS s fun s =>
    if (s.rollAt st).isNone || !s.stationIdle st then s
    else
      let s := s.rollItems.foldl (fun s i => s.rollItem st i) s
      ((s.rollEnd st).rollTake st).rollGo 101

/-- R442: a visited station has not quiesced within ROLL_QUIESCE_TICKS. -/
def execRollQuiesceTimeout (st : Nat) (s : State) : Out :=
  upS s fun s =>
    match s.rollAt st with
    | none => s
    | some t => if s.tk st - t < s.odNum 0x2F00 6 then s else s.rollOver 3 9 3

/-! ### Protected storage (R65, R66, R413 to R415) -/

/-- R415: a scrubber visits a protected word. -/
def execStorageScrubVisit (w : StoreWord) (s : State) : Out :=
  upS s fun s =>
    if !s.bit 0x0C 2 then s
    else match s.rcv.upsets.find? fun u => u.1 = w with
    | some u => s.wordMet w u.2
    | none => s

/-- R413, R65: an upset. One in a line on its way is met at once, as the line passes on. -/
def execStorageUpset (u : Upset) (s : State) : Out :=
  upS s fun s =>
    match u with
    | .word w bits =>
      let had := (s.rcv.upsets.find? fun u => u.1 = w).elim 0 (·.2)
      (match w with
      | .lineBuffer _ => s.wordMet w bits
      | _ => { s with rcv := { s.rcv with upsets := s.rcv.upsets.filter (fun u => u.1 ≠ w) ++ [(w, had + bits)] } })
    | .copy off c b =>
      if !(b < 32 && (tvMask off).getLsbD b) then s
      else
        let t := s.trip off
        let m : W32 := 1#32 <<< b
        s.putTrip off (if c = 0 then { t with a := t.a ^^^ m } else if c = 1 then { t with b := t.b ^^^ m }
          else { t with c := t.c ^^^ m })

/-- R66: a scrubber visits the triplicated fields of the register word at `off`. -/
def execTvScrubVisit (off : Nat) (s : State) : Out := upS s fun s => if s.bit 0x0C 2 then s.vote off else s

end Sys2Proof.Machine
end

