-- ==== Sys2Proof/Machine/EpRows.lean ====
section
/-! DEFINITION. The host endpoint as commands (R326 to R355): configuration requests, register windows, link power, resets,
IDE and TDISP. -/

namespace Sys2Proof.Machine

/-! ### Configuration space (R327, R328, R335) -/

/-- The bits of a configuration word that software writes. PRESUMED: the header and the capabilities' registers are laid out as
the PCI Express specification has them, at the model's capability offsets: power management 0x40, PCI Express 0x60, AER
0x100, SR-IOV 0x160, ATS 0x200, PRI 0x220, PASID 0x240 (log entry 21). -/
def cfgMask (fn off : Nat) : W32 :=
  if off = 0x04 then (if fn = 0 then 0x546 else 0x4)
  else if off = 0x44 then 0x3
  else if off = cfgAts then 0x801F0000
  else if fn ≠ 0 then 0
  else if off = 0x68 then 0x7FFF
  else if off = 0x70 then 0xC2
  else if off = 0x108 || off = 0x10C || off = 0x114 || off = 0x180 then 0xFFFFFFFF
  else if off = 0x10 then 0xFC000000
  else if off = 0x18 then 0xFFC00000
  else if off = 0x20 then 0xF8000000
  else if off = 0x14 || off = 0x1C || off = 0x24 || off = 0x188 || off = 0x190 then 0xFFFFFFFF
  else if off = 0x184 then 0xFFF00000
  else if off = 0x18C then 0xFFC00000
  else if off = cfgVfCtl then 0x19
  else if off = cfgNumVfs then 0xFFFF
  else if off = cfgPri then 0x1
  else if off = cfgPriAlloc then 0xFFFFFFFF
  else if off = cfgPasid then 0x10000
  else 0

/-- The status bits of a configuration word that hardware sets and a write of one clears: AER's, and those of PRI. -/
def cfgStatus (fn off : Nat) : W32 :=
  if off = 0x104 || off = 0x110 then 0xFFFFFFFF else if fn = 0 && off = cfgPri then 0x30000 else 0

/-- The contents of a word that no write changes: the identity DVSEC of R335 in PF0 at the model's offset 0x300, what R328 and
R344 fix, and for the rest the part's own. -/
def State.cfgConst (s : State) (fn off : Nat) : W32 :=
  let w := Config.cfgWord fn off
  if fn = 0 && off = 0x300 then (w &&& 0xFFF00000) ||| 0x10023
  else if fn = 0 && off = 0x304 then BitVec.ofNat 32 (s.fuses.vendor % 65536 + 0x10000 + 0x1800000)
  else if fn = 0 && off = 0x308 then 0x4B01
  else if fn = 0 && off = 0x30C then 0
  else if fn = 0 && off = 0x310 then 0x8000
  else if fn = 0 && off = 0x314 then 736
  else if off = 0x3C then w &&& 0xFFFF00FF
  else if off = 0x6C then putBits w 15 3 2
  else if off = cfgAts then putBits (putBits (putBits w 0 5 0) 5 1 1) 6 1 1
  else if fn = 0 && off = 0x16C then 0x400040
  else if fn = 0 && off = 0x174 then 0x10001
  else if fn = 0 && off = 0x228 then 512
  else if fn = 0 && off = cfgPri then (w &&& 0xFEFCFFFC) ||| 0x80000000
  else if fn = 0 && off = cfgPasid then putBits w 8 5 20
  else if fn = 0 && (off = 0x10 || off = 0x18 || off = 0x20 || off = 0x184 || off = 0x18C) then 0x4
  else w

/-- A read of a configuration word. -/
def State.cfgRead (s : State) (fn off : Nat) : W32 :=
  let m := cfgMask fn off ||| cfgStatus fn off ||| (if fn = 0 && off = cfgPri then 0x1000000 else 0)
  (s.cfgConst fn off &&& ~~~m) ||| (s.cfg fn off &&& m)

/-- Whether function `fn` answers: PF0, and the VFs that VF Enable and NumVFs bring up (R326). -/
def State.fnThere (s : State) (fn : Nat) : Bool := fn = 0 || s.vfOn fn

/-- Forget the configuration of the functions that `p` selects. -/
def State.cfgReset (s : State) (p : Nat → Bool) : State :=
  { s with ep := { s.ep with cfg := s.ep.cfg.filter fun e => !p (e.1 / 4096) } }

/-! ### Function-level and hot resets (R345 to R349) -/

/-- Begin the partition reset of an FLR (`cause` 1) or of STOP_INTERFACE (2). -/
def State.presetBegin (s : State) (p cause : Nat) : State :=
  if s.rcv.presets.contains (p, cause) then s
  else ({ s with rcv := { s.rcv with presets := s.rcv.presets ++ [(p, cause)] } } : State).partBegin p

/-- The FLR of VF `k` (R349). -/
def State.flrVf (s : State) (k : Nat) : State :=
  let s := s.cfgReset fun fn => fn = k
  ({ s with ep := { s.ep with flr := s.ep.flr.filter (· ≠ k) ++ [k] } } : State).presetBegin (k - 1) 1

/-- Steps 2 to 4 of R347: the endpoint-facing state is reset. -/
def State.hotSteps (s : State) : State :=
  let s := s.cfgReset fun _ => true
  let s := (s.endPris 5).endHostWalks 5
  let on := (List.range 64).filter fun p => s.tdi p ≠ 0
  let s := ({ s with sec := { s.sec with ide := [] } } : State).tdiErrors
  { s with orph := { s.orph with unlock := s.orph.unlock ++ on.filter fun p => !s.orph.unlock.contains p } }

/-- HOT_RESET_MODE (R346). -/
def State.hotMode (s : State) : Nat := s.odNum 0x2000 0x50

/-- A hot reset (`cause` 3), or an FLR of PF0 (`cause` 4), but for the link (R345 to R348, R505): a block reset, or ORPHAN with the endpoint-facing state reset.
DEDUCED: while the block is in BRING_UP there is no host to lose, and only the endpoint-facing state is reset
(log entry 39). -/
def State.hotReset (s : State) (cause : Nat) : State :=
  if s.hotMode = 0 then s.blockReset
  else if s.phase = 2 || s.phase = 4 then (s.orphanEnter cause).hotSteps
  else s.hotSteps

/-- R345 to R348: a hot reset or link disable on the boot pommel's link, which then retrains. -/
def execHotReset (t : PortTrain) (s : State) : Out :=
  upS s fun s =>
    let k := s.bootPm
    if s.hotMode = 0 then s.blockReset.setLink k t.rotated (min t.modules 4) t.spares
    else
      let s := s.hotReset 3
      if s.lame (80 + k) then s else (s.retrainStart k).retrainEnd k t

/-- R345: the same on another pommel's link: only that port retrains. A port that is out of use does not. -/
def execHotResetNonBoot (pm : Nat) (t : PortTrain) (s : State) : Out :=
  upS s fun s =>
    if !(pm < 4) || pm = s.bootPm || s.bu.blocked || s.bu.dwell = some pm || (s.port pm).linkDisabled || s.lame (80 + pm) then s
    else (s.retrainStart pm).retrainEnd pm t

/-- R345: an FLR of PF0. -/
def execFlrPf0 (s : State) : Out := upS s fun s => s.hotReset 4

/-- R349: an FLR of VF `k`. -/
def execFlrVf (k : Nat) (s : State) : Out := upS s fun s => if 1 ≤ k && k ≤ 64 && s.vfOn k then s.flrVf k else s

/-- R344: function `fn` moves between D0 and D3hot. The bits hold the work back: those of PF0 the block's, those of a VF its
partition's. -/
def execPowerStateChange (fn : Nat) (d3 : Bool) (s : State) : Out :=
  upS s fun s => if fn ≤ 64 && s.fnThere fn then s.setCfg fn 0x44 (putBits (s.cfg fn 0x44) 0 2 (if d3 then 3 else 0)) else s

/-- What a configuration write brings about beyond its bits: PRI Control's reset and disable (R352), a function-level reset
(R345, R349). -/
def State.cfgEffect (s : State) (fn off : Nat) (w : W32) : State :=
  if fn = 0 && off = cfgPri then
    let s := if w.getLsbD 1 then (s.setCfg 0 cfgPri (s.cfg 0 cfgPri &&& ~~~(0x30000#32))).sendPris else s
    if !w.getLsbD 0 then s.priOff else s.sendPris
  else if off = 0x68 && w.getLsbD 15 then (if fn = 0 then s.hotReset 4 else s.flrVf fn)
  else s

/-- A configuration write of a word. Power states other than D0 and D3hot are not taken (R328). -/
def State.cfgWrite (s : State) (fn off : Nat) (w : W32) : State :=
  let m := cfgMask fn off
  let old := s.cfg fn off
  let keep := old &&& ~~~(m ||| (cfgStatus fn off &&& w))
  if off = 0x44 && (getBits w 0 2 = 1 || getBits w 0 2 = 2) then s
  else (s.setCfg fn off (keep ||| (w &&& m))).cfgEffect fn off w

/-- A configuration request on stream 0 of pommel `pm`, of a block that is up. -/
def State.configGo (s : State) (pm fn off : Nat) (w : Option W32) : State :=
    if !(pm < 4 && s.linkActive pm) then s
    else
    let s := s.portBusy pm
    if pm ≠ s.bootPm then (s.inc (pmReg pm 0x3054)).emit (.config pm fn off 1 0)
    else if !s.fnThere fn || off % 4 ≠ 0 || 4096 ≤ off then s.emit (.config pm fn off 1 0)
    else if s.ep.flr.contains fn then s.emit (.config pm fn off 2 0)
    else match w with
    | none => s.emit (.config pm fn off 0 (s.cfgRead fn off))
    | some v => (s.cfgWrite fn off v).emit (.config pm fn off 0 0)

/-- R327, R349: a configuration request on stream 0 of pommel `pm`. Of a block that is not up, a read gives all ones and a write is
dropped (R4, R35). -/
def execConfigRequest (pm fn off : Nat) (w : Option W32) (s : State) : Out :=
  match w with
  | none => upElseS s (.config pm fn off 0 (BitVec.allOnes 32)) fun s => s.configGo pm fn off none
  | some v => upS s fun s => s.configGo pm fn off (some v)

/-! ### Register windows (R332 to R334) -/

/-- The control registers of window `w`. -/
def winReg (w off : Nat) : Nat := 0x400 + 0x10 * w + off

/-- KIND and INSTANCE of window `w`. -/
def State.winTarget (s : State) (w : Nat) : Nat × Nat := (s.fld (winReg w 0) 8 8, s.fld (winReg w 4) 0 8)

/-- The size of the space of a target kind (R333). -/
def winSpace (kind : Nat) : Nat :=
  match kind with
  | 1 => 0x1000000 | 2 => 0x100000 | 3 => 0x400000 | 4 => 0x100000 | _ => 0x10000

/-- Whether a window's target is there (R333). -/
def State.winValid (s : State) (kind i : Nat) : Bool :=
  let st (i : Nat) : Bool := s.fuses.stations.testBit i && !s.lame i
  match kind with
  | 1 => i < 8 && s.fuses.hbm.testBit i
  | 2 => 84 ≤ i && i < 100 && st i
  | 3 => i < 80 && st i
  | 4 => 80 ≤ i && i < 84 && st i
  | 5 => i = 0
  | _ => false

/-- EN of a window is written to 1 (R332, R333). -/
def State.winOpen (s : State) (w : Nat) : State :=
  let s := s.setBit (winReg w 0) 0 true
  if s.bit (winReg w 0) 1 then s
  else
    let (k, i) := s.winTarget w
    if s.winValid k i then s.setBit (winReg w 0) 1 true else s.raise 0x600 1 0x608

/-- EN of a window is written to 0 (R332). DESIGN CHOICE: an access through a window is one step, so none is in
flight (log entry 40). -/
def State.winClose (s : State) (w : Nat) : State := (s.setBit (winReg w 0) 0 false).setBit (winReg w 0) 1 false

/-- R333: a window is opened. -/
def execWindowOpen (w : Nat) (s : State) : Out := upS s fun s => if w < 32 then s.winOpen w else s

/-- R332: a window is closed. -/
def execWindowClose (w : Nat) (s : State) : Out := upS s fun s => if w < 32 then s.winClose w else s

/-- R59, R334: an access at BAR4 offset `off`; `answer` is what the target gives a read. -/
def State.winAccess (s : State) (off size : Nat) (w : Option W32) (answer : W32) : State :=
  let rsp (s : State) (v : W32) : State := if w.isSome then s else s.emit (.barData 0 4 off (v.setWidth 64))
  if size ≠ 4 || off % 4 ≠ 0 then rsp (s.accessErr 0 4 off) 0
  else
    let n := off / 0x400000
    let (k, i) := s.winTarget n
    let a := s.fld (winReg n 8) 12 20 * 4096 + off % 0x400000
    if 32 ≤ n || !s.bit (winReg n 0) 1 || winSpace k ≤ a then rsp s 0
    else if w.isSome && (!s.bit (winReg n 0) 2 || k = 5) then s
    else rsp (s.emit (.window k i a w)) answer

/-- R334: an access through a register window. A read of a block that is not up gives all ones (R4, R35). -/
def execWindowAccess (off size : Nat) (w : Option W32) (answer : W32) (s : State) : Out :=
  match w with
  | none => upElseS s (.barData 0 4 off (BitVec.allOnes 64)) fun s => s.winAccess off size none answer
  | some v => upS s fun s => s.winAccess off size (some v) answer

/-- R334: the target of an access through window `w` does not answer: the access ends without effect. -/
def execWindowTargetTimeout (w : Nat) (s : State) : Out :=
  upS s fun s => if w < 32 && s.bit (winReg w 0) 1 then s.raise 0x600 0 0x604 else s

/-! ### Link power (R343) -/

/-- Whether the port of pommel `k` has been idle for `n` of its ticks (R343). -/
def State.idleFor (s : State) (k n : Nat) : Bool :=
  s.pmIdle k && s.timerDue .idle k (80 + k) n && n ≤ s.tk (80 + k) - (s.port k).sent

/-- R343: the port of pommel `pm` has been idle for HST_L1_IDLE_TICKS. -/
def execL1Entry (pm : Nat) (s : State) : Out :=
  upS s fun s =>
    if !(pm < 4 && s.linkActive pm) || !(s.cfg 0 0x70).getLsbD 1 || s.odNum 0x2000 0x52 = 0 || s.bit (pmReg pm 0x3040) 2 ||
        !s.idleFor pm (s.odNum 0x2000 0x52) then s
    else (s.setBit (pmReg pm 0x3040) 2 true).inc (pmReg pm 0x3064)

/-- R343: a request, a snoop or a level change wakes the port. -/
def execL1Exit (pm : Nat) (s : State) : Out := upS s fun s => if pm < 4 then s.setBit (pmReg pm 0x3040) 2 false else s

/-! ### IDE and TDISP (R353 to R355) -/

/-- R353, R355: a TLP or flit fails IDE integrity. Every TDI that is locked relies on every port (R354). -/
def execIdeIntegrityFail (pm : Nat) (cache : Bool) (s : State) : Out :=
  upS s fun s =>
    let k := pm * 2 + b2n cache
    if !(pm < 4 && s.linkActive pm) || sGet 0 s.sec.ide k ≠ 2 then s
    else (({ s with sec := { s.sec with ide := sDel s.sec.ide k } } : State).inc (pmReg pm 0x3068)).tdiErrors

/-- Whether session `sid` is open and authenticated (R353, R456). -/
def State.secured (s : State) (sid : Nat) : Bool := s.sec.sessions.any fun x => x.sid = sid && x.secured

/-- R353: an IDE_KM message over a secured session. A stream goes on only with a key programmed; stopping it ends the secure
state, so the TDIs that rely on it go to ERROR. In ORPHAN no key is held. -/
def execIdeKm (sid : Nat) (m : IdeKm) (s : State) : Out :=
  upS s fun s =>
    if !s.secured sid || s.inOrphan then s
    else
      let key (pm : Nat) (cache : Bool) : Nat := pm * 2 + b2n cache
      let put (s : State) (k v : Nat) : State := { s with sec := { s.sec with ide := sPut 0 s.sec.ide k v } }
      match m with
      | .keyProg pm cache => if pm < 4 && sGet 0 s.sec.ide (key pm cache) ≠ 2 then put s (key pm cache) 1 else s
      | .keySetGo pm cache => if pm < 4 && sGet 0 s.sec.ide (key pm cache) = 1 then put s (key pm cache) 2 else s
      | .keySetStop pm cache =>
        if pm < 4 && sGet 0 s.sec.ide (key pm cache) = 2 then (put s (key pm cache) 0).tdiErrors else s
      | .query _ _ => s

/-- Every IDE stream of every port is secure (R354). -/
def State.ideSecure (s : State) : Bool := (List.range 8).all fun k => sGet 0 s.sec.ide k = 2

end Sys2Proof.Machine
end

