-- ==== Sys2Proof/Machine/SecRows.lean ====
section
/-! DEFINITION. TDISP, SPDM, attestation and peer keys as commands (R353 to R355, R456 to R464). -/

namespace Sys2Proof.Machine

/-! ### TDISP (R354, R355)

PRESUMED: response and error codes are those of the PCI Express specification's TDISP (log entry 43). -/

/-- A TDISP error. -/
def State.tdispErr (s : State) (vf code : Nat) : State := s.emit (.tdisp vf 0x7F (leBytes 4 code))

/-- R354: LOCK_INTERFACE is accepted from CONFIG_UNLOCKED, in the small configuration and with every IDE stream secure. Its
response carries a nonce. -/
def execLockInterface (vf : Nat) (s : State) : Out :=
  upS s fun s =>
    let p := vf - 1
    if !(1 ≤ vf && vf ≤ 64) then s
    else if s.tdi p ≠ 0 then s.tdispErr vf 4
    else if !s.configured p || s.bit (partReg p 0) 3 || !s.ideSecure then s.tdispErr vf 7
    else
      let (k, s) := s.draw
      (s.setTdi p 1).emit (.tdisp vf 3 (Config.random k 32))

/-- R354: START_INTERFACE moves a locked TDI to RUN. -/
def execStartInterface (vf : Nat) (s : State) : Out :=
  upS s fun s =>
    if !(1 ≤ vf && vf ≤ 64) then s
    else if s.tdi (vf - 1) ≠ 1 then s.tdispErr vf 4
    else (s.setTdi (vf - 1) 2).emit (.tdisp vf 6 [])

/-- R355: STOP_INTERFACE runs a partition reset, in ERROR, and then unlocks; a TDI that is unlocked stays so. -/
def execStopInterface (vf : Nat) (s : State) : Out :=
  upS s fun s =>
    if !(1 ≤ vf && vf ≤ 64) then s
    else if s.tdi (vf - 1) = 0 then s.emit (.tdisp vf 7 [])
    else (s.setTdi (vf - 1) 3).presetBegin (vf - 1) 2

/-- An MMIO range of an interface report: its first page, its pages, its number. -/
def mmioRange (base bytes id : Nat) : Bytes := leBytes 8 (base / 4096) ++ leBytes 4 (bytes / 4096) ++ leBytes 2 0 ++ leBytes 2 id

/-- The 64-bit base in a pair of SR-IOV BAR words. -/
def State.vfBar (s : State) (off : Nat) : Nat := (s.cfg 0 off).toNat + 2 ^ 32 * (s.cfg 0 (off + 4)).toNat

/-- R354: the interface report of a VF lists its BAR0 and its BAR2. -/
def execInterfaceReport (vf : Nat) (s : State) : Out :=
  upS s fun s =>
    if !(1 ≤ vf && vf ≤ 64) then s
    else s.emit (.tdisp vf 4 (leBytes 12 0 ++ leBytes 4 2 ++ mmioRange (s.vfBar 0x184 + (vf - 1) * 0x100000) 0x100000 0 ++
      mmioRange (s.vfBar 0x18C + (vf - 1) * 0x400000) 0x400000 2 ++ leBytes 4 0))

/-! ### The SPDM responder (R456)

PRESUMED: message and error codes are those of the DMTF's SPDM 1.3 (log entry 44). -/

/-- Take a message into the transcript. -/
def State.spdmNote (s : State) (code : Nat) (b : Bytes) : State :=
  { s with sec := { s.sec with transcript := s.sec.transcript ++ Config.spdmBytes code b } }

/-- A request and its response: both go into the transcript, and the response is sent. -/
def State.spdmAnswer (s : State) (req : Nat) (rb : Bytes) (rsp : Nat) (b : Bytes) : State :=
  ((s.spdmNote req rb).spdmNote rsp b).emit (.spdm rsp b)

/-- An SPDM ERROR response (R463). -/
def State.spdmErr (s : State) (code : Nat) : State := (s.raise 0x2004 2 0x2010).emit (.spdm 0x7F (leBytes 1 code))

/-- A request that needs the responder at step `n`. -/
def State.spdmAt (s : State) (n : Nat) (f : State → State) : State := if s.sec.spdm < n then s.spdmErr 4 else f s

/-- R456: GET_VERSION begins anew. -/
def execGetVersion (s : State) : Out :=
  upS s fun s =>
    ({ s with sec := { s.sec with spdm := 1, version := 0, transcript := [] } } : State).spdmAnswer 0x84 [] 0x04
      (leBytes 1 0x12 ++ leBytes 1 0x13)

/-- The flags of CAPABILITIES: certificates, challenge, signed measurements, encryption, MAC, key exchange, heartbeat and key update;
no pre-shared key, mutual authentication, CSR or SET_CERTIFICATE (R456). PRESUMED: the bits of SPDM 1.3 (log entry 96). -/
def spdmCaps : Bytes := leBytes 4 0x62D6

/-- What ALGORITHMS selects: measurements by SHA-384, ECDSA P-384, SHA-384, secp384r1, AES-256-GCM (R456). -/
def spdmAlgs : Bytes := leBytes 4 0x04 ++ leBytes 4 0x80 ++ leBytes 4 0x02 ++ leBytes 2 0x10 ++ leBytes 2 0x02

/-- R456: GET_CAPABILITIES. -/
def execGetCapabilities (s : State) : Out :=
  upS s fun s => s.spdmAt 1 fun s =>
    ({ s with sec := { s.sec with spdm := max s.sec.spdm 2 } } : State).spdmAnswer 0xE1 [] 0x61 spdmCaps

/-- R456: NEGOTIATE_ALGORITHMS, with the version of the request and whether it offers what R456 lists. -/
def execNegotiateAlgorithms (version : Nat) (supported : Bool) (s : State) : Out :=
  upS s fun s => s.spdmAt 2 fun s =>
    if version ≠ 0x12 && version ≠ 0x13 then s.spdmErr 0x41
    else if !supported then s.spdmErr 1
    else ({ s with sec := { s.sec with spdm := 3, version := version } } : State).spdmAnswer 0xE3 (leBytes 1 version) 0x63 spdmAlgs

/-- R456: GET_DIGESTS. Slot 0 alone has a chain. -/
def execGetDigests (s : State) : Out :=
  upS s fun s => s.spdmAt 3 fun s =>
    s.spdmAnswer 0x81 [] 0x01 (leBytes 1 1 ++ beBytes 48 (Config.sha384 s.fuses.certChain).toNat)

/-- R456: GET_CERTIFICATE: `len` bytes of the chain from `offset`, and how many remain. -/
def execGetCertificate (slot offset len : Nat) (s : State) : Out :=
  upS s fun s => s.spdmAt 3 fun s =>
    let c := s.fuses.certChain
    if slot ≠ 0 || (c.length ≤ offset && offset ≠ 0) then s.spdmErr 1
    else
      let b := (c.drop offset).take len
      s.spdmAnswer 0x82 (leBytes 1 slot ++ leBytes 2 offset ++ leBytes 2 len) 0x02
        (leBytes 2 b.length ++ leBytes 2 (c.length - offset - b.length) ++ b)

/-- A response signed over the transcript (R456). -/
def State.spdmSigned (s : State) (req : Nat) (rb : Bytes) (rsp : Nat) (b : Bytes) : State :=
  let s := (s.spdmNote req rb).spdmNote rsp b
  s.emit (.spdm rsp (b ++ beBytes 96 (Config.signEcdsa s.attestKey s.sec.transcript).toNat))

/-- R456: CHALLENGE. -/
def execChallenge (slot : Nat) (nonce : BitVec 256) (s : State) : Out :=
  upS s fun s => s.spdmAt 3 fun s =>
    if slot ≠ 0 then s.spdmErr 1
    else
      let (k, s) := s.draw
      s.spdmSigned 0x83 (leBytes 1 slot ++ beBytes 32 nonce.toNat) 0x03
        (beBytes 48 (Config.sha384 s.fuses.certChain).toNat ++ Config.random k 32)

/-- Measurement block `i` of R456. Whose AWL_TOUCHED_P block 7 shows is not said: it is free. -/
def State.spdmBlock (s : State) (i : Nat) (touched : Bool) : Bytes :=
  leBytes 1 i ++ if i ≤ 6 then beBytes 48 (s.digest (i - 1)).toNat else s.reportState touched

/-- R456: GET_MEASUREMENTS of one block, of all (0xFF), or of their number (0). -/
def execGetMeasurements (block : Nat) (nonce : BitVec 256) (s : State) : Out :=
  upS s fun s => s.spdmAt 3 fun s =>
    if !(block ≤ 7 || block = 0xFF) then s.spdmErr 1
    else
      let (k, s) := s.draw
      let (t, s) := s.draw
      let bs := if block = 0 then [] else if block = 0xFF then (List.range 7).map (· + 1) else [block]
      let b := (if block = 0 then leBytes 1 7 else leBytes 1 bs.length) ++
        (bs.flatMap fun i => s.spdmBlock i ((Config.free64 t).getLsbD 0)) ++ Config.random k 32
      s.spdmSigned 0xE0 (leBytes 1 block ++ beBytes 32 nonce.toNat) 0x60 b

/-- The lowest session number not in use. -/
def State.freeSid (s : State) : Nat :=
  ((List.range 8).find? fun i => !(s.sec.sessions.any fun x => x.sid = i)).getD 0

/-- R456: KEY_EXCHANGE opens a session, the ninth is refused. -/
def execKeyExchange (share : BitVec 768) (s : State) : Out :=
  upS s fun s => s.spdmAt 3 fun s =>
    if 8 ≤ s.sec.sessions.length then s.spdmErr 0x0A
    else
      let (k, s) := s.draw
      let sid := s.freeSid
      let s := s.spdmSigned 0xE4 (beBytes 96 share.toNat) 0x64
        (leBytes 2 sid ++ Config.random k 32 ++ beBytes 96 (Config.ecdhShare (512 + sid) k).toNat)
      { s with sec := { s.sec with sessions := s.sec.sessions ++ [{ sid := sid, th := Config.sha384 s.sec.transcript }] } }

/-- The session with a number. -/
def State.session (s : State) (sid : Nat) : Option Session := s.sec.sessions.find? fun x => x.sid = sid

/-- Set a session. -/
def State.setSession (s : State) (x : Session) : State :=
  { s with sec := { s.sec with sessions := s.sec.sessions.map fun y => if y.sid = x.sid then x else y } }

/-- End a session, and with it its binding (R457). -/
def State.dropSession (s : State) (sid : Nat) : State :=
  { s with sec := { s.sec with sessions := s.sec.sessions.filter fun x => x.sid ≠ sid } }

/-- R456: FINISH makes a session secured; a message whose check fails ends it. -/
def execFinish (sid : Nat) (macOk : Bool) (s : State) : Out :=
  upS s fun s =>
    match s.session sid with
    | none => s.spdmErr 2
    | some x =>
      if x.secured then s.spdmErr 4
      else if !macOk then (s.dropSession sid).spdmErr 6
      else
        let s := s.spdmAnswer 0xE5 (leBytes 2 sid) 0x65 []
        s.setSession { x with secured := true, th := Config.sha384 s.sec.transcript }

/-- A request inside a secured session. -/
def State.inSession (s : State) (sid : Nat) (f : Session → State → State) : State :=
  match s.session sid with
  | none => s.spdmErr 2
  | some x => if x.secured then f x s else s.spdmErr 0x0B

/-- R456: HEARTBEAT. -/
def execSpdmHeartbeat (sid : Nat) (s : State) : Out := upS s fun s => s.inSession sid fun _ s => s.emit (.spdm 0x68 [])

/-- R456: KEY_UPDATE: the session goes on under new keys. -/
def execKeyUpdate (sid : Nat) (s : State) : Out := upS s fun s => s.inSession sid fun x s => (s.setSession { x with updates := x.updates + 1 }).emit (.spdm 0x69 [])

/-- R456, R457: END_SESSION. -/
def execEndSession (sid : Nat) (s : State) : Out :=
  upS s fun s => s.inSession sid fun _ s => (s.dropSession sid).emit (.spdm 0x6C [])

/-! ### Vendor-defined requests (R457) -/

/-- A vendor-defined response: status, then a state code or the data. -/
def State.vendor (s : State) (status state : Nat) (data : Bytes) : State :=
  s.emit (.spdm 0x7E (leBytes 1 status ++ if status = 0 then data else leBytes 1 state))

/-- R457: BIND. -/
def execBind (sid p : Nat) (s : State) : Out :=
  upS s fun s => s.inSession sid fun x s =>
    if 64 ≤ p then s.vendor 1 0 []
    else if !s.configured p || (s.boundTo p).isSome then (s.raise 0x2004 0 0x2008).vendor 2 0x36 []
    else (s.setSession { x with bound := some p }).vendor 0 0 []

/-- A request on the partition that the session has bound; DENIED where it has none. -/
def State.onBound (s : State) (sid : Nat) (f : Nat → State → State) : State :=
  s.inSession sid fun x s =>
    match x.bound with
    | none => s.vendor 4 0 []
    | some p => f p s

/-- R457, R458: GET_REPORT. -/
def execGetReport (sid : Nat) (nonce : BitVec 256) (s : State) : Out :=
  upS s fun s => s.onBound sid fun p s => s.vendor 0 0 (s.report p (beBytes 32 nonce.toNat))

/-- R459: the accepted read of a partition's REPORT signs one with REPORT_NONCE. -/
def execReportSign (s : State) : Out :=
  up s fun s =>
    match s.ownReq .own fun i b _ => 0x9100 ≤ i && i < 0x9140 && b = 1 with
    | none => s
    | some rid =>
      let p := (s.reqr rid).index - 0x9100
      s.captureReply rid (s.report p (s.odBlob (0x4000 + p) 0x20))

/-! ### Peer keys (R460 to R464) -/

/-- Set the word of key slot `k`. -/
def State.setKey (s : State) (k st p node rp gen : Nat) : State :=
  s.wr (0x2800 + 4 * k) (BitVec.ofNat 32 (st + 8 * p + 2 ^ 9 * node + 2 ^ 23 * rp + 2 ^ 29 * (gen % 8)))

/-- Change state and GEN of key slot `k`. -/
def State.keyTo (s : State) (k st gen : Nat) : State :=
  s.wr (0x2800 + 4 * k) (putBits (putBits (s.keyWord k) 0 3 st) 29 3 (gen % 8))

/-- A slot has a new key to send under: none of its PSNs is used. -/
def State.keyFresh (s : State) (k : Nat) : State := { s with sec := { s.sec with keyUses := sDel s.sec.keyUses k } }

/-- Set the keys of a slot. -/
def State.setMat (s : State) (k : Nat) (m : KeyMat) : State := { s with sec := { s.sec with keys := sPut {} s.sec.keys k m } }

/-- A slot is empty: its keys and its share are erased. -/
def State.keyDrop (s : State) (k : Nat) : State := ((s.wr (0x2800 + 4 * k) 0).keyFresh k).setMat k {}

/-- The info of R460 for slot `k`: the partitions, then the IDs, of the lower-numbered and the higher-numbered node. -/
def State.keyInfo (s : State) (k : Nat) : Bytes :=
  let w := s.keyWord k
  let p := getBits w 3 6
  let r := getBits w 9 14
  let q := getBits w 23 6
  if s.nodeId < r then leBytes 1 p ++ leBytes 1 q ++ leBytes 2 s.nodeId ++ leBytes 2 r
  else leBytes 1 q ++ leBytes 1 p ++ leBytes 2 r ++ leBytes 2 s.nodeId

/-- The key that slot `k` derives from its private share and the remote one (R460). -/
def State.newKey (s : State) (k : Nat) (share : BitVec 768) : Option (BitVec 256) :=
  (s.keyMat k).share.map fun n => Config.hkdf (Config.ecdhSecret k n share) (asciiBytes "chovik-ixcia-1") (s.keyInfo k)

/-- State, partition, node, remote partition and GEN of a slot. -/
def State.keyState (s : State) (k : Nat) : Nat := getBits (s.keyWord k) 0 3

/-- GEN of a slot. -/
def State.keyGen (s : State) (k : Nat) : Nat := getBits (s.keyWord k) 29 3

/-- The answer of PEER_SHARE_GET for slot `k`: a fresh share, whose private half the slot keeps. -/
def State.shareAnswer (s : State) (k : Nat) : State :=
  let (n, s) := s.draw
  (s.setMat k { s.keyMat k with share := some n }).vendor 0 0 (leBytes 2 k ++ leBytes 1 (s.keyGen k) ++ beBytes 96 (Config.ecdhShare k n).toNat)

/-- R457, R460, R461: PEER_SHARE_GET. The GEN of a slot's first key is free. DEDUCED: a slot of the partition and node that names
another remote partition makes the request INVALID (log entry 45). -/
def execPeerShareGet (sid node remotePart : Nat) (s : State) : Out :=
  upS s fun s => s.onBound sid fun p s =>
    let mine := (List.range 512).find? fun k =>
      s.keyState k ≠ 0 && getBits (s.keyWord k) 3 6 = p && getBits (s.keyWord k) 9 14 = node
    if 2 ^ 14 ≤ node || 64 ≤ remotePart || node = s.odNum 0x6000 1 then s.vendor 1 0 []
    else match mine with
    | some k =>
      if getBits (s.keyWord k) 23 6 ≠ remotePart then s.vendor 1 0 []
      else if s.keyState k ≠ 2 then s.vendor 2 0x37 []
      else (s.keyTo k 3 (s.keyGen k + 1)).shareAnswer k
    | none =>
      match (List.range 512).find? fun k => s.keyState k = 0 with
      | none => s.vendor 3 0 []
      | some k =>
        let (n, s) := s.draw
        (s.setKey k 1 p node remotePart ((Config.free64 n).toNat % 8)).shareAnswer k

/-- A request on slot `slot` of the bound partition, with its GEN: another's slot is DENIED, another GEN STALE. -/
def State.onSlot (s : State) (sid slot gen : Nat) (f : Nat → State → State) : State :=
  s.onBound sid fun p s =>
    if 512 ≤ slot then s.vendor 1 0 []
    else if s.keyState slot ≠ 0 && getBits (s.keyWord slot) 3 6 ≠ p then s.vendor 4 0 []
    else if s.keyState slot ≠ 0 && s.keyGen slot ≠ gen then s.vendor 10 0 []
    else f (s.keyState slot) s

/-- R457, R461: PEER_SHARE_SET makes a key of both shares, and the private share is erased. -/
def execPeerShareSet (sid slot gen : Nat) (share : BitVec 768) (s : State) : Out :=
  upS s fun s => s.onSlot sid slot gen fun st s =>
    let m := s.keyMat slot
    if st = 1 then (((s.keyTo slot 2 gen).keyFresh slot).setMat slot { cur := s.newKey slot share }).vendor 0 0 []
    else if st = 3 then ((s.keyTo slot 4 gen).setMat slot { m with share := none, next := s.newKey slot share }).vendor 0 0 []
    else s.vendor 2 0x37 []

/-- R457, R461: PEER_KEY_COMMIT: the new key is the one sent. -/
def execPeerKeyCommit (sid slot gen : Nat) (s : State) : Out :=
  upS s fun s => s.onSlot sid slot gen fun st s =>
    if st = 4 then ((s.keyTo slot 5 gen).keyFresh slot).vendor 0 0 [] else s.vendor 2 0x37 []

/-- R457, R461: PEER_KEY_RETIRE. A dropped share or key takes its GEN with it. -/
def execPeerKeyRetire (sid slot gen : Nat) (s : State) : Out :=
  upS s fun s => s.onSlot sid slot gen fun st s =>
    match st with
    | 0 => s.vendor 2 0x37 []
    | 1 => (s.keyDrop slot).vendor 0 0 []
    | 2 => (s.keyDrop slot).vendor 0 0 []
    | 5 => ((s.keyTo slot 2 gen).setMat slot { cur := (s.keyMat slot).next }).vendor 0 0 []
    | _ => ((s.keyTo slot 2 (gen + 7)).setMat slot { cur := (s.keyMat slot).cur }).vendor 0 0 []

/-- R464: the accepted write of KEYS_RETIRE empties every slot of the partition. -/
def execKeysRetire (s : State) : Out :=
  up s fun s =>
    match s.ownReq .own fun i b _ => 0x4000 ≤ i && i < 0x4040 && b = 0x30 with
    | none => s
    | some rid =>
      let p := (s.reqr rid).index - 0x4000
      let s := (List.range 512).foldl (fun s k =>
        if s.keyState k ≠ 0 && getBits (s.keyWord k) 3 6 = p then s.keyDrop k else s) s
      s.complete rid .ok 0 []

end Sys2Proof.Machine
end

