-- ==== Sys2Proof/Machine/D2dRows.lean ====
section
/-! DEFINITION. Die-to-die ports as commands (R366 to R368) and the heartbeats of side stream 5 (R504). -/

namespace Sys2Proof.Machine

/-- A replay is asked for: it counts in HST_D2D_REPLAYS and sets REPLAY (R366). -/
def State.askReplay (s : State) (k : Nat) : State :=
  ((s.setPort k { s.port k with replaying := true }).inc (pmReg k 0x3098)).raise (pmReg k 0x3084) 0 (pmReg k 0x3088)

/-- R366: a flit that fails its CRC is dropped and a replay is asked for. -/
def execFlitCrcFail (pm : Nat) (s : State) : Out :=
  upS s fun s => if pm < 4 && s.linkActive pm && !(s.port pm).replaying then s.askReplay pm else s

/-- A lane is declared bad (R367): its mark, LANE_BAD, the link event and the record. -/
def State.laneBad (s : State) (k m l : Nat) : State :=
  let o := pmReg k (0x30A0 + 8 * m)
  let s := if l < 64 then s.wr64 o (Nat.lor (s.rd64 o) (2 ^ l)) else s
  ((s.raise (pmReg k 0x3084) 1 (pmReg k 0x308C)).linkEvent k k 1).err
    { cls := 5, code := 0x0501, station := 80 + k, detail := m + 256 * l }

/-- The logical lane, by module and lane with the spares as lanes 64 to 67, that arrives on a physical lane of a port (R364). -/
def logicalLane (rotated : Bool) (l : Nat × Nat) : Nat × Nat :=
  if rotated then (3 - l.1, if l.2 < 64 then 63 - l.2 else 131 - l.2) else l

/-- Lanes charged 8 errors or more in a window (R367). -/
def worn (cs : List (Nat × Nat × Nat)) : List (Nat × Nat) :=
  ((cs.map Prod.snd).eraseDups).filter fun l => 8 ≤ (cs.filter fun c => c.2 = l).length

/-- R367: a replayed flit arrives: its differing bits, by the physical lanes they came on, are charged to their logical lanes, lanes are declared bad, and a retrain starts;
a replay that fails is asked for again. -/
def execFlitReplayReceived (pm : Nat) (diffs : List (Nat × Nat)) (good : Bool) (s : State) : Out :=
  upS s fun s =>
    let d := s.port pm
    if !(pm < 4 && s.linkActive pm && d.replaying) then s
    else
      let diffs := (diffs.filter fun l => l.1 < 4 && l.2 < 68).map (logicalLane (s.bit (pmReg pm 0x3080) 2))
      let charges := (d.charges.filter fun c => s.tk (80 + pm) - c.1 < 800) ++ diffs.map fun l => (s.tk (80 + pm), l)
      let run := if good then 0 else d.failRun + 1
      let lanes := if good then [] else (d.failLanes ++ diffs).eraseDups
      let bad := (worn charges ++ (if run = 4 then lanes else [])).eraseDups
      let s := s.setPort pm { d with replaying := false, charges := charges, failRun := run, failLanes := lanes }
      if bad.isEmpty then (if good then s else s.askReplay pm)
      else (bad.foldl (fun s l => s.laneBad pm l.1 l.2) s).retrainStart pm

/-- R368: the retrain of a link ends, ACTIVE or DOWN. -/
def execRetrainDone (pm : Nat) (t : PortTrain) (s : State) : Out :=
  upS s fun s =>
    if pm < 4 && s.fld (pmReg pm 0x3080) 0 2 = 3 && s.bu.dwell ≠ some pm then s.retrainEnd pm t else s

/-- R368, R505: a host link goes DOWN. A port that was out for its dwell is recorded as FAIL, and the gate goes on. -/
def execLinkDownEvent (pm : Nat) (s : State) : Out :=
  upS s fun s =>
    if !(pm < 4) || s.fld (pmReg pm 0x3080) 0 2 = 0 then s
    else
      let s := s.linkDown pm
      if s.bu.girthRun && s.bu.dwell = some pm then ((s.setGirth pm linkFail).startDwell).girthFinish else s

/-- R504: a HEARTBEAT of the host renews the heartbeat lease. -/
def execHostHeartbeat (pm : Nat) (seq : BitVec 16) (s : State) : Out :=
  upS s fun s => if pm < 4 && s.linkActive pm then s.hbRenew (seq.setWidth 32) else s

/-- R504: every 1,000 of its ticks a pommel whose link is ACTIVE sends a HEARTBEAT. DESIGN CHOICE: its first carries sequence 0 (log entry 32). -/
def execPommelHeartbeat (pm : Nat) (s : State) : Out :=
  upS s fun s =>
    if !(pm < 4 && s.linkActive pm) || !s.timerDue .hostBeat pm (80 + pm) 1000 then s
    else
      let s := s.timerSet .hostBeat pm (80 + pm)
      let n := (s.port pm).hbSeq
      (s.setPort pm { s.port pm with hbSeq := (n + 1) % 65536 }).sideMsg pm 5 1 n
        (leBytes 1 s.phase ++ leBytes 4 (s.rd 0x10).toNat)

end Sys2Proof.Machine
end

