-- ==== Sys2Proof/Machine/RegIO.lean ====
section
/-! DEFINITION. Access to the registers (R57 to R70, R529): writes under each field's access code, the effects that a register's
write has, the bit-alias region, the partition views, and what a station page reads. -/

namespace Sys2Proof.Machine

/-! ### Fields -/

/-- The bits of a field. -/
def Fld.mask (f : Fld) : W32 := putBits 0 f.lo f.w (2 ^ f.w - 1)

/-- Replace the bits of `m` in the word at `off` by those of `v`, in all three copies (R65); no other bit is rewritten. -/
def State.putMask (s : State) (off : Nat) (m v : W32) : State :=
  let t := s.trip off
  let f (w : W32) : W32 := (w &&& ~~~m) ||| (v &&& m)
  s.putTrip off ⟨f t.a, f t.b, f t.c⟩

/-- Whether the unit that owns the RWD fields of the word at `off` is enabled (R63, R283, R332, R371, R423). -/
def State.rwdLocked (s : State) (off : Nat) : Bool :=
  if 0x100 ≤ off && off < 0x10C then s.bit 0x108 1
  else if 0x400 ≤ off && off < 0x600 then s.bit (off / 16 * 16) 1
  else match stationOf off with
  | none => false
  | some n =>
    if off % 0x10000 = 0x30D0 then s.linkActive (n - 80)
    else (off % 0x10000 = 0x2008 || off % 0x10000 = 0x200C) && s.bit (pageOf n + 0x2004) 0

/-- What a write of the bits `m` to `v` does to one field: the state, whether R63 refuses it, whether it is a value fault (R529).
DEDUCED: a value outside the field's range is a value fault and no more, whatever the unit's state (log entry 33). -/
def State.fieldWrite (s : State) (off : Nat) (m v : W32) (f : Fld) : State × Bool × Bool :=
  let fm := f.mask &&& m
  let new := (s.rd off &&& ~~~fm) ||| (v &&& fm)
  let bad : Bool := match f.lim with
    | some (a, b) => getBits new f.lo f.w < a || b < getBits new f.lo f.w
    | none => false
  if fm = 0 then (s, false, false)
  else match f.acc with
  | .ro | .wo => (s, false, false)
  | .w1c => (s.putMask off (v &&& fm) 0, false, false)
  | .rw => if bad then (s, false, true) else (s.putMask off fm v, false, false)
  | .rwd =>
    if bad then (s, false, true)
    else if s.rwdLocked off then (s, new ≠ s.rd off, false)
    else (s.putMask off fm v, false, false)

/-- What a write of the bits `m` of the word at `off` does to its fields, each judged by itself (R63, R69, R529). -/
def State.fieldsWrite (s : State) (off : Nat) (m v : W32) : State × Bool × Bool :=
  (regFields off).foldl (fun a f =>
    let r := a.1.fieldWrite off m v f
    (r.1, a.2.1 || r.2.1, a.2.2 || r.2.2)) (s, false, false)

/-- Report what R63 refused and what R529 faulted: `at_` is where in the BAR the write lay. -/
def State.report3 (r : State × Bool × Bool) (off fn bar at_ : Nat) : State :=
  let s := if r.2.1 then r.1.wwe off true else r.1
  if r.2.2 then s.accessErr fn bar at_ else s

/-! ### What a write brings about -/

/-- A write of BLK_TRACE_HEAD (R520, R521): it frees slots, and the threshold source is armed again once the ring is below it. -/
def State.traceHead (s : State) (v : W32) : State :=
  let r := s.headWrite 0x304 v 0x314
  if r.2 && !r.1.traceHigh then { r.1 with tel := { r.1.tel with traceArmed := true } } else r.1

/-- The effect of a write of the bits `m` of the word at `off`, in the block control page, beyond its fields. -/
def State.blockEffect (s : State) (off : Nat) (m v : W32) : State :=
  if off = 0x40 then (if (m &&& v).getLsbD 0 then s.snapWrite else s)
  else if off = 0x108 then (if m.getLsbD 0 then (s.setBit 0x108 1 (s.bit 0x108 0)).errSummary else s)
  else if off = 0x208 then s.hbRenew v
  else if off = 0x300 then (if m.getLsbD 0 then s.setBit 0x300 1 (s.bit 0x300 0) else s)
  else if 0x400 ≤ off && off < 0x600 && off % 16 = 0 && m.getLsbD 0 then
    (if v.getLsbD 0 then s.winOpen ((off - 0x400) / 16) else s.winClose ((off - 0x400) / 16))
  else s

/-- Write the bits `m` of a word of the block control page or of a security register (R61, R472). -/
def State.blockWrite (s : State) (at_ off : Nat) (m v : W32) : State :=
  if off = 0x10C then s.errqHead v
  else if off = 0x304 then s.traceHead v
  else if off = 0x210 || off = 0x214 || off = 0x220 || off = 0x224 then s.accessErr 0 0 at_
  else
    let v := if off = 0x0C && s.phase = 1 then v &&& ~~~(3#32) else v
    (State.report3 (s.fieldsWrite off m v) off 0 0 at_).blockEffect off m v

/-! ### Slots of station pages (R201, R224, R243, R389) -/

/-- The slot that offset `o` of the page of station `n` lies in: where its RESULT lies in the page, and its overrun counter. -/
def slotAt (n o : Nat) : Option (Nat × Nat) :=
  if kindOf n = .pommel then
    if 0x600 ≤ o && o < 0x680 then some (o / 0x20 * 0x20 + 0x18, 0x6B4)
    else if 0x700 ≤ o && o < 0x780 then some (o / 0x20 * 0x20 + 0x14, 0x7AC)
    else if 0x1000 ≤ o && o < 0x1100 then some (o / 0x40 * 0x40 + 0x24, 0x112C)
    else none
  else if kindOf n = .cantle && (0x4100 ≤ o && o < 0x4110 || 0x4140 ≤ o && o < 0x4180) then some (0x410C, 0x4058)
  else none

/-- Whether offset `o` of the page of station `n` is the low word of a 64-bit register of a slot. -/
def slot64 (n o : Nat) : Bool :=
  kindOf n = .pommel && (0x600 ≤ o && o < 0x680 && o % 0x20 = 8 ||
    0x1000 ≤ o && o < 0x1100 && (o % 0x40 = 8 || o % 0x40 = 0x18))

/-- GO is written in the slot of offset `o` of station `n`, if it is one. -/
def State.slotGo (s : State) (n o : Nat) (v : W32) : State :=
  let irq := v.getLsbD 1
  let k := n - 80
  if !v.getLsbD 0 then s
  else if kindOf n = .pommel && 0x600 ≤ o && o < 0x680 && o % 0x20 = 0x14 then s.invGo k ((o - 0x600) / 0x20) irq
  else if kindOf n = .pommel && 0x700 ≤ o && o < 0x780 && o % 0x20 = 0x10 then s.fltGo k ((o - 0x700) / 0x20) irq
  else if kindOf n = .pommel && 0x1000 ≤ o && o < 0x1100 && o % 0x40 = 0x20 then s.resGo k ((o - 0x1000) / 0x40) irq
  else if kindOf n = .cantle && o = 0x4108 then s.objGo (n - 84) (s.fld (pageOf n + 0x4104) 0 2) irq
  else s

/-- Whether the page of station `n` serves its registers (R21): it is present, not LAME and not in reset. -/
def State.pageLive (s : State) (n : Nat) : Bool := s.live n

/-- Write a word at offset `o` of the page of station `n`, as function `fn`; a page that is not served ignores it (R21). -/
def State.pageWrite (s : State) (fn at_ n o : Nat) (v : W32) : State :=
  if !s.pageLive n then s
  else
    let off := pageOf n + o
    let go (s : State) : State :=
      let t := (State.report3 (s.fieldsWrite off 0xFFFFFFFF v) off fn 0 at_).slotGo n o v
      if o = 0x2000 then t.dmaSet n (v.getLsbD 0)
      else if o = 0x30D0 && kindOf n = .pommel && !s.linkActive (n - 80) then (t.wr64 (off + 8) 0).wr64 (off + 16) 0
      else t
    match slotAt n o with
    | some (res, cnt) => if s.slotBusy (pageOf n + res) then s.inc (pageOf n + cnt) else go s
    | none => go s

/-! ### Mailbox slots (R82 to R84) -/

/-- Write the bits `m` of the word at offset `o` of the slot of requester `rid`. -/
def State.mailWrite (s : State) (rid o : Nat) (m v : W32) : State :=
  let r := s.reqr rid
  let put (w : W32) (keep : W32) : W32 := ((w &&& ~~~m) ||| (v &&& m)) &&& keep
  if o = 0x20 then (if (m &&& v).getLsbD 0 then s.setReqr rid { r with overrun := false } else s)
  else if !(o = 0 || o = 4 || o = 8 || o = 0xC || 0x1000 ≤ o && o < 0x2000) then s
  else if r.phase ≠ .idle then s.slotOverrun rid
  else if o = 0 then s.setReqr rid { r with cmdReg := put r.cmdReg 0xFFFFFF0F }
  else if o = 4 then s.setReqr rid { r with offReg := put r.offReg 0xFFFFFFFF }
  else if o = 8 then s.setReqr rid { r with lenReg := put r.lenReg 0x1FFF }
  else if o = 0xC then
    (if !(m &&& v).getLsbD 0 then s
    else
      let op := getBits r.cmdReg 0 2
      let len := r.lenReg.toNat
      s.submit rid op (getBits r.cmdReg 16 16) (getBits r.cmdReg 8 8) r.offReg.toNat
        (if op = 1 && len ≤ 4096 then bufBytes r len else []) len (r.cmdReg.getLsbD 2) (r.cmdReg.getLsbD 3))
  else s.setReqr rid { r with buf := wrBytes r.buf (o - 0x1000) (leBytes 4 v.toNat) }

/-! ### Buckle (R411, R412) -/

/-- Write a word at offset `o` of Buckle's range, as function `fn`. -/
def State.bklWrite (s : State) (fn o : Nat) (v : W32) : State :=
  let t := (o - 0x1000) / 0x10
  if o = 0 then (if fn = 0 then { s with bkl := { s.bkl with status := s.bkl.status &&& ~~~v } } else s)
  else if o = 0x14 then s.bklSet fn (getBits v 0 12)
  else if 0x800 ≤ o && o < 0x1000 then (if fn = 0 then s.bklTsetWrite ((o - 0x800) / 0x20) (o % 0x20 / 4) v else s)
  else if 0x1000 ≤ o && o < 0x2000 && o % 0x10 = 4 then s.bklDone fn t (getBits v 0 12)
  else if 0x1000 ≤ o && o < 0x2000 && o % 0x10 = 8 then s.bklTgtWrite fn t v
  else if 0x4000 ≤ o && o < 0x8000 then s.bklSrcWrite fn ((o - 0x4000) / 4) v
  else s

/-! ### The bit-alias region (R67) -/

/-- The word of `x` with bit `b` set to `v`. -/
def setAt (x : W32) (b : Nat) (v : Bool) : W32 := putBits x b 1 (b2n v)

/-- A write of `v` to the alias word at offset `at_` of BAR0. -/
def State.aliasWrite (s : State) (at_ : Nat) (v : Bool) : State :=
  let i := (at_ - 0x2000000) / 4
  let off := i / 32 * 4
  let b := i % 32
  let m : W32 := setAt 0 b true
  let w : W32 := setAt 0 b v
  let fault := s.accessErr 0 0 at_
  if off < 0x8000 then
    match fldAt off b with
    | none => s
    | some f => match f.acc with
      | .ro => s
      | .wo => fault
      | _ => if f.w = 1 || f.flags then s.blockWrite at_ off m w else fault
  else if 0x10000 ≤ off && off < 0x20000 then
    let o := off % 0x4000
    let rid := (off - 0x10000) / 0x4000
    if o = 0 then (if b = 2 || b = 3 then s.mailWrite rid 0 m w else if 4 ≤ b && b < 8 then s else fault)
    else if o = 4 || 0x1000 ≤ o && o < 0x2000 || o = 8 && b < 13 || o = 0xC && b = 0 then fault
    else if o = 0x20 then s.mailWrite rid o m w
    else s
  else if 0x20000 ≤ off && off < 0x30000 then
    let o := off - 0x20000
    let t := (o - 0x1000) / 0x10
    if o = 0 then s.bklWrite 0 0 w
    else if o = 0x14 then (if b < 12 then fault else s)
    else if 0x800 ≤ o && o < 0x1000 then s.bklWrite 0 o (setAt (s.bklRead 0 o) b v)
    else if 0x1000 ≤ o && o < 0x2000 && o % 0x10 = 4 then (if b < 12 then fault else s)
    else if 0x1000 ≤ o && o < 0x2000 && o % 0x10 = 8 then
      (if b = 0 || b = 22 then s.bklTgtWrite 0 t (setAt (s.bkl.tgtWord 0 t) b v)
      else if 4 ≤ b && b < 9 || 16 ≤ b && b < 22 then fault else s)
    else if 0x4000 ≤ o && o < 0x8000 && (o - 0x4000) / 4 < 0xCE8 then
      let n := (o - 0x4000) / 4
      let fixed := 0xC00 ≤ n && n < 0xC80
      if b = 10 || b = 28 && !fixed then s.bklSrcWrite 0 n (setAt (s.bkl.srcWord 0 n) b v)
      else if b < 10 || 22 ≤ b && b < 28 && !fixed then fault
      else s
    else s
  else s

/-! ### Writes to the BARs -/

/-- A word write at offset `off` of the operator's BAR0 (R57). -/
def State.opWord (s : State) (off : Nat) (v : W32) : State :=
  if off < 0x8000 then s.blockWrite off off 0xFFFFFFFF v
  else if 0x10000 ≤ off && off < 0x20000 then s.mailWrite ((off - 0x10000) / 0x4000) (off % 0x4000) 0xFFFFFFFF v
  else if 0x20000 ≤ off && off < 0x30000 then s.bklWrite 0 (off - 0x20000) v
  else if 0x100000 ≤ off && off < 0x740000 then s.pageWrite 0 off ((off - 0x100000) / 0x10000) (off % 0x10000) v
  else if 0x2000000 ≤ off && off < 0x4000000 then s.aliasWrite off (v.getLsbD 0)
  else s

/-- An 8-byte write to BLK_ERRQ_BASE, which is one register (R59, R63, R64). -/
def State.errqBase (s : State) (lo hi : W32) : State :=
  let a := s.fieldsWrite 0x100 0xFFFFFFFF lo
  let b := a.1.fieldsWrite 0x104 0xFFFFFFFF hi
  State.report3 (b.1, a.2.1 || b.2.1, a.2.2 || b.2.2) 0x100 0 0 0x100

/-- An 8-byte write at offset `off` of the operator's BAR0: a 64-bit register at once, else two words, lower address first. -/
def State.opPair (s : State) (off : Nat) (v : W64) : State :=
  let lo := v.setWidth 32
  let hi := (v >>> 32).setWidth 32
  let n := (off - 0x100000) / 0x10000
  let o := off % 0x10000
  let busy64 : Bool := 0x100000 ≤ off && off < 0x740000 && slot64 n o && s.pageLive n && (match slotAt n o with
    | some (res, _) => s.slotBusy (pageOf n + res)
    | none => false)
  if off = 0x100 then s.errqBase lo hi
  else if off = 0x210 then s.tokenWrite 8 v
  else if off = 0x220 then s.present8 8 v
  else if busy64 then s.opWord off lo
  else (s.opWord off lo).opWord (off + 4) hi

/-- Whether partition `p` sees offset `o` of station `n` in its view (R74): a stirrup that it owns, every pommel and cantle; of a pommel
not the slots (R201, R224). -/
def State.viewShows (s : State) (p n o : Nat) : Bool :=
  match kindOf n with
  | .stirrup => s.ownsStirrup p n
  | .pommel => !(0x600 ≤ o && o < 0x680 || 0x700 ≤ o && o < 0x780)
  | .cantle => true

/-- A word write in the view of partition function `fn` (R74, R412). DEDUCED: in a station view that is live a write acts as the
operator's does (log entry 88). -/
def State.viewWord (s : State) (fn off : Nat) (v : W32) : State :=
  if 0x10000 ≤ off && off < 0x18000 then
    s.mailWrite (4 + 2 * (fn - 1) + (off - 0x10000) / 0x4000) (off % 0x4000) 0xFFFFFFFF v
  else if 0x20000 ≤ off && off < 0x30000 then s.bklWrite fn (off - 0x20000) v
  else if 0x40000 ≤ off && off < 0xA4000 then
    let n := (off - 0x40000) / 0x1000
    if s.viewShows (fn - 1) n (off % 0x1000) then s.pageWrite fn off n (off % 0x1000) v else s
  else s

/-- Whether an access of `size` bytes at `off` is a size fault (R59). -/
def sizeBad (size off : Nat) : Bool := !((size = 4 || size = 8) && off % size = 0)

/-- Whether a memory request to function `fn` reaches it: PF0, or a VF that is enabled and in no function-level reset (R326,
R349). -/
def State.fnServes (s : State) (fn : Nat) : Bool := fn = 0 || s.vfOn fn && !s.ep.flr.contains fn

/-- The pommel that takes a request to a BAR, where its command names none: DESIGN CHOICE: the lowest that serves (R331, log entry
34). -/
def State.portPm (s : State) : Nat := ((List.range 4).find? s.pmServes).getD s.bootPm

/-- A write to the doorbell window (R75, R76, R141). -/
def State.bellWrite (s : State) (fn off size : Nat) (v : W64) : State :=
  let q := off / 64
  let lo := v.setWidth 32
  if 65536 ≤ q then s
  else if off % 64 = 0 then s.doorbellWrite fn s.portPm q (some lo) (if size = 8 then some ((v >>> 32).setWidth 32) else none)
  else if off % 64 = 4 then s.doorbellWrite fn s.portPm q none (some lo)
  else s

/-- A poisoned write is dropped and reported (R340): EP_DROPPED sets, and AER reports Poisoned TLP Received as an advisory non-fatal
error. PRESUMED: the AER bits are those of PCI Express (log entry 21). -/
def State.poisonedWrite (s : State) : State :=
  let s := s.epFlag s.portPm 0
  let s := s.setCfg 0 0x104 (s.cfg 0 0x104 ||| 0x1000)
  s.setCfg 0 0x110 (s.cfg 0 0x110 ||| 0x2000)

/-- A host write of `size` bytes at offset `off` of BAR `bar` of function `fn` (R59 to R64, R74, R76). -/
def State.barWrite (s : State) (fn bar off size : Nat) (v : W64) : State :=
  if bar = 2 && !sizeBad size off then s.bellWrite fn off size v
  else if !s.fnServes fn then s
  else if sizeBad size off then s.accessErr fn bar off
  else if bar = 4 then (if fn = 0 then s.winAccess off size (some (v.setWidth 32)) 0 else s)
  else if bar ≠ 0 then s
  else if fn = 0 then (if size = 8 then s.opPair off v else s.opWord off (v.setWidth 32))
  else if !s.configured (fn - 1) then s
  else if size = 8 then (s.viewWord fn off (v.setWidth 32)).viewWord fn (off + 4) ((v >>> 32).setWidth 32)
  else s.viewWord fn off (v.setWidth 32)

/-- R63: a host write to a register. Registers whose writes have rows of their own take the effect of that row. -/
def execRegisterWrite (fn bar off size : Nat) (v : W64) (poisoned : Bool) (s : State) : Out :=
  upS s fun s => if 64 < fn then s else if poisoned then s.poisonedWrite else s.barWrite fn bar off size v

/-- R67: a host write in the bit-alias region. -/
def execBitAliasWrite (off size : Nat) (v : W64) (s : State) : Out :=
  upS s fun s =>
    if !(0x2000000 ≤ off && off < 0x4000000) then s
    else if sizeBad size off then s.accessErr 0 0 off
    else
      let s := s.aliasWrite off (v.getLsbD 0)
      if size = 8 then s.aliasWrite (off + 4) (v.getLsbD 32) else s

/-- R59: a host read of the wrong size or alignment reads zero. BAR4 takes word accesses alone (R334). A block that is not up gives all
ones (R4, R35). -/
def execSizeFaultRead (fn bar off size : Nat) (s : State) : Out :=
  upElseS s (.barData fn bar off (BitVec.allOnes 64)) fun s =>
    if 64 < fn || !(fn = 0 || s.vfOn fn) || !(sizeBad size off || bar = 4 && size ≠ 4) then s
    else
      let s := if s.fnServes fn then s.accessErr fn bar off else s
      s.emit (.barData fn bar off 0)

/-! ### Reads of a station page -/

/-- Words of a station page that show what the block's units hold: channels, slots held, entries in use. -/
def State.pageView (s : State) (n o : Nat) : Option W32 :=
  let k := n - 80
  let num (x : Nat) : Option W32 := some (BitVec.ofNat 32 x)
  let chan (c : Nat) : Option Chan := sFind s.dma.chans (n * 2 ^ 20 + c)
  if o = 0x2010 then
    num ((List.range 16).foldl (fun v c => if (chan c).isSome then v + 2 ^ c else v) 0)
  else if 0x2040 ≤ o && o < 0x2140 then
    match chan ((o - 0x2040) / 16), o % 16 with
    | some c, 0 => num (c.queue + 0x80000000)
    | some c, 4 => some c.ri
    | some c, 8 => num c.acked
    | _, _ => some 0
  else if o = 0x2200 then
    some (putBits (s.rd (pageOf n + o)) 2 3 ((s.dma.chans.filter fun e => (chanOf e.1).1 = n && e.2.vbuf).length))
  else match kindOf n with
  | .stirrup =>
    let res := s.acc.list.filterMap fun a => match a.src with
      | .tile st _ part re => if st = n && part ≠ 0 then some re else none
      | _ => none
    if o = 0x610 then num (s.x.tlb.filter fun e => e.loc = n).length
    else if o = 0x620 then num (min (s.heldAt n).length 256)
    else if o = 0x624 then num res.eraseDups.length
    else none
  | .pommel =>
    let mine (q : Nat) : Bool := s.server (s.que q).skirt = k
    if o = 0x404 then num (s.qs.resident.filter mine).length
    else if o = 0x408 then num (s.qs.watch.filter mine).length
    else if o = 0x40C then num (s.qs.jobs.filter fun j => j.entry && mine j.queue).length
    else if o = 0x6B8 then num (s.atsOut k)
    else if o = 0x788 then num (s.flt.entries.filter fun e => e.pm = k).length
    else if o = 0x1118 then
      num (s.res.ctxs.foldl (fun t e => if s.homeOf e.1 = k then t + e.2.free.length else t) 0)
    else if o = 0x111C then
      num (s.res.migs.filter fun e => e.1 / 65536 = k && e.1 % 65536 < 256).length
    else if o = 0x3004 then num ((s.cw.lines.filter fun l => l.pm = k).map CwLine.line).eraseDups.length
    else if 0x800 ≤ o && o < 0x1000 && o % 0x40 = 4 then
      -- GRD_STATE.DRAINING also while a reclaim waits out the guard (R116, R182)
      let w := s.rd (pageOf n + o)
      some (if s.reclaimDrains (32 * k + (o - 0x800) / 0x40) then putBits w 1 1 1 else w)
    else if o = 0x3040 then
      some (putBits (putBits (s.rd (pageOf n + o)) 0 1 (b2n (k = s.bootPm : Bool))) 1 1 (b2n (s.linkActive k)))
    else none
  | .cantle =>
    if o = 0x405C then
      num (min (s.peer.cached.filter fun r => s.condHome r = some (n - 84)).length 256)
    else none

/-- Bits of a page's word that are write-only, and so read zero (R13). -/
def woMask (off : Nat) : W32 := (regFields off).foldl (fun m f => if f.acc = .wo then m ||| f.mask else m) 0

/-- What the word at offset `o` of the page of station `n` reads (R21, R62, R65). -/
def State.pageRead (s : State) (n o : Nat) : W32 × State :=
  let off := pageOf n + o
  let nodeUp := (sGet {} s.nodes n).alive
  let stored (s : State) : W32 × State :=
    let v := s.rd off
    (v &&& ~~~(woMask off), s.vote off)
  if o = 0 then stored s
  else if o = 0x18 || o = 0x1C then (if nodeUp then stored s else (0, s))
  else if !s.pageLive n then (0, s)
  else match s.pageView n o with
  | some v => (v, s.vote off)
  | none => stored s

end Sys2Proof.Machine
end

