-- ==== Sys2Proof/Machine/TelRows.lean ====
section
/-! DEFINITION. Telemetry and trace as commands (R450, R519 to R522), the awl port (R523 to R526), and one tick of the timing
oscillators (R43). -/

namespace Sys2Proof.Machine

/-! ### Windows and estimates -/

/-- R450: a window of 256 ticks of a pommel or cantle ends: its byte counts per partition restart. -/
def execRateShareWindow (st : Nat) (s : State) : Out :=
  upS s fun s =>
    if st < 80 || 100 ≤ st || !s.timerDue .rateShare st st 256 then s
    else { s.timerSet .rateShare st st with tel := { s.tel with window := s.tel.window.filter fun e => e.1 / 64 ≠ st } }

/-- Bytes that partition `p` moved through station `st`, both ways, since the bring-up. -/
def State.movedBy (s : State) (st p : Nat) : Nat :=
  sGet 0 s.tel.moved (shareKey st p * 2) + sGet 0 s.tel.moved (shareKey st p * 2 + 1)

/-- The part of a station's estimate that partition `p` caused (R519): all of a stirrup it owns, and its fraction of the bytes at a
pommel or cantle. DEDUCED: the bytes are those counted since the station's last estimate (log entry 35). -/
def State.partShare (s : State) (st mw p : Nat) : Nat :=
  let since (q : Nat) : Nat := s.movedBy st q - sGet 0 s.tel.estBase (shareKey st q)
  if st < 80 then (if s.ownsStirrup p st then mw else 0)
  else
    let total := (List.range 64).foldl (fun t q => t + since q) 0
    if total = 0 then 0 else mw * since p / total

/-- A station's estimate is taken up (R519), with its sensor and rail readings. The block estimate adds what the block-level parts
draw, which no rule gives: a free value (log entry 36). -/
def State.estimate (s : State) (st mw : Nat) (temp : Int) (mv : Nat) : State :=
  let mw := min mw 65535
  let s := ((s.telPut 3 st mw).telPut 4 st (temp % 65536).toNat).telPut 5 st (min mv 65535)
  let keys := (List.range 64).map fun p => (shareKey st p, s.partShare st mw p)
  let mws := keys.foldl (fun m e => sPut 0 m e.1 e.2) s.tel.partMw
  let base := (List.range 64).foldl (fun m p => sPut 0 m (shareKey st p) (s.movedBy st p)) s.tel.estBase
  let s := { s with tel := { s.tel with partMw := mws, estBase := base } }
  let part (p : Nat) : Nat := mws.foldl (fun t e => if e.1 % 64 = p then t + e.2 else t) 0
  let s := (List.range 64).foldl (fun s p => s.telPut 6 p (min (part p / 10) 65535)) s
  let (n, s) := s.draw
  let b := s.odBlob 0xA000 3
  let sum := (List.range 100).foldl (fun t i => t + fieldAt b (2 * i) 2) 0
  s.odSet 0xA000 2 (min (sum + (Config.free64 n).toNat) 300000)

/-- R519: every 10,000 ticks of its oscillator a station's estimate, with its sensor and rail readings. -/
def execPowerEstimate (st mw : Nat) (temp : Int) (mv : Nat) (s : State) : Out :=
  upS s fun s =>
    if st < 100 && s.present st && !s.lame st && s.timerDue .power st st 10000 then
      (s.timerSet .power st st).estimate st mw temp mv
    else s

/-- R521: 1,000 ticks of station `st` have passed: its trace rate starts again. -/
def execTraceRateWindow (st : Nat) (s : State) : Out :=
  upS s fun s =>
    if st < 100 && s.timerDue .trace st st 1000 then
      { s.timerSet .trace st st with tel := { s.tel with traceRate := sDel s.tel.traceRate st } }
    else s

/-- R520, R521: a write of BLK_TRACE_HEAD. -/
def execTraceHeadWrite (v : W32) (s : State) : Out := upS s fun s => s.traceHead v

/-! ### Awl (R523 to R526) -/

/-- Whether an awl route is the management endpoint. -/
def awlMgmt : AwlRoute → Bool
  | .mgmt => true
  | .side _ _ => false

/-- Whether a request can arrive by its route: over an ACTIVE pommel, or over an endpoint that has its address. -/
def State.awlReach (s : State) (r : AwlRoute) : Bool :=
  match r with
  | .side pm _ => pm < 4 && s.linkActive pm
  | .mgmt => s.mgmt.addr ≠ 0

/-- The response to an awl request (R523), over the route that it came by. -/
def State.awlSay (s : State) (r : AwlRoute) (status state : Nat) (addr data : W32) : State :=
  let b := leBytes 1 status ++ leBytes 1 state ++ leBytes 2 0 ++ leBytes 4 addr.toNat ++ leBytes 4 data.toNat
  match r with
  | .side pm tag => s.sideMsg pm 4 2 (tag % 65536) b
  | .mgmt => s.mgmtSay (mctpRsp s { op := 3 } 0 0 0 b)

/-- What an operation answers: its status, its state code and its data. -/
structure AwlAns where
  status : Nat := 0
  state : Nat := 0
  data : W32 := 0

/-- A request other than ATTACH: DENIED from a route that does not hold the attachment (R523). -/
def State.awlDo (s : State) (r : AwlRoute) (addr : W32) (f : State → State × AwlAns) : State :=
  if !s.awlReach r then s
  else
    let s := s.inc 0x384
    if s.tel.awlRoute ≠ some (awlMgmt r) then s.awlSay r St.denied.code 0 addr 0
    else
      let t := f { s with tel := { s.tel with awlLast := s.tk 80 } }
      t.1.awlSay r t.2.status t.2.state addr t.2.data

/-- R523: ATTACH takes the attachment; a route that holds it keeps it. -/
def execAttach (r : AwlRoute) (s : State) : Out :=
  upS s fun s =>
    if !s.awlReach r then s
    else
      let s := s.inc 0x384
      if s.tel.awlRoute = some (!awlMgmt r) then s.awlSay r St.notNow.code 0x3C 0 0
      else
        let s := { s with tel := { s.tel with awlRoute := some (awlMgmt r), awlLast := s.tk 80 } }
        let s := s.wr 0x380 (BitVec.ofNat 32 (5 + 2 * b2n (awlMgmt r)))
        ((s.setBit 0x2000 2 true).setBit 0x2000 3 true).awlSay r 0 0 0 0

/-- A halted core returns to service (R524). -/
def State.awlWake (s : State) (n c : Nat) : State :=
  (s.coreBack n c).setBit (0x390 + n / 4 * 4) (n % 4 * 8 + c) false

/-- The attachment ends: every halted core is resumed (R523). -/
def State.awlEnd (s : State) : State :=
  let s := ((List.range 800).filter fun g => s.halted (g / 8) (g % 8)).foldl (fun s g => s.awlWake (g / 8) (g % 8)) s
  let s := { s with tel := { s.tel with awlRoute := none } }
  ((s.setBit 0x380 0 false).setBit 0x380 1 false).setBit 0x2000 2 false

/-- R523: DETACH. -/
def execDetach (r : AwlRoute) (s : State) : Out := upS s fun s => s.awlDo r 0 fun s => (s.awlEnd, {})

/-- R523: an attachment that has carried no request for AWL_IDLE_TICKS ends. -/
def execAwlIdleDetach (s : State) : Out :=
  upS s fun s =>
    if s.tel.awlRoute.isNone || s.tk 80 - s.tel.awlLast < s.odNum 0xA000 0x20 then s else s.awlEnd.inc 0x388

/-- Awl touched station `st`: every partition that owns the stirrup, or is configured where the station is shared (R526). -/
def State.awlTouch (s : State) (st : Nat) : State :=
  let ps := (List.range 64).filter fun p => !s.tel.touched.contains p && if st < 80 then s.ownsStirrup p st else s.configured p
  { s with tel := { s.tel with touched := s.tel.touched ++ ps } }

/-- Whether core `c` of station `st` is there. A station or core that is not, or is LAME, answers LAME. -/
def State.awlCore (s : State) (st c : Nat) : Bool := s.present st && !s.lame st && (s.coresOk st).testBit c

/-- HALT of core `c` of station `st` (R524): its duties move, its lease goes, and what it supervised is handed over. DEDUCED: HALT of
a halted core answers OK (log entry 37). -/
def State.awlHalt (s : State) (st c : Nat) : State × AwlAns :=
  if 100 ≤ st || 8 ≤ c then (s, { status := 1 })
  else if !s.awlCore st c then (s, { status := 11 })
  else if s.halted st c then (s.awlTouch st, {})
  else if (s.dutiesOf st c).any (· ≠ 7) && (s.takeover st c).isNone then (s, { status := 2, state := 0x3B })
  else
    let sup := s.supsAt fun x => x = (st, c)
    let s := (s.moveDuties st c).leaseEnd 1 (st * 8 + c)
    let s := s.setBit (0x390 + st / 4 * 4) (st % 4 * 8 + c) true
    ((if sup.isEmpty then s else s.handover sup).awlTouch st, {})

/-- R524: HALT. -/
def execHalt (r : AwlRoute) (st core : Nat) (s : State) : Out := upS s fun s => s.awlDo r 0 fun s => s.awlHalt st core

/-- R524: RESUME of a core that is not halted answers NOT_NOW with AWL_RUNNING (DEDUCED, log entry 37). -/
def execAwlResume (r : AwlRoute) (st core : Nat) (s : State) : Out :=
  upS s fun s => s.awlDo r 0 fun s =>
    if 100 ≤ st || 8 ≤ core then (s, { status := 1 })
    else if !s.halted st core then (s, { status := 2, state := 0x3D })
    else (s.awlWake st core, {})

/-- R523: STEP runs one instruction of a halted core. What it does inside the core belongs to the firmware (R525). -/
def execStep (r : AwlRoute) (st core : Nat) (s : State) : Out :=
  upS s fun s => s.awlDo r 0 fun s =>
    if 100 ≤ st || 8 ≤ core then (s, { status := 1 })
    else if !s.awlCore st core then (s, { status := 11 })
    else if !s.halted st core then (s, { status := 2, state := 0x3D })
    else (s.awlTouch st, {})

/-- Whether an address names something (R525): spaces 0 to 3, a word of it, and in space 3 one of the page. -/
def awlAddrOk (addr : W32) : Bool :=
  getBits addr 28 4 ≤ 3 && getBits addr 0 2 = 0 && !(getBits addr 28 4 = 3 && 0x10000 ≤ getBits addr 0 28)

/-- R525: READ. What spaces 0 to 2 hold belongs to the firmware and the silicon: a free value (log entry 38). -/
def execAwlRead (r : AwlRoute) (st core : Nat) (addr : W32) (s : State) : Out :=
  upS s fun s => s.awlDo r addr fun s =>
    let sp := getBits addr 28 4
    if 100 ≤ st || 8 ≤ core || !awlAddrOk addr then (s, { status := 1 })
    else if sp = 3 then
      let v := s.pageRead st (getBits addr 0 28)
      (v.2, { data := v.1 })
    else if !s.awlCore st core then (s, { status := 11 })
    else if sp ≤ 1 && !s.halted st core then (s, { status := 2, state := 0x3D })
    else
      let d := s.draw
      (d.2.awlTouch st, { data := (Config.free64 d.1).setWidth 32 })

/-- R525: WRITE. A write inside a core, its memory or a unit's structures changes nothing that the spec describes (log entry 38). -/
def execAwlWrite (r : AwlRoute) (st core : Nat) (addr data : W32) (s : State) : Out :=
  upS s fun s => s.awlDo r addr fun s =>
    let sp := getBits addr 28 4
    if 100 ≤ st || 8 ≤ core || !awlAddrOk addr then (s, { status := 1 })
    else if sp = 3 then (s.pageWrite 0 (pageOf st + getBits addr 0 28) st (getBits addr 0 28) data, {})
    else if s.fuses.prodLocked then (s, { status := St.denied.code })
    else if !s.awlCore st core then (s, { status := 11 })
    else if sp ≤ 1 && !s.halted st core then (s, { status := 2, state := 0x3D })
    else (s.awlTouch st, {})

/-! ### Time -/

/-- The ticks that each station has counted beyond the slowest oscillator once that one counts its next (R43): a free choice for each
station, within the band, where the fastest counts half as much again as the slowest. -/
def State.drifts (s : State) : Smap Nat :=
  (List.range 100).foldl (fun m n =>
    let d := sGet 0 m n
    if 2 * (d + 1) ≤ s.ticks + 1 && Config.oscillator s.freeSeq n then sIns m n (d + 1) else m) s.clk.drift

/-- One tick of the slowest timing oscillator (R43), while the rails are up, in reset too. The ledger adds H0's ticks to powered time
and to HOUR_ACCUM, converted with H0's TICK_EST where it is known (R52, R55). DESIGN CHOICE: the ticks under a held reset count too, as
the rails are up (log entry 76). -/
def State.clockTick (s : State) : State :=
  let t : State := { s with ticks := s.ticks + 1, freeSeq := s.freeSeq + 1, clk := { s.clk with drift := s.drifts } }
  let d := (t.tk 80 - s.tk 80) * s.tickPs 80
  ({ t with led := { t.led with powerPs := t.led.powerPs + d, hourPs := t.led.hourPs + d } } : State).hourStep

/-- The gateway has nothing else to send: an EMPTY frame goes round, and FIRST advances (R97). -/
def State.emptyFrame (s : State) : State :=
  ({ s with gw := { s.gw with first := s.gw.first % 100 + 1 } } : State).emit (.latigo (gwFrame 0 0x7F 0 s.gw.first 0 0 []))

/-- The commands that take several ticks go on: a FRAME_SET, and the reset of a station (log entries 42, 85). -/
def State.goOn (s : State) : State := s.framesOn.checkEnds

/-- One tick (log entry 1): time passes; while the block runs the gateway keeps its ring carrying frames, and the commands that take
several ticks go on. -/
def State.tickAll (s : State) : State :=
  match s.power with
  | .off => s
  | .held => s.clockTick
  | .up => if s.ringBrokenBit then s.clockTick.goOn else s.clockTick.emptyFrame.goOn

end Sys2Proof.Machine
end

