-- ==== Sys2Proof/Machine/Dispatch.lean ====
section
/-! DEFINITION. The dispatch: one arm for each command, each a direct call of that command's meaning. -/

namespace Sys2Proof.Machine

def exec (i : Instr) (s : State) : Host.Outcome State Fault Refusal :=
  match i with
  | .fundamentalReset pins boot => Sys2Proof.Machine.execFundamentalReset pins boot s
  | .powerRemoved => Sys2Proof.Machine.execPowerRemoved s
  | .hotReset t => Sys2Proof.Machine.execHotReset t s
  | .hotResetNonBoot pm t => Sys2Proof.Machine.execHotResetNonBoot pm t s
  | .flrPf0 => Sys2Proof.Machine.execFlrPf0 s
  | .flrVf k => Sys2Proof.Machine.execFlrVf k s
  | .powerStateChange fn d3 => Sys2Proof.Machine.execPowerStateChange fn d3 s
  | .thermalTrip st temp blown => Sys2Proof.Machine.execThermalTrip st temp blown s
  | .railOverDetect st mv => Sys2Proof.Machine.execRailOverDetect st mv s
  | .trainHostPorts ts => Sys2Proof.Machine.execTrainHostPorts ts s
  | .readIdentityFuses readable => Sys2Proof.Machine.execReadIdentityFuses readable s
  | .floorPlanSelfTest r => Sys2Proof.Machine.execFloorPlanSelfTest r s
  | .latigoEnumeration marked returned => Sys2Proof.Machine.execLatigoEnumeration marked returned s
  | .firmwareLoad => Sys2Proof.Machine.execFirmwareLoad s
  | .coreDigestAck st c digest => Sys2Proof.Machine.execCoreDigestAck st c digest s
  | .startStreamsAndPmd => Sys2Proof.Machine.execStartStreamsAndPmd s
  | .pcsAligned cn => Sys2Proof.Machine.execPcsAligned cn s
  | .pcsAlignTimeout cn => Sys2Proof.Machine.execPcsAlignTimeout cn s
  | .stackTraining => Sys2Proof.Machine.execStackTraining s
  | .stackTrainResult rs => Sys2Proof.Machine.execStackTrainResult rs s
  | .girthGate => Sys2Proof.Machine.execGirthGate s
  | .girthDwellEnd k m => Sys2Proof.Machine.execGirthDwellEnd k m s
  | .stationEnable bootEnabled => Sys2Proof.Machine.execStationEnable bootEnabled s
  | .setReady => Sys2Proof.Machine.execSetReady s
  | .registerWrite fn bar off size v poisoned => Sys2Proof.Machine.execRegisterWrite fn bar off size v poisoned s
  | .bitAliasWrite off size v => Sys2Proof.Machine.execBitAliasWrite off size v s
  | .tvScrubVisit off => Sys2Proof.Machine.execTvScrubVisit off s
  | .snapshotRequest => Sys2Proof.Machine.execSnapshotRequest s
  | .snapshotPublish => Sys2Proof.Machine.execSnapshotPublish s
  | .dictRead r index sub offset irq => Sys2Proof.Machine.execDictRead r index sub offset irq s
  | .dictWrite r index sub offset data last irq => Sys2Proof.Machine.execDictWrite r index sub offset data last irq s
  | .dictInfo r index sub irq => Sys2Proof.Machine.execDictInfo r index sub irq s
  | .gatewayServe => Sys2Proof.Machine.execGatewayServe s
  | .domainImageDiscard r => Sys2Proof.Machine.execDomainImageDiscard r s
  | .latigoRead f free => Sys2Proof.Machine.execLatigoRead f free s
  | .latigoWrite f free => Sys2Proof.Machine.execLatigoWrite f free s
  | .latigoFrameReturn f => Sys2Proof.Machine.execLatigoFrameReturn f s
  | .latigoReply f => Sys2Proof.Machine.execLatigoReply f s
  | .latigoResendTimeout tag => Sys2Proof.Machine.execLatigoResendTimeout tag s
  | .latigoEmpty st f => Sys2Proof.Machine.execLatigoEmpty st f s
  | .latigoEvent f => Sys2Proof.Machine.execLatigoEvent f s
  | .latigoEventAck st f => Sys2Proof.Machine.execLatigoEventAck st f s
  | .eventResendTimer st => Sys2Proof.Machine.execEventResendTimer st s
  | .latigoBroadcast st f => Sys2Proof.Machine.execLatigoBroadcast st f s
  | .latigoHeartbeatTimer => Sys2Proof.Machine.execLatigoHeartbeatTimer s
  | .latigoHeartbeat st f => Sys2Proof.Machine.execLatigoHeartbeat st f s
  | .heartbeatReturn h => Sys2Proof.Machine.execHeartbeatReturn h s
  | .skipHopSwitch st => Sys2Proof.Machine.execSkipHopSwitch st s
  | .ringBroken => Sys2Proof.Machine.execRingBroken s
  | .setEndpointId eid => Sys2Proof.Machine.execSetEndpointId eid s
  | .getEndpointId => Sys2Proof.Machine.execGetEndpointId s
  | .getMctpVersionSupport msgType => Sys2Proof.Machine.execGetMctpVersionSupport msgType s
  | .getMessageTypeSupport => Sys2Proof.Machine.execGetMessageTypeSupport s
  | .getVendorDefinedMsgSupport selector => Sys2Proof.Machine.execGetVendorDefinedMsgSupport selector s
  | .entdaa addr => Sys2Proof.Machine.execEntdaa addr s
  | .hostEpochWrite => Sys2Proof.Machine.execHostEpochWrite s
  | .ledgerRestore => Sys2Proof.Machine.execLedgerRestore s
  | .ledgerExport => Sys2Proof.Machine.execLedgerExport s
  | .tempSample st temp => Sys2Proof.Machine.execTempSample st temp s
  | .hourStep => Sys2Proof.Machine.execHourStep s
  | .snapshot => Sys2Proof.Machine.execSnapshot s
  | .resetCore => Sys2Proof.Machine.execResetCore s
  | .resetStation => Sys2Proof.Machine.execResetStation s
  | .resetPartition => Sys2Proof.Machine.execResetPartition s
  | .resetBlock => Sys2Proof.Machine.execResetBlock s
  | .resetDrainDone selfCheckOk => Sys2Proof.Machine.execResetDrainDone selfCheckOk s
  | .drainBoundExpiry => Sys2Proof.Machine.execDrainBoundExpiry s
  | .rollStart => Sys2Proof.Machine.execRollStart s
  | .rollStationQuiesced st => Sys2Proof.Machine.execRollStationQuiesced st s
  | .rollQuiesceTimeout st => Sys2Proof.Machine.execRollQuiesceTimeout st s
  | .bootFrameSet => Sys2Proof.Machine.execBootFrameSet s
  | .retrainHostPort m => Sys2Proof.Machine.execRetrainHostPort m s
  | .retrainCantlePort m => Sys2Proof.Machine.execRetrainCantlePort m s
  | .retrainStack => Sys2Proof.Machine.execRetrainStack s
  | .q0EnableBuild => Sys2Proof.Machine.execQ0EnableBuild s
  | .q0Disable => Sys2Proof.Machine.execQ0Disable s
  | .keysRetire => Sys2Proof.Machine.execKeysRetire s
  | .reportSign => Sys2Proof.Machine.execReportSign s
  | .doorbell fn pm q tail head => Sys2Proof.Machine.execDoorbell fn pm q tail head s
  | .doorbellForward pm => Sys2Proof.Machine.execDoorbellForward pm s
  | .snoopDoorbell q => Sys2Proof.Machine.execSnoopDoorbell q s
  | .tailLineReread q tail head => Sys2Proof.Machine.execTailLineReread q tail head s
  | .queueRecordLoad q => Sys2Proof.Machine.execQueueRecordLoad q s
  | .ctxRecordLoad c => Sys2Proof.Machine.execCtxRecordLoad c s
  | .programCheck q ds => Sys2Proof.Machine.execProgramCheck q ds s
  | .queueCreate q d => Sys2Proof.Machine.execQueueCreate q d s
  | .queueStart q d tail head => Sys2Proof.Machine.execQueueStart q d tail head s
  | .queueStop q d => Sys2Proof.Machine.execQueueStop q d s
  | .queueStopped target => Sys2Proof.Machine.execQueueStopped target s
  | .queueDestroy q d => Sys2Proof.Machine.execQueueDestroy q d s
  | .copy q d st ch => Sys2Proof.Machine.execCopy q d st ch s
  | .accumSum q d st ch => Sys2Proof.Machine.execAccumSum q d st ch s
  | .accumMax q d st ch => Sys2Proof.Machine.execAccumMax q d st ch s
  | .accumMin q d st ch => Sys2Proof.Machine.execAccumMin q d st ch s
  | .cksumAppend q d st ch => Sys2Proof.Machine.execCksumAppend q d st ch s
  | .cksumVerify q d st ch => Sys2Proof.Machine.execCksumVerify q d st ch s
  | .vbufSlotGranted st ch => Sys2Proof.Machine.execVbufSlotGranted st ch s
  | .fill q d st ch => Sys2Proof.Machine.execFill q d st ch s
  | .gatherReduce q d st ch => Sys2Proof.Machine.execGatherReduce q d st ch s
  | .wait q d => Sys2Proof.Machine.execWait q d s
  | .waitWake q => Sys2Proof.Machine.execWaitWake q s
  | .waitPoll q => Sys2Proof.Machine.execWaitPoll q s
  | .waitTimeout q => Sys2Proof.Machine.execWaitTimeout q s
  | .signal q d => Sys2Proof.Machine.execSignal q d s
  | .branch q d => Sys2Proof.Machine.execBranch q d s
  | .loop q d => Sys2Proof.Machine.execLoop q d s
  | .reduce q d => Sys2Proof.Machine.execReduce q d s
  | .stamp q d => Sys2Proof.Machine.execStamp q d s
  | .dmaAccessDone a r => Sys2Proof.Machine.execDmaAccessDone a r s
  | .dmaReadbackDone st ch path r => Sys2Proof.Machine.execDmaReadbackDone st ch path r s
  | .dmaEnable st => Sys2Proof.Machine.execDmaEnable st s
  | .dmaDisable st => Sys2Proof.Machine.execDmaDisable st s
  | .dmaQuiesced st => Sys2Proof.Machine.execDmaQuiesced st s
  | .handshakeTimeout st ch => Sys2Proof.Machine.execHandshakeTimeout st ch s
  | .frameSet q d => Sys2Proof.Machine.execFrameSet q d s
  | .frameReclaim q d => Sys2Proof.Machine.execFrameReclaim q d s
  | .reclaimDrainDone q ri => Sys2Proof.Machine.execReclaimDrainDone q ri s
  | .reclaimScrubDone q ri => Sys2Proof.Machine.execReclaimScrubDone q ri s
  | .pteWrite q d r => Sys2Proof.Machine.execPteWrite q d r s
  | .ctxCreate q d => Sys2Proof.Machine.execCtxCreate q d s
  | .ctxRegions q d => Sys2Proof.Machine.execCtxRegions q d s
  | .ctxShare q d => Sys2Proof.Machine.execCtxShare q d s
  | .ctxRevoke q d => Sys2Proof.Machine.execCtxRevoke q d s
  | .ctxRevoked c => Sys2Proof.Machine.execCtxRevoked c s
  | .ctxDestroy q d => Sys2Proof.Machine.execCtxDestroy q d s
  | .fenceAbandon q d => Sys2Proof.Machine.execFenceAbandon q d s
  | .refAck q d => Sys2Proof.Machine.execRefAck q d s
  | .ctxQuery q d => Sys2Proof.Machine.execCtxQuery q d s
  | .tileLoad st tag ctx va len => Sys2Proof.Machine.execTileLoad st tag ctx va len s
  | .tileStore st tag ctx va data => Sys2Proof.Machine.execTileStore st tag ctx va data s
  | .tileFenceAtomic st tag ctx va v => Sys2Proof.Machine.execTileFenceAtomic st tag ctx va v s
  | .walkTableReadDone w => Sys2Proof.Machine.execWalkTableReadDone w s
  | .hostTranslationAnswer w ans => Sys2Proof.Machine.execHostTranslationAnswer w ans s
  | .atsRequestTimeout w => Sys2Proof.Machine.execAtsRequestTimeout w s
  | .stampService q ri d slot => Sys2Proof.Machine.execStampService q ri d slot s
  | .stampReady skirt slot => Sys2Proof.Machine.execStampReady skirt slot s
  | .tlbInvalidate pm slot irq => Sys2Proof.Machine.execTlbInvalidate pm slot irq s
  | .invalidationComplete k => Sys2Proof.Machine.execInvalidationComplete k s
  | .atsInvalidateRequest fn pasid va pages global => Sys2Proof.Machine.execAtsInvalidateRequest fn pasid va pages global s
  | .guardRequest a uncorrectable => Sys2Proof.Machine.execGuardRequest a uncorrectable s
  | .guardCommit a => Sys2Proof.Machine.execGuardCommit a s
  | .guardAbort a => Sys2Proof.Machine.execGuardAbort a s
  | .straddleCheckResult st e => Sys2Proof.Machine.execStraddleCheckResult st e s
  | .prgResponse index pasid code => Sys2Proof.Machine.execPrgResponse index pasid code s
  | .retry pm slot irq => Sys2Proof.Machine.execRetry pm slot irq s
  | .fail pm slot irq => Sys2Proof.Machine.execFail pm slot irq s
  | .failAll pm slot irq => Sys2Proof.Machine.execFailAll pm slot irq s
  | .resume pm slot irq => Sys2Proof.Machine.execResume pm slot irq s
  | .faultResponseTimeout pm entry => Sys2Proof.Machine.execFaultResponseTimeout pm entry s
  | .faultRingHead c head => Sys2Proof.Machine.execFaultRingHead c head s
  | .faultStall a => Sys2Proof.Machine.execFaultStall a s
  | .priControlReset => Sys2Proof.Machine.execPriControlReset s
  | .priDisable => Sys2Proof.Machine.execPriDisable s
  | .give pm slot irq => Sys2Proof.Machine.execGive pm slot irq s
  | .take pm slot irq => Sys2Proof.Machine.execTake pm slot irq s
  | .flush pm slot irq => Sys2Proof.Machine.execFlush pm slot irq s
  | .evict pm slot irq => Sys2Proof.Machine.execEvict pm slot irq s
  | .drop pm slot irq => Sys2Proof.Machine.execDrop pm slot irq s
  | .setAttr pm slot irq => Sys2Proof.Machine.execSetAttr pm slot irq s
  | .resSample c vaPage hostTicks => Sys2Proof.Machine.execResSample c vaPage hostTicks s
  | .resIntervalEnd pm => Sys2Proof.Machine.execResIntervalEnd pm s
  | .promotionCopyDone pm e => Sys2Proof.Machine.execPromotionCopyDone pm e s
  | .evictionWritebackDone pm e r => Sys2Proof.Machine.execEvictionWritebackDone pm e r s
  | .hostSnoop pm line inval store => Sys2Proof.Machine.execHostSnoop pm line inval store s
  | .configRequest pm fn off w => Sys2Proof.Machine.execConfigRequest pm fn off w s
  | .bklClaim fn t => Sys2Proof.Machine.execBklClaim fn t s
  | .bklDone fn t src => Sys2Proof.Machine.execBklDone fn t src s
  | .bklSet fn src => Sys2Proof.Machine.execBklSet fn src s
  | .bklTgtCtrlWrite fn t v => Sys2Proof.Machine.execBklTgtCtrlWrite fn t v s
  | .bklTsetWrite m w v => Sys2Proof.Machine.execBklTsetWrite m w v s
  | .bklSrcWrite fn n v => Sys2Proof.Machine.execBklSrcWrite fn n v s
  | .levelSnapshotTimer die => Sys2Proof.Machine.execLevelSnapshotTimer die s
  | .windowOpen w => Sys2Proof.Machine.execWindowOpen w s
  | .windowClose w => Sys2Proof.Machine.execWindowClose w s
  | .windowAccess off size w answer => Sys2Proof.Machine.execWindowAccess off size w answer s
  | .windowTargetTimeout w => Sys2Proof.Machine.execWindowTargetTimeout w s
  | .l1Entry pm => Sys2Proof.Machine.execL1Entry pm s
  | .l1Exit pm => Sys2Proof.Machine.execL1Exit pm s
  | .ideIntegrityFail pm cache => Sys2Proof.Machine.execIdeIntegrityFail pm cache s
  | .ideKm sid m => Sys2Proof.Machine.execIdeKm sid m s
  | .lockInterface vf => Sys2Proof.Machine.execLockInterface vf s
  | .startInterface vf => Sys2Proof.Machine.execStartInterface vf s
  | .stopInterface vf => Sys2Proof.Machine.execStopInterface vf s
  | .getVersion => Sys2Proof.Machine.execGetVersion s
  | .getCapabilities => Sys2Proof.Machine.execGetCapabilities s
  | .negotiateAlgorithms version supported => Sys2Proof.Machine.execNegotiateAlgorithms version supported s
  | .getDigests => Sys2Proof.Machine.execGetDigests s
  | .getCertificate slot offset len => Sys2Proof.Machine.execGetCertificate slot offset len s
  | .challenge slot nonce => Sys2Proof.Machine.execChallenge slot nonce s
  | .getMeasurements block nonce => Sys2Proof.Machine.execGetMeasurements block nonce s
  | .keyExchange share => Sys2Proof.Machine.execKeyExchange share s
  | .finish sid macOk => Sys2Proof.Machine.execFinish sid macOk s
  | .spdmHeartbeat sid => Sys2Proof.Machine.execSpdmHeartbeat sid s
  | .keyUpdate sid => Sys2Proof.Machine.execKeyUpdate sid s
  | .endSession sid => Sys2Proof.Machine.execEndSession sid s
  | .bind sid p => Sys2Proof.Machine.execBind sid p s
  | .getReport sid nonce => Sys2Proof.Machine.execGetReport sid nonce s
  | .peerShareGet sid node remotePart => Sys2Proof.Machine.execPeerShareGet sid node remotePart s
  | .peerShareSet sid slot gen share => Sys2Proof.Machine.execPeerShareSet sid slot gen share s
  | .peerKeyCommit sid slot gen => Sys2Proof.Machine.execPeerKeyCommit sid slot gen s
  | .peerKeyRetire sid slot gen => Sys2Proof.Machine.execPeerKeyRetire sid slot gen s
  | .flitCrcFail pm => Sys2Proof.Machine.execFlitCrcFail pm s
  | .flitReplayReceived pm diffs good => Sys2Proof.Machine.execFlitReplayReceived pm diffs good s
  | .retrainDone pm t => Sys2Proof.Machine.execRetrainDone pm t s
  | .linkDownEvent pm => Sys2Proof.Machine.execLinkDownEvent pm s
  | .hostHeartbeat pm seq => Sys2Proof.Machine.execHostHeartbeat pm seq s
  | .pommelHeartbeat pm => Sys2Proof.Machine.execPommelHeartbeat pm s
  | .ixciaSend a => Sys2Proof.Machine.execIxciaSend a s
  | .write cn p => Sys2Proof.Machine.execWrite cn p s
  | .readReq cn p => Sys2Proof.Machine.execReadReq cn p s
  | .readRsp cn p => Sys2Proof.Machine.execReadRsp cn p s
  | .atomic cn p => Sys2Proof.Machine.execAtomic cn p s
  | .nak cn p => Sys2Proof.Machine.execNak cn p s
  | .ack cn p => Sys2Proof.Machine.execAck cn p s
  | .probe cn p => Sys2Proof.Machine.execProbe cn p s
  | .probeRsp cn p => Sys2Proof.Machine.execProbeRsp cn p s
  | .probeTimeout node => Sys2Proof.Machine.execProbeTimeout node s
  | .fencedExecute node psn => Sys2Proof.Machine.execFencedExecute node psn s
  | .ixciaRto node psn => Sys2Proof.Machine.execIxciaRto node psn s
  | .ackTimer node => Sys2Proof.Machine.execAckTimer node s
  | .ixcRemoteTimeout a => Sys2Proof.Machine.execIxcRemoteTimeout a s
  | .portDown cn remote => Sys2Proof.Machine.execPortDown cn remote s
  | .pathExclusionEnd node lport rport => Sys2Proof.Machine.execPathExclusionEnd node lport rport s
  | .winSet cn irq => Sys2Proof.Machine.execWinSet cn irq s
  | .winClear cn irq => Sys2Proof.Machine.execWinClear cn irq s
  | .winClearDone cn => Sys2Proof.Machine.execWinClearDone cn s
  | .qpSet cn irq => Sys2Proof.Machine.execQpSet cn irq s
  | .qpClear cn irq => Sys2Proof.Machine.execQpClear cn irq s
  | .rdmaWrite p => Sys2Proof.Machine.execRdmaWrite p s
  | .rdmaReadRequest p => Sys2Proof.Machine.execRdmaReadRequest p s
  | .send p => Sys2Proof.Machine.execSend p s
  | .storageScrubVisit w => Sys2Proof.Machine.execStorageScrubVisit w s
  | .errqHeadWrite v => Sys2Proof.Machine.execErrqHeadWrite v s
  | .leaseRenew kind res => Sys2Proof.Machine.execLeaseRenew kind res s
  | .leaseScan k => Sys2Proof.Machine.execLeaseScan k s
  | .leaseSelfCheckDone kind res ok => Sys2Proof.Machine.execLeaseSelfCheckDone kind res ok s
  | .hbRenew seq => Sys2Proof.Machine.execHbRenew seq s
  | .hbExpired => Sys2Proof.Machine.execHbExpired s
  | .orphanDrained => Sys2Proof.Machine.execOrphanDrained s
  | .tenureTokenWrite size v => Sys2Proof.Machine.execTenureTokenWrite size v s
  | .reattach size v => Sys2Proof.Machine.execReattach size v s
  | .ctxRest => Sys2Proof.Machine.execCtxRest s
  | .restDrainDone c => Sys2Proof.Machine.execRestDrainDone c s
  | .restHoldExpiry c => Sys2Proof.Machine.execRestHoldExpiry c s
  | .restImageWritten c r => Sys2Proof.Machine.execRestImageWritten c r s
  | .ctxResume => Sys2Proof.Machine.execCtxResume s
  | .rateShareWindow st => Sys2Proof.Machine.execRateShareWindow st s
  | .powerEstimate st mw temp mv => Sys2Proof.Machine.execPowerEstimate st mw temp mv s
  | .traceRateWindow st => Sys2Proof.Machine.execTraceRateWindow st s
  | .traceHeadWrite v => Sys2Proof.Machine.execTraceHeadWrite v s
  | .attach r => Sys2Proof.Machine.execAttach r s
  | .detach r => Sys2Proof.Machine.execDetach r s
  | .halt r st core => Sys2Proof.Machine.execHalt r st core s
  | .awlResume r st core => Sys2Proof.Machine.execAwlResume r st core s
  | .step r st core => Sys2Proof.Machine.execStep r st core s
  | .awlRead r st core addr => Sys2Proof.Machine.execAwlRead r st core addr s
  | .awlWrite r st core addr data => Sys2Proof.Machine.execAwlWrite r st core addr data s
  | .awlIdleDetach => Sys2Proof.Machine.execAwlIdleDetach s
  | .powerApplied => Sys2Proof.Machine.execPowerApplied s
  | .fundamentalResetAssert => Sys2Proof.Machine.execFundamentalResetAssert s
  | .portUp cn => Sys2Proof.Machine.execPortUp cn s
  | .tileAccessComplete a r => Sys2Proof.Machine.execTileAccessComplete a r s
  | .priorityFlowControl cn mask pause => Sys2Proof.Machine.execPriorityFlowControl cn mask pause s
  | .storageUpset u => Sys2Proof.Machine.execStorageUpset u s
  | .strapChange pins => Sys2Proof.Machine.execStrapChange pins s
  | .interfaceReport vf => Sys2Proof.Machine.execInterfaceReport vf s
  | .railOverEnd st mv => Sys2Proof.Machine.execRailOverEnd st mv s
  | .sizeFaultRead fn bar off size => Sys2Proof.Machine.execSizeFaultRead fn bar off size s

end Sys2Proof.Machine
end

