-- ==== Sys2Proof/Machine/BarRead.lean ====
section
/-! DEFINITION. What a host read of a word of BAR0 answers: the operator's map with the identity ROM and the counter holding area
(R57, R61, R71, R336), and the partition views (R74, R412, R452, R453, R518). The table has a row for a read only where it claims or
fails (log entry 54); these are the values that every other read shows. -/

namespace Sys2Proof.Machine

/-! ### The identity ROM (R336, R337) -/

/-- The bytes that a dictionary entry reads as. -/
def State.entryBytes (s : State) (idx sub : Nat) : Bytes :=
  match odRow idx sub with
  | some r => s.odRead idx sub r
  | none => []

/-- A field of `n` bytes: the bytes given, padded with `pad`. -/
def padTo (n pad : Nat) (b : Bytes) : Bytes := b.take n ++ (leBytes 1 pad |>.flatMap (List.replicate (n - b.length)))

/-- A record of the ROM: TYPE, SIZE, payload. -/
def romRecord (type : Nat) (payload : Bytes) : Bytes := leBytes 2 type ++ leBytes 2 (payload.length + 4) ++ payload

/-- The entry of station `n` in the TOPOLOGY record. -/
def romTopology (n : Nat) : Bytes :=
  leBytes 1 n ++ leBytes 1 (kindCode (kindOf n)) ++ leBytes 1 (skirtOf n) ++
    leBytes 1 (if kindOf n = .pommel then (n - 80) / 2 else 0xFF)

/-- The identity ROM. It mirrors OD 0x1000, so it holds what bring-up steps 2 and 3 have filled in (R470). -/
def State.romBytes (s : State) : Bytes :=
  let e (sub n : Nat) : Bytes := padTo n 0 (s.entryBytes 0x1000 sub)
  leBytes 4 0x4D4F5249 ++ leBytes 2 1 ++ leBytes 2 6 ++ leBytes 4 romLen ++ leBytes 4 (s.rd 0x10).toNat ++
    leBytes 2 (s.afterStep2 s.fuses.vendor) ++ leBytes 2 0 ++ e 0x04 4 ++ e 0x05 8 ++ leBytes 32 0 ++
    romRecord 1 (padTo 16 0x20 (s.entryBytes 0x1000 0x01) ++ padTo 16 0x20 (s.entryBytes 0x1000 0x02) ++ e 0x03 2 ++ leBytes 2 0) ++
    romRecord 2 (e 0x0D 4 ++ e 0x0E 4 ++ e 0x0F 1 ++ leBytes 1 0 ++ e 0x10 2 ++ e 0x11 2 ++ leBytes 2 0 ++ e 0x12 4 ++ e 0x0C 8) ++
    romRecord 3 (e 0x06 13 ++ e 0x07 13 ++ leBytes 2 0 ++ e 0x09 100 ++ e 0x0A 10 ++ leBytes 2 0 ++ e 0x0B 4 ++ e 0x14 16) ++
    romRecord 4 ((List.range 100).flatMap romTopology) ++
    romRecord 5 (leBytes 1 64 ++ leBytes 3 0 ++ [26, 22, 27, 20, 22].flatMap (leBytes 4)) ++
    romRecord 0xFFFF []

/-! ### The dictionary mailbox (R82) -/

/-- The word at offset `o` of the slot of requester `rid`. -/
def State.mailRead (s : State) (rid o : Nat) : W32 :=
  let r := s.reqr rid
  if o = 0 then r.cmdReg
  else if o = 4 then r.offReg
  else if o = 8 then r.lenReg
  else if o = 0x10 then putBits r.result 0 1 (b2n (r.phase ≠ .idle))
  else if o = 0x14 then r.rlen
  else if o = 0x18 then r.total
  else if o = 0x20 then BitVec.ofNat 32 (b2n r.overrun)
  else if o = 0x24 then r.setcnt
  else if 0x1000 ≤ o && o < 0x2000 then BitVec.ofNat 32 (rdNat r.buf (o - 0x1000) 4)
  else 0

/-! ### The operator's map -/

/-- The word of a register below the station pages, as its current value, with no effect of the read. -/
def State.blockShow (s : State) (off : Nat) : W32 :=
  if off = 4 then BitVec.ofNat 32 (s.fuses.version % 2 ^ 24)
  else if off < 0x8000 then s.rd off &&& ~~~(woMask off)
  else if off < 0x10000 then BitVec.ofNat 32 (fieldAt s.romBytes (off - 0x8000) 4)
  else if off < 0x20000 then s.mailRead ((off - 0x10000) / 0x4000) (off % 0x4000)
  else if off < 0x30000 then
    (if 0x1000 ≤ off - 0x20000 && off - 0x20000 < 0x2000 && off % 0x10 = 0 then
      BitVec.ofNat 32 (s.bkl.claim ((off - 0x21000) / 0x10)).1
    else s.bklRead 0 (off - 0x20000))
  else if off < 0x40000 then sGet 0 s.bank (off - 0x30000)
  else 0

/-- What the operator reads at word `off` of BAR0 (R57), and the state after: a read of a voted field corrects a copy that differs
(R65), and a read of an alias has no effect (R67). A read of BKL_CLAIM shows what it claims; its effect is its own row's. -/
def State.operatorRead (s : State) (off : Nat) : W32 × State :=
  if off < 0x8000 then (s.blockShow off, s.vote off)
  else if off < 0x100000 then (s.blockShow off, s)
  else if off < 0x740000 then s.pageRead ((off - 0x100000) / 0x10000) (off % 0x10000)
  else if 0x2000000 ≤ off && off < 0x4000000 then
    let i := (off - 0x2000000) / 4
    (BitVec.ofNat 32 (b2n ((s.blockShow (i / 32 * 4)).getLsbD (i % 32))), s)
  else (0, s)

/-! ### The partition views -/

/-- A counter as a partition sees it (R453). -/
def quantised (v : Nat) : Nat := v / 1024 * 1024

/-- A word of a counter as a partition sees it: the upper word of an 8-byte counter whole, every other word quantised. -/
def quantisedWord (o : Nat) (w : W32) : W32 :=
  if stationCounters.any fun e => e.2.1 = 8 && e.1 + 4 = o then w
  else if stationCounters.any fun e => e.1 = o then w &&& ~~~(0x3FF#32)
  else w

/-- The counters of a guard's 64 bytes (R182). -/
def guardCounters : List Nat := [0x08, 0x0C, 0x10, 0x24, 0x28, 0x2C, 0x30, 0x34]

/-- The partition control page (R452). DEDUCED: PART_POWER counts steps of 5 W (log entry 54). -/
def State.partPage (s : State) (p o : Nat) : W32 :=
  let c := s.rd (partReg p 0)
  if o = 0 then s.rd 0
  else if o = 4 then BitVec.ofNat 32 (p + 64 * getBits c 0 1 + 128 * getBits c 3 1 + 256 * getBits c 4 1 + 512 * getBits c 8 3)
  else if o = 8 then s.rd 0x10
  else if o = 0xC then BitVec.ofNat 32 (quantised (s.rd (partReg p 0x20)).toNat)
  else if 0x10 ≤ o && o < 0x1C then s.rd (partReg p (o + 4))
  else if 0x1C ≤ o && o < 0x2C then s.rd (partReg p (o - 0x18))
  else if o = 0x2C then BitVec.ofNat 32 (fieldAt (s.odBlob 0xA000 6) (2 * p) 2 / 500)
  else 0

/-- The bytes moved on a partition's behalf as the last snapshot captured them (R518). -/
def State.heldMoved (s : State) (st p dir : Nat) : Nat :=
  sGet 0 (if s.bit 0x40 2 then s.tel.part1 else s.tel.part0) (shareKey st p * 2 + dir)

/-- The partition holding area (R518). -/
def State.partHeld (s : State) (p o : Nat) : W32 :=
  if o < 0x100 then sGet 0 s.bank o
  else if o = 0x100 then BitVec.ofNat 32 (quantised (s.heldDenied p))
  else if o < 0x2800 || 0xF000 ≤ o then 0
  else
    let n := (o - 0x2800) / 0x200
    let r := (o - 0x2800) % 0x200
    let w := sGet 0 s.bank o
    if kindOf n = .stirrup then
      (if !s.ownsStirrup p n then 0
      else if r < 16 then w
      else match (stationLayout (kindBit n)).find? fun e => e.1 = r with
        | some e => quantisedWord e.2 w
        | none => 0)
    else if r < 16 then w
    else if !s.present n || s.lame n then 0
    else if r < 24 then BitVec.ofNat 32 (quantised (s.heldMoved n p 0) / 2 ^ (8 * (r - 16)))
    else if r < 32 then BitVec.ofNat 32 (quantised (s.heldMoved n p 1) / 2 ^ (8 * (r - 24)))
    else 0

/-- What partition function `fn` reads at word `off` of its view (R74), and the state after. -/
def State.viewRead (s : State) (fn off : Nat) : W32 × State :=
  let p := fn - 1
  if !s.configured p then (if off = 0 then s.rd 0 else 0, s)
  else if off < 0x1000 then (s.partPage p off, s)
  else if off < 0x10000 then (0, s)
  else if off < 0x18000 then (s.mailRead (4 + 2 * p + (off - 0x10000) / 0x4000) (off % 0x4000), s)
  else if off < 0x20000 then (0, s)
  else if off < 0x30000 then
    let o := off - 0x20000
    let t := (o - 0x1000) / 0x10
    if 0x1000 ≤ o && o < 0x2000 && o % 0x10 = 0 then
      (if s.fnReaches fn (s.bkl.tgt t).owned (s.bkl.tgt t).part then BitVec.ofNat 32 (s.bkl.claim t).1 else 0, s)
    else (s.bklRead fn o, s)
  else if off < 0x40000 then (s.partHeld p (off - 0x30000), s)
  else if off < 0xA4000 then
    let n := (off - 0x40000) / 0x1000
    let o := off % 0x1000
    if !s.viewShows p n o then (0, s)
    else
      let v := s.pageRead n o
      let guard : Bool := kindOf n = .pommel && 0x800 ≤ o && guardCounters.contains (o % 0x40)
      (if guard then v.1 &&& ~~~(0x3FF#32) else quantisedWord o v.1, v.2)
  else (0, s)

/-- What function `fn` reads at word `off` of its BAR0 (R57, R74), and the state after. A block that is not up gives all ones (R4,
R35). -/
def State.wordRead (s : State) (fn off : Nat) : W32 × State :=
  if s.power ≠ .up then (BitVec.allOnes 32, s) else if fn = 0 then s.operatorRead off else s.viewRead fn off

/-- The value of `size` bytes of ones. -/
def onesOf (size : Nat) : W64 := if size = 8 then BitVec.allOnes 64 else 0xFFFFFFFF

/-- What a host read of `size` bytes at offset `off` of BAR `bar` of function `fn` gives (R4, R59, R75, R326, R349), and the state after:
all ones of a block that is not up or a function that does not answer, zero for a size fault and for all of BAR2; an 8-byte read is two
words, the lower address first, taken at once. BAR4 is read through the row WINDOW_ACCESS. -/
def State.barRead (s : State) (fn bar off size : Nat) : W64 × State :=
  if s.power ≠ .up || !s.fnServes fn then (onesOf size, s)
  else if sizeBad size off then (0, s.accessErr fn bar off)
  else if bar ≠ 0 then (0, s)
  else
    let (lo, s) := s.wordRead fn off
    if size = 4 then (lo.setWidth 64, s)
    else
      let (hi, s) := s.wordRead fn (off + 4)
      (hi ++ lo, s)

end Sys2Proof.Machine
end

