-- ==== Sys2Proof/Safety.lean ====
section
/-! DEFINITION. The terms in which statements about the block are made: what a command gives, when the block is at rest, and what
a block that is not up may hold. -/

namespace Sys2Proof.Machine

/-- Command `i` runs to its end on `s`: the next state is `u` with the queue, the supply, the time and the pins of `s`. -/
def Gives (i : Instr) (s u : State) : Prop := exec i s = .next (s.after u)

/-- Command `i` runs to its end on `s`: it leaves `u`, from which the engines then go on until nothing more can happen at
once. -/
def GivesSettled (i : Instr) (s u : State) : Prop := exec i s = .next (s.after u.settle)

/-- Queue `q` starts descriptor `d` at ring index `ri` (R145, R146): `t` is the state with NEXT moved on; the descriptor was fetched
clean and its opcode is allowed on the queue. -/
def Starts (s : State) (q : Nat) (d : Desc) (ri : W32) (t : State) : Prop :=
  (s.wordsMet (s.queWords q)).start q d = some (ri, t) ∧
    t.host.poisoned (t.ringAt q ri) 128 = false ∧
    opAllowed (t.que q).priv (dOp d) = true

/-- A block whose engines have nothing to do: no access, no job, no residency work, no rest, no revocation, no peer request, no
invalidation of the host's, no host translation under way, no packet that waits for its conduit record, no roll, no loss that is
not taken up, the leases those of the resources in use, and the heartbeat lease as HB_EN and BLK_STATE ask. -/
def State.atRest (s : State) : Prop :=
  s.orph.bootFell = false ∧ s.rcv.fell = [] ∧ s.rcv.lost = [] ∧ s.acc.list = [] ∧ s.peer.clears = [] ∧ s.peer.reqs = [] ∧
    s.res = { groups := s.res.groups, ctxs := s.res.ctxs, nextReq := s.res.nextReq, samples := s.res.samples,
              counts := s.res.counts } ∧ (∀ w ∈ s.x.walks, w.host ≠ 2) ∧
    (∀ e ∈ s.peer.conduits, e.2.queue = [] ∨ s.peer.cached.contains e.1 = true) ∧
    (∀ e ∈ s.cs.recs, e.2.state < 5) ∧ s.cs.rest = none ∧ s.x.hostInvs = [] ∧ s.roll.visiting = [] ∧ s.orph.unlock = [] ∧
    (∀ e ∈ s.rcv.leases, e.1 / 2 ^ 40 < 2 ∨ e.1 / 2 ^ 40 = 8 ∨ e.1 ∈ s.leaseHeld.map fun h => leaseKey h.1 h.2) ∧
    (∀ h ∈ s.leaseHeld, (sFind s.rcv.leases (leaseKey h.1 h.2)).isSome) ∧
    s.bit 0x200 1 = (s.bit 0x200 0 && s.phase = 2)

/-- What a block that is not up holds: the reset value of everything but its fuses, the memories, the pins, the time since power
came with what its oscillators and the ledger count of it (R43, R52), the commands waiting and the model's own counters (R2,
R36). -/
def State.heldOnly (s : State) : Prop :=
  s.power = .up ∨
    s = { State.reset with pending := s.pending, freeSeq := s.freeSeq, out := s.out, power := s.power, ticks := s.ticks,
                           clk := s.clk, pins := s.pins, fuses := s.fuses, dev := s.dev, host := s.host,
                           led := { State.reset.led with powerPs := s.led.powerPs, hourPs := s.led.hourPs } }

/-- The commands that act on the supply, the reset input and the straps: no other touches a block that is not up. -/
def ofSupply : Instr → Bool
  | .powerRemoved | .powerApplied | .fundamentalResetAssert | .fundamentalReset _ _ | .strapChange _ => true
  | _ => false

end Sys2Proof.Machine
end

