-- ==== Sys2Proof/Certificates/Slice0/Obligations.lean ====
section
/-! DEFINITION. The statements about the block: what every step does, what each command gives, and the rules that hold over all
states. A clause `Gives i s u` says that command `i` answers a next state on `s`, and that this state is `u` but for the queue,
the supply, the time and the pins, which are those of `s`: so each such clause is a completion, a result and a frame at once.
`GivesSettled i s u` says the same of `u` after the engines went on; `SettledWhenAtRest` says where that adds nothing. -/

section

open Sys2Proof Sys2Proof.Machine

/-! ### The machine -/

/-- The queue: a step takes the command in front and runs it on the state with the queue's rest. -/
def Obligations.StepRunsTheFrontCommand : Prop :=
  ∀ (c : Instr) (cs : List Instr) (s : State), s.pending = c :: cs → step s = exec c { s with pending := cs }

/-- With no command waiting, a step is one tick of the slowest oscillator (the model's choice, log entry 1): a block without power
does nothing, a block held in reset only counts the tick, and the gateway of a block that is up sends an EMPTY frame round an
unbroken ring while what takes several ticks goes on. In a tick every station counts one tick or two (R43), H0's ticks are added
to the powered time and, until the hour step is due, to the hour accumulator, and nothing else changes. -/
def Obligations.EmptyQueueTicks : Prop :=
  ∀ s : State, s.pending = [] →
    (s.power = .off → step s = .next s) ∧
    (s.power = .held → step s = .next s.clockTick) ∧
    (s.power = .up → step s = .next (if s.ringBrokenBit then s.clockTick.goOn else s.clockTick.emptyFrame.goOn)) ∧
    (∀ n < 100, s.tk n + 1 ≤ s.clockTick.tk n ∧ s.clockTick.tk n ≤ s.tk n + 2) ∧
    (s.led.hourPs + (s.clockTick.tk 80 - s.tk 80) * s.tickPs 80 < hourPs →
      s.clockTick = { s with
        ticks := s.ticks + 1, freeSeq := s.freeSeq + 1, clk := s.clockTick.clk,
        led := { s.led with powerPs := s.led.powerPs + (s.clockTick.tk 80 - s.tk 80) * s.tickPs 80,
                            hourPs := s.led.hourPs + (s.clockTick.tk 80 - s.tk 80) * s.tickPs 80 } })

/-- Every command answers a next state; none stops the block, and only the supply, the reset input and the straps touch the commands
waiting, the supply, the time or the pins. -/
def Obligations.EveryCommandAnswers : Prop :=
  ∀ (i : Instr) (s : State), ∃ t, exec i s = .next t ∧ t.pending = s.pending ∧
    (ofSupply i = false → t.power = s.power ∧ t.ticks = s.ticks ∧ t.clk.drift = s.clk.drift ∧ t.pins = s.pins)

/-- A block that is not up holds nothing but reset values (R2, R36), and every step keeps that. -/
def Obligations.NotUpHoldsOnlyResetValues : Prop :=
  ∀ s t : State, s.heldOnly → step s = .next t → t.heldOnly

/-- The block right after reset holds nothing but reset values. -/
def Obligations.ResetHoldsOnlyResetValues : Prop :=
  State.reset.heldOnly ∧ State.reset.power ≠ .up

/-- A block that is not up ignores everything but its supply, its reset input and its straps, for as long as it is so: however many
commands wait, all of them pass, and nothing changes but what is answered to accesses that reach it (R4, R35). -/
def Obligations.NotUpIgnoresCommands : Prop :=
  ∀ (cs : List Instr) (s : State), s.power ≠ .up → s.pending = cs → (∀ c ∈ cs, ofSupply c = false) →
    ∃ ms, (Sys2Proof.core.run cs.length s : Host.Outcome State Fault Refusal) = .next { s with pending := [], out := ms ++ s.out }

/-- A block whose engines have nothing to do stays as it is when they go on. -/
def Obligations.SettledWhenAtRest : Prop :=
  ∀ s : State, s.atRest → s.settle = s

/-! ### Supply, reset and bring-up -/

/-- The supply, the reset input and the straps (R2, R35, R36, R365): without power nothing is kept but the fuses and the
surroundings; power comes up with the block held; the reset input abandons whatever ran; its release latches the straps, trains
the boot port and leaves the block in BRING_UP with STEP 0; a strap pin that changes later changes the pin alone. -/
def Obligations.SupplyAndReset : Prop :=
  (∀ s : State, exec .powerRemoved s = .next { s.coldReset .off with dev := {} }) ∧
  (∀ s : State, s.power = .off → exec .powerApplied s = .next (s.coldReset .held)) ∧
  (∀ s : State, s.power ≠ .off → exec .fundamentalResetAssert s = .next (s.coldReset .held)) ∧
  (∀ (s : State) (pins : Byte), exec (.strapChange pins) s = .next { s with pins := pins }) ∧
  (∀ (s : State) (pins : Byte) (boot : PortMeas), s.power = .held → s.heldOnly →
    ∃ t, exec (.fundamentalReset pins boot) s = .next t ∧ t.power = .up ∧ t.pins = pins ∧ t.ticks = s.ticks ∧
      t.pending = s.pending ∧ t.fuses = s.fuses ∧ t.dev = s.dev ∧ t.host = s.host ∧ t.phase = 1 ∧ t.stepNo = 0 ∧
      (∀ k < 4, t.rd (pmReg k 0x30C8) = pins.setWidth 32) ∧ t.bu.bootRes = some (judgeHost 9 boot))

/-- Bring-up steps 1 and 2: step 1 trains the other ports and completes; step 2 completes where the package's variant fuses agree
with the straps, fails with DENIED and takes the other ports down where they do not, and fails with POISON where the fuses
cannot be read (R336, R365, R470, R471). Bring-up steps 3 and 4 (R101, R474): the first self-test fills the floor plan, a later
one marks what fails now; the enumeration keeps every station that marked the heartbeat and drops the others; each raises one
floor-plan event where an entry changed, and completes; a ring that does not return fails step 4 with TIMEOUT. -/
def Obligations.BringUpTrainsAndTests : Prop :=
  (∀ (s : State) (ts : List (Nat × PortTrain)), s.power = .up → s.stepRunning 1 →
    Gives (.trainHostPorts ts) s (((List.range 4).foldl (fun s k => s.trainPort ts k) s).stepDone 1)) ∧
  (∀ s : State, s.power = .up → s.stepRunning 2 →
    (bitsOf s.straps 4 1 = s.fuses.pkgVariant → Gives (.readIdentityFuses true) s (s.stepDone 2)) ∧
    (bitsOf s.straps 4 1 ≠ s.fuses.pkgVariant → Gives (.readIdentityFuses true) s (s.blockPorts.stepFail .denied 1)) ∧
    Gives (.readIdentityFuses false) s (s.stepFail .poison 2)) ∧
  (∀ (s : State) (n : Nat), n < 16 → (s.stepDone n).stepNo = n ∧ ((s.stepDone n).cmd 1).phase = 2 ∧
    ((s.stepDone n).cmd 1).status = 0) ∧
  (∀ (s : State) (st : St) (d : Nat), st ≠ .ok → (s.stepFail st d).stepNo = s.stepNo ∧ ((s.stepFail st d).cmd 1).phase = 3 ∧
    ((s.stepFail st d).cmd 1).status = st.code ∧ ((s.stepFail st d).cmd 1).state = d) ∧
  (∀ (s : State) (r : SelfTest), s.power = .up → s.stepRunning 3 → r.fusesReadable → r.blockPartsOk →
    (s.bu.firstRun3 = false → (s.firstPlan r).coresOk (80 + s.bootPm) ≠ 0 →
      Gives (.floorPlanSelfTest r) s ((stepEvent s ({ s.firstPlan r with
        bu := { (s.firstPlan r).bu with firstRun3 := true } } : State).blowCycle).stepDone 3)) ∧
    (s.bu.firstRun3 = true → (s.againPlan r).coresOk (80 + s.bootPm) ≠ 0 →
      Gives (.floorPlanSelfTest r) s ((stepEvent s ({ s.againPlan r with
        bu := { (s.againPlan r).bu with firstRun3 := true } } : State).blowCycle).stepDone 3))) ∧
  (∀ (s : State) (marked : List Nat), s.power = .up → s.stepRunning 4 →
    (s.ringBrokenBit = false → (∀ n < 100, s.present n → s.lame n = false → n ∈ marked) →
      Gives (.latigoEnumeration marked true) s ((stepEvent s s).stepDone 4)) ∧
    Gives (.latigoEnumeration marked false) s (s.stepFail .timeout 5))

/-- Step 5 (R475, R476, R477): a bundle that is laid out is refused with DENIED where its signature does not verify, where it is
older than the fuses allow or where an image is not digested as it says, and is else sent to every live core; a core that
returns its image's digest is counted, and one that does not is loaded again, up to three loads. -/
def Obligations.BringUpFirmware : Prop :=
  (∀ s : State, s.power = .up → s.stepRunning 5 → fwOk (s.odBytes 0x2000 0x80) → s.coresOk (80 + s.bootPm) ≠ 0 →
    let b := s.odBytes 0x2000 0x80
    Gives .firmwareLoad s
      (if Config.verifyOnoskand (b.take (b.length - 96)) (b.drop (b.length - 96)) = false ∨ fieldAt b 8 4 < s.fuses.svnMin then
        s.stepFail .denied 7
      else if ¬ ∀ i ∈ List.range 4, fwMatches b i = true then s.stepFail .denied 0x0A
      else ({ s with bu := { s.bu with imageDigests := (List.range 4).map (fun k => fwOfKind b (k + 1)), loads := [],
                                       acked := [], changed5 := [] } } : State).fwSend.fwFinish)) ∧
  (∀ (s : State) (st c : Nat) (d : BitVec 384), s.power = .up → s.stepRunning 5 → st < 100 → c < 8 →
    sGet 0 s.bu.loads (st * 8 + c) ≠ 0 → s.present st → (s.coresOk st).testBit c → st * 8 + c ∉ s.bu.acked →
    (s.bu.imageDigests[kindCode (kindOf st)]? = some d →
      Gives (.coreDigestAck st c d) s ({ s with bu := { s.bu with acked := (st * 8 + c) :: s.bu.acked } } : State).fwFinish) ∧
    (s.bu.imageDigests[kindCode (kindOf st)]? ≠ some d → sGet 0 s.bu.loads (st * 8 + c) < 3 →
      Gives (.coreDigestAck st c d) s (({ s with bu := { s.bu with
        loads := sPut 0 s.bu.loads (st * 8 + c) (sGet 0 s.bu.loads (st * 8 + c) + 1) } } : State).emit (.image st c))))

/-- Steps 6 and 7 (R478, R479, R480): the streams and the training of the cantles' ports start; a port that aligns, and one that
does not within 50,000 ticks, are recorded, and the latter stays DOWN; the training of every enabled stack starts, and its
results build the owner-word table. Steps 8 to 10 (R482 to R487): the girth gate starts with the links that no dwell measures; a
cantle's dwell, once it has lasted its ticks, records the judgement of its link; a host port's dwell records it, marks its lanes
and retrains it; step 9 enables stations and links; step 10 makes the block READY. -/
def Obligations.BringUpPortsStacksAndGirth : Prop :=
  (∀ s : State, s.power = .up → s.stepRunning 6 → Gives .startStreamsAndPmd s s.step6.pcsFinish) ∧
  (∀ (s : State) (cn : Nat), s.power = .up → s.stepRunning 6 → sGet 0 s.bu.pcs cn = 1 →
    Gives (.pcsAligned cn) s ({ s with bu := { s.bu with pcs := sPut 0 s.bu.pcs cn 2 } } : State).pcsFinish ∧
    (s.timerDue .pcsAlign cn (84 + cn) 50000 → Gives (.pcsAlignTimeout cn) s
      (({ s with bu := { s.bu with pcs := sPut 0 s.bu.pcs cn 3 } } : State).pcsFinish.setFld (pageOf (84 + cn) + 0x4000) 0 2 0))) ∧
  (∀ s : State, s.power = .up → s.stepRunning 7 → Gives .stackTraining s { s with
    bu := { s.bu with training := true },
    out := (((List.range 8).filter s.fuses.hbm.testBit).map fun k => OutMsg.start 1 k).reverse ++ s.out }) ∧
  (∀ (s : State) (rs : List Nat), s.power = .up →
    (s.stepRunning 7 → s.bu.training → Gives (.stackTrainResult rs) s (s.step7 rs)) ∧
    (∀ k, s.bu.training = false → s.rcv.stackBusy = some k →
      Gives (.stackTrainResult rs) s (s.stackRetrained k ((rs[k]?).getD 3)))) ∧
  (∀ s : State, s.power = .up → s.stepRunning 8 → Gives .girthGate s s.step8.startDwell.girthFinish) ∧
  (∀ (s : State) (k : Nat) (m : PortMeas), s.power = .up → s.stepRunning 8 → s.bu.girthRun →
    (k < 4 → s.bu.dwell = some k → s.timerDue .dwell k (80 + k) (s.odNum 0x2000 0x92) → (judgeHost (s.odNum 0x2000 0x94) m).width ≠ 0 →
      Gives (.girthDwellEnd k m) s (((s.markLanes k (judgeHost (s.odNum 0x2000 0x94) m)).setGirth k
        (judgeHost (s.odNum 0x2000 0x94) m)).retrainUp k m.rotated (judgeHost (s.odNum 0x2000 0x94) m).width
          (judgeHost (s.odNum 0x2000 0x94) m).spares).startDwell.girthFinish) ∧
    (4 ≤ k → k < 20 → sGet 0 s.bu.pcs (k - 4) = 2 → sFind s.bu.girth k = none →
      s.timerDue .dwell k (80 + k) (s.odNum 0x2000 0x93) →
      Gives (.girthDwellEnd k m) s (s.setGirth k (judgeCantle (s.odNum 0x2000 0x95) m)).girthFinish)) ∧
  (∀ s : State, s.power = .up → s.stepRunning 9 → Gives (.stationEnable true) s (s.step9.stepDone 9) ∧
    Gives (.stationEnable false) s (s.stepFail .lame 9)) ∧
  (∀ s : State, s.power = .up → s.stepRunning 10 → Gives .setReady s ((s.setFld 0x08 0 4 2).stepDone 10) ∧
    ((s.setFld 0x08 0 4 2).stepDone 10).phase = 2 ∧ ((s.setFld 0x08 0 4 2).stepDone 10).stepNo = 10)

/-! ### Registers -/

/-- Host writes to registers by access code (R13, R59, R63, R69, R529): an RW field takes a value inside its range and a value fault
otherwise leaves it; a W1C word loses the flags written 1, in all three copies; an RWD field takes its value while its unit is
disabled, and while it is enabled stays and is reported; an RO word stays; a poisoned write is dropped; a write of the wrong
size is a size fault. -/
def Obligations.RegisterWritesByAccessCode : Prop :=
  ∀ (s : State) (v : W64), s.power = .up →
    (100000 ≤ (v.setWidth 32).toNat → (v.setWidth 32).toNat ≤ 100000000 →
      GivesSettled (.registerWrite 0 0 0x204 4 v false) s (s.wr 0x204 (v.setWidth 32))) ∧
    ((v.setWidth 32).toNat < 100000 ∨ 100000000 < (v.setWidth 32).toNat →
      GivesSettled (.registerWrite 0 0 0x204 4 v false) s (s.accessErr 0 0 0x204)) ∧
    GivesSettled (.registerWrite 0 0 0x14 4 v false) s (s.putMask 0x14 (v.setWidth 32 &&& 0x1F) 0) ∧
    (s.bit 0x108 1 = false →
      GivesSettled (.registerWrite 0 0 0x100 4 v false) s (s.putMask 0x100 0xFFFFF000 (v.setWidth 32))) ∧
    (s.bit 0x108 1 = true → (v.setWidth 32 ^^^ s.rd 0x100) &&& 0xFFFFF000 ≠ 0 →
      GivesSettled (.registerWrite 0 0 0x100 4 v false) s (s.wwe 0x100 true)) ∧
    GivesSettled (.registerWrite 0 0 0x08 4 v false) s s ∧
    GivesSettled (.registerWrite 0 0 0x204 4 v true) s s.poisonedWrite ∧
    GivesSettled (.registerWrite 0 0 0x204 2 v false) s (s.accessErr 0 0 0x204)

/-- The bit-alias region and the other register commands (R59, R65, R66, R67): a word written through the alias of a flag clears
that flag alone, and one of BLK_ENABLE sets or clears that bit alone; a scrubber that meets copies that agree leaves them, and
otherwise votes; a read of the wrong size reads zero and is a size fault. Register windows (R332, R333, R334): opening one on a
target that is there sets OPEN, and on one that is not raises the fault; closing it clears EN and OPEN; an access through an
open window reaches its target with the window's base, and one through a window that is not open reads zero; a target that does
not answer raises its flag. -/
def Obligations.AliasScrubAndWindows : Prop :=
  (∀ (s : State) (b : Nat) (v : W64), s.power = .up → b < 5 →
    GivesSettled (.bitAliasWrite (0x2000000 + 4 * (0x14 * 8 + b)) 4 v) s
      (s.putMask 0x14 (setAt 0 b (v.getLsbD 0)) 0) ∧
    (2 ≤ b → GivesSettled (.bitAliasWrite (0x2000000 + 4 * (0x0C * 8 + b)) 4 v) s
      (s.putMask 0x0C (setAt 0 b true) (setAt 0 b (v.getLsbD 0))))) ∧
  (∀ (s : State) (off : Nat), s.power = .up → s.bit 0x0C 2 = true →
    GivesSettled (.tvScrubVisit off) s (s.vote off) ∧
    ((s.trip off).a = s.rd off → (s.trip off).b = s.rd off → (s.trip off).c = s.rd off →
      GivesSettled (.tvScrubVisit off) s s)) ∧
  (∀ (s : State) (off size : Nat), s.power = .up → sizeBad size off = true →
    GivesSettled (.sizeFaultRead 0 0 off size) s ((s.accessErr 0 0 off).emit (.barData 0 0 off 0))) ∧
  (∀ (s : State) (w : Nat), s.power = .up → w < 32 → (s.setBit (winReg w 0) 0 true).bit (winReg w 0) 1 = false →
    (s.setBit (winReg w 0) 0 true).winValid ((s.setBit (winReg w 0) 0 true).winTarget w).1
        ((s.setBit (winReg w 0) 0 true).winTarget w).2 = true →
      GivesSettled (.windowOpen w) s ((s.setBit (winReg w 0) 0 true).setBit (winReg w 0) 1 true)) ∧
  (∀ (s : State) (w : Nat), s.power = .up → w < 32 → (s.setBit (winReg w 0) 0 true).bit (winReg w 0) 1 = false →
    (s.setBit (winReg w 0) 0 true).winValid ((s.setBit (winReg w 0) 0 true).winTarget w).1
        ((s.setBit (winReg w 0) 0 true).winTarget w).2 = false →
      GivesSettled (.windowOpen w) s ((s.setBit (winReg w 0) 0 true).raise 0x600 1 0x608)) ∧
  (∀ (s : State) (w : Nat), s.power = .up → w < 32 →
    GivesSettled (.windowClose w) s ((s.setBit (winReg w 0) 0 false).setBit (winReg w 0) 1 false)) ∧
  (∀ (s : State) (w o : Nat) (v answer : W32), s.power = .up → w < 32 → o < 0x400000 → o % 4 = 0 →
    (s.bit (winReg w 0) 1 = true → s.fld (winReg w 8) 12 20 * 4096 + o < winSpace (s.winTarget w).1 →
      GivesSettled (.windowAccess (w * 0x400000 + o) 4 none answer) s
        ((s.emit (.window (s.winTarget w).1 (s.winTarget w).2 (s.fld (winReg w 8) 12 20 * 4096 + o) none)).emit
          (.barData 0 4 (w * 0x400000 + o) (answer.setWidth 64))) ∧
      (s.bit (winReg w 0) 2 = true → (s.winTarget w).1 ≠ 5 →
        GivesSettled (.windowAccess (w * 0x400000 + o) 4 (some v) answer) s
          (s.emit (.window (s.winTarget w).1 (s.winTarget w).2 (s.fld (winReg w 8) 12 20 * 4096 + o) (some v))))) ∧
    (s.bit (winReg w 0) 1 = false →
      GivesSettled (.windowAccess (w * 0x400000 + o) 4 none answer) s (s.emit (.barData 0 4 (w * 0x400000 + o) 0)))) ∧
  (∀ (s : State) (w : Nat), s.power = .up → w < 32 → s.bit (winReg w 0) 1 = true →
    GivesSettled (.windowTargetTimeout w) s (s.raise 0x600 0 0x604))

/-- The vote of three copies (R65): bit by bit it is the value of at least two of them, so an upset of one copy, whatever its bits,
is outvoted. -/
def Obligations.VoteIsTheMajority : Prop :=
  (∀ (t : Trip) (i : Nat), (maj t).getLsbD i =
    decide (2 ≤ b2n (t.a.getLsbD i) + b2n (t.b.getLsbD i) + b2n (t.c.getLsbD i))) ∧
  ∀ (s : State) (off : Nat) (v x : W32),
    s.trip off = ⟨x, v, v⟩ ∨ s.trip off = ⟨v, x, v⟩ ∨ s.trip off = ⟨v, v, x⟩ →
      s.rd off = v ∧ (s.wr off (maj (s.trip off))).trip off = ⟨v, v, v⟩

/-- Reads of the BARs (R4, R35, R57, R59, R60, R67, R74, R75, R326, R336, R453): a block that is not up reads as all ones; reserved
ranges read zero, the word of a bit's alias reads that bit and changes nothing, the identity ROM is 736 bytes long and begins
with its magic number, a partition function of a partition that is not configured reads BLK_ALIVE at offset 0 and zero
everywhere else, and what a partition reads of its denied doorbells is a multiple of 1,024 that does not exceed the exact count;
a doubleword is the two words at its address and the next, and BAR2 reads zero. -/
def Obligations.ReadsOfTheMap : Prop :=
  (∀ (s : State) (fn bar off size : Nat), s.power ≠ .up →
    s.wordRead fn off = (BitVec.allOnes 32, s) ∧ s.barRead fn bar off size = (onesOf size, s)) ∧
  (∀ (s : State) (off : Nat), s.power = .up → 0x40000 ≤ off ∧ off < 0x100000 ∨ 0x740000 ≤ off ∧ off < 0x2000000 → s.wordRead 0 off = (0, s)) ∧
  (∀ (s : State) (off b : Nat), s.power = .up → off < 0x100000 → off % 4 = 0 → b < 32 →
    s.wordRead 0 (0x2000000 + (off * 8 + b) * 4) = (BitVec.ofNat 32 (b2n ((s.wordRead 0 off).1.getLsbD b)), s)) ∧
  (∀ s : State, s.power = .up → s.romBytes.length = romLen ∧ s.wordRead 0 0x8000 = (0x4D4F5249, s)) ∧
  (∀ (s : State) (fn off : Nat), s.power = .up → 1 ≤ fn → s.configured (fn - 1) = false →
    s.wordRead fn off = (if off = 0 then s.rd 0 else 0, s)) ∧
  (∀ (s : State) (fn : Nat), s.power = .up → 1 ≤ fn → s.configured (fn - 1) = true →
    (s.wordRead fn 0xC).1.toNat % 1024 = 0 ∧ (s.wordRead fn 0xC).1.toNat ≤ (s.rd (partReg (fn - 1) 0x20)).toNat) ∧
  (∀ (s : State) (fn off : Nat), s.power = .up → s.fnServes fn = true →
    (off % 8 = 0 → s.barRead fn 0 off 8 =
      (((s.wordRead fn off).2.wordRead fn (off + 4)).1 ++ (s.wordRead fn off).1, ((s.wordRead fn off).2.wordRead fn (off + 4)).2)) ∧
    (off % 4 = 0 → s.barRead fn 2 off 4 = (0, s)))

/-! ### Register windows, link power, configuration -/

/-- Link power and configuration (R4, R35, R327, R343, R344): a port that has been idle for its ticks and may sleep enters L1 and
counts it; any traffic wakes it; a function moves between D0 and D3hot; the boot pommel answers a configuration read of PF0, and
another pommel counts the request and answers Unsupported Request, and either is awake then; a block that is not up reads as all
ones. Resets that come over a link (R345 to R349): with HOT_RESET_MODE 0 a hot reset and an FLR of PF0 are block resets; in
another mode a block that runs enters ORPHAN and resets what faces the endpoint; a hot reset of another port retrains that port
alone; an FLR of a VF begins the reset of its partition. -/
def Obligations.LinksAndConfiguration : Prop :=
  (∀ (s : State) (pm : Nat), s.power = .up → pm < 4 → s.linkActive pm = true → (s.cfg 0 0x70).getLsbD 1 = true →
    s.odNum 0x2000 0x52 ≠ 0 → s.bit (pmReg pm 0x3040) 2 = false → s.idleFor pm (s.odNum 0x2000 0x52) = true →
    GivesSettled (.l1Entry pm) s ((s.setBit (pmReg pm 0x3040) 2 true).inc (pmReg pm 0x3064))) ∧
  (∀ (s : State) (pm : Nat), s.power = .up → pm < 4 → GivesSettled (.l1Exit pm) s (s.setBit (pmReg pm 0x3040) 2 false)) ∧
  (∀ (s : State) (fn : Nat) (d3 : Bool), s.power = .up → fn ≤ 64 → s.fnThere fn = true →
    GivesSettled (.powerStateChange fn d3) s (s.setCfg fn 0x44 (putBits (s.cfg fn 0x44) 0 2 (if d3 then 3 else 0)))) ∧
  (∀ (s : State) (pm off : Nat), s.power = .up → pm < 4 → s.linkActive pm = true → off % 4 = 0 → off < 4096 →
    (pm = s.bootPm → s.ep.flr.contains 0 = false →
      GivesSettled (.configRequest pm 0 off none) s ((s.portBusy pm).emit (.config pm 0 off 0 ((s.portBusy pm).cfgRead 0 off)))) ∧
    (pm ≠ s.bootPm →
      GivesSettled (.configRequest pm 0 off none) s
        (((s.portBusy pm).inc (pmReg pm 0x3054)).emit (.config pm 0 off 1 0)))) ∧
  (∀ (s : State) (pm fn off : Nat), s.power ≠ .up →
    exec (.configRequest pm fn off none) s = .next (s.emit (.config pm fn off 0 (BitVec.allOnes 32)))) ∧
  (∀ (s : State) (t : PortTrain), s.power = .up → s.hotMode = 0 →
    GivesSettled (.hotReset t) s (s.blockReset.setLink s.bootPm t.rotated (min t.modules 4) t.spares) ∧
    GivesSettled .flrPf0 s s.blockReset) ∧
  (∀ (s : State), s.power = .up → s.hotMode ≠ 0 → s.phase = 2 ∨ s.phase = 4 →
    GivesSettled .flrPf0 s (s.orphanEnter 4).hotSteps) ∧
  (∀ (s : State) (pm : Nat) (t : PortTrain), s.power = .up → pm < 4 → pm ≠ s.bootPm → s.bu.blocked = false →
    (s.port pm).linkDisabled = false → s.lame (80 + pm) = false → s.bu.dwell ≠ some pm →
    GivesSettled (.hotResetNonBoot pm t) s ((s.retrainStart pm).retrainEnd pm t)) ∧
  (∀ (s : State) (k : Nat), s.power = .up → 1 ≤ k → k ≤ 64 → s.vfOn k = true →
    GivesSettled (.flrVf k) s (s.flrVf k))

/-- The die-to-die ports (R366, R367, R368, R504, R505): a flit that fails its CRC is asked for again; a good replay that wears no
lane ends the request; a retrain ends as the training found; a link that falls goes DOWN; a host heartbeat renews the lease; a
pommel sends its own every 1,000 ticks with the next sequence number. IDE streams (R353, R355): a stream that fails its
integrity ends its secure state and takes the TDIs that rely on it to ERROR; a key is programmed, started and stopped by IDE_KM
messages of a secured session. -/
def Obligations.DieToDiePortsAndIde : Prop :=
  (∀ (s : State) (pm : Nat), s.power = .up → pm < 4 →
    (s.linkActive pm = true → (s.port pm).replaying = false → GivesSettled (.flitCrcFail pm) s
      (((s.setPort pm { s.port pm with replaying := true }).inc (pmReg pm 0x3098)).raise (pmReg pm 0x3084) 0
        (pmReg pm 0x3088))) ∧
    (s.linkActive pm = true → (s.port pm).replaying = true → (s.port pm).charges = [] →
      GivesSettled (.flitReplayReceived pm [] true) s
        (s.setPort pm { s.port pm with replaying := false, charges := [], failRun := 0, failLanes := [] })) ∧
    (∀ t : PortTrain, s.fld (pmReg pm 0x3080) 0 2 = 3 → s.bu.dwell ≠ some pm →
      GivesSettled (.retrainDone pm t) s (s.retrainEnd pm t)) ∧
    (s.fld (pmReg pm 0x3080) 0 2 ≠ 0 → s.bu.girthRun = false → GivesSettled (.linkDownEvent pm) s (s.linkDown pm)) ∧
    (∀ q : BitVec 16, s.linkActive pm = true → GivesSettled (.hostHeartbeat pm q) s (s.hbRenew (q.setWidth 32))) ∧
    (s.linkActive pm = true → s.timerDue .hostBeat pm (80 + pm) 1000 = true → GivesSettled (.pommelHeartbeat pm) s
      (((s.timerSet .hostBeat pm (80 + pm)).setPort pm
          { s.port pm with hbSeq := ((s.port pm).hbSeq + 1) % 65536 }).sideMsg pm 5 1 (s.port pm).hbSeq
        (leBytes 1 s.phase ++ leBytes 4 (s.rd 0x10).toNat)))) ∧
  (∀ (s : State) (pm : Nat) (cache : Bool), s.power = .up → pm < 4 → s.linkActive pm = true →
    sGet 0 s.sec.ide (pm * 2 + b2n cache) = 2 →
    GivesSettled (.ideIntegrityFail pm cache) s
      (({ s with sec := { s.sec with ide := sDel s.sec.ide (pm * 2 + b2n cache) } } : State).inc (pmReg pm 0x3068)).tdiErrors) ∧
  (∀ (s : State) (sid pm : Nat) (cache : Bool), s.power = .up → s.secured sid = true → s.inOrphan = false → pm < 4 →
    (sGet 0 s.sec.ide (pm * 2 + b2n cache) ≠ 2 → GivesSettled (.ideKm sid (.keyProg pm cache)) s
      { s with sec := { s.sec with ide := sPut 0 s.sec.ide (pm * 2 + b2n cache) 1 } }) ∧
    (sGet 0 s.sec.ide (pm * 2 + b2n cache) = 1 → GivesSettled (.ideKm sid (.keySetGo pm cache)) s
      { s with sec := { s.sec with ide := sPut 0 s.sec.ide (pm * 2 + b2n cache) 2 } }) ∧
    (sGet 0 s.sec.ide (pm * 2 + b2n cache) = 2 → GivesSettled (.ideKm sid (.keySetStop pm cache)) s
      ({ s with sec := { s.sec with ide := sPut 0 s.sec.ide (pm * 2 + b2n cache) 0 } } : State).tdiErrors))

/-! ### Buckle -/

/-- Which source a claim takes (R406): the PENDING, enabled source of the target with the highest priority at or above its
threshold, and among equals the highest number; it moves to IN_SERVICE; a claim finds one exactly when the target's level is
asserted. -/
def Obligations.ClaimTakesTheBestSource : Prop :=
  (∀ (b : Buckle) (t : Nat), (b.claim t).1 = 0 ↔ b.level t = false) ∧
  (∀ (b : Buckle) (t : Nat), b.level t = false → b.claim t = (0, b)) ∧
  ∀ (b : Buckle) (t : Nat), sSorted none b.srcs = true → b.level t = true →
    ∃ n v, (n, v) ∈ b.srcs ∧ v.st = .pending ∧ v.target = some t ∧ v.enable = true ∧ (b.tgt t).thresh ≤ v.prio ∧
      (∀ m u, (m, u) ∈ b.srcs → u.st = .pending → u.target = some t → u.enable = true → (b.tgt t).thresh ≤ u.prio →
        u.prio < v.prio ∨ u.prio = v.prio ∧ m ≤ n) ∧
      b.claim t = (n + 0x1000 * v.prio + 0x80000000, b.setSrc n { v with st := .inService })

/-- Buckle's events and commands (R402, R405, R406, R411): an event makes an IDLE source PENDING, changes no PENDING one and is lost
on one IN_SERVICE; a claim, a DONE, a set, and the writes of a source, a target and a target set do as their rules say; DONE of
a source that is not IN_SERVICE under the target raises BAD_DONE; the carrier sends the level snapshot every 1,000 ticks while a
level is asserted; a claim of a block that is not up reads as all ones (R4). -/
def Obligations.BuckleCommands : Prop :=
  (∀ (b : Buckle) (n : Nat),
    ((b.src n).st = .idle → b.event n = (b.setSrc n { b.src n with st := .pending }).assign n) ∧
    ((b.src n).st = .pending → b.event n = b) ∧
    ((b.src n).st = .inService → b.event n = { b.flag 0 with lostLast := n })) ∧
  (∀ (s : State) (t : Nat), s.power = .up →
    (s.bkl.level t = false → Gives (.bklClaim 0 t) s ((s.onBkl fun _ => s.bkl).emit (.barData 0 0 (0x21000 + t * 0x10) 0))) ∧
    (s.bkl.level t = true → Gives (.bklClaim 0 t) s
      (((s.onBkl fun _ => (s.bkl.claim t).2).trace 8 80 t ((s.bkl.claim t).1 % 4096)).emit
        (.barData 0 0 (0x21000 + t * 0x10) (BitVec.ofNat 64 (s.bkl.claim t).1))))) ∧
  (∀ (s : State) (t n : Nat), s.power = .up → t < 256 →
    ((s.bkl.src n).st = .inService → (s.bkl.src n).target = some t →
      Gives (.bklDone 0 t n) s (s.onBkl fun b => b.setSrc n { b.src n with st := .idle, target := none })) ∧
    ((s.bkl.src n).st ≠ .inService → Gives (.bklDone 0 t n) s (s.onBkl fun b => b.flag 1))) ∧
  (∀ (s : State) (n : Nat), s.power = .up → n < 0xCE8 → Gives (.bklSet 0 n) s (s.irq n)) ∧
  (∀ (s : State) (t : Nat) (v : W32), s.power = .up → t < 256 → getBits v 4 5 ≤ 16 →
    Gives (.bklTgtCtrlWrite 0 t v) s (s.onBkl fun b => b.setTgt t
      { en := v.getLsbD 0, thresh := getBits v 4 5, part := getBits v 16 6, owned := v.getLsbD 22 })) ∧
  (∀ (s : State) (m w : Nat) (v : W32), s.power = .up → m < 64 → w < 8 →
    Gives (.bklTsetWrite m w v) s (s.onBkl fun b => ({ b with tsets := sPut 0 b.tsets m (sGet 0 b.tsets m % 2 ^ (32 * w) +
      v.toNat * 2 ^ (32 * w) + sGet 0 b.tsets m / 2 ^ (32 * w + 32) * 2 ^ (32 * w + 32)) } : Buckle).rechoose)) ∧
  (∀ (s : State) (n : Nat) (v : W32), s.power = .up → n < 0xC00 →
    Gives (.bklSrcWrite 0 n v) s (s.onBkl fun b => b.setSrc n { s.bkl.src n with
      prio := getBits v 0 4, enable := v.getLsbD 10, set := getBits v 4 6, part := getBits v 22 6, owned := v.getLsbD 28 })) ∧
  (∀ (s : State) (die k : Nat), s.power = .up → s.carrier die = some k → s.timerDue .levels k (80 + k) 1000 = true →
    (s.bkl.tgts.any fun p => p.1 / 128 = die && s.bkl.level p.1) = true →
    Gives (.levelSnapshotTimer die) s ((s.timerSet .levels k (80 + k)).levelSnapshot k)) ∧
  (∀ (s : State) (fn t : Nat), s.power ≠ .up →
    exec (.bklClaim fn t) s = .next (s.emit (.barData fn 0 (0x21000 + t * 0x10) (BitVec.allOnes 64))))

/-- The frame of Buckle's commands (R402, R404, R405, R411, R362): but for a claim, and a THRESH that is a value fault, they change,
whatever their operands and the state, Buckle's own records, what the die-to-die ports send, their own interval and nothing
else: no register, no dictionary entry, no memory, no context, no queue. -/
def Obligations.BuckleCommandsFrame : Prop :=
  ∀ (s t : State) (i : Instr),
    (∃ fn n src, i = .bklDone fn n src) ∨ (∃ fn src, i = .bklSet fn src) ∨ (∃ fn n v, getBits v 4 5 ≤ 16 ∧ i = .bklTgtCtrlWrite fn n v) ∨
      (∃ m w v, i = .bklTsetWrite m w v) ∨ (∃ fn n v, i = .bklSrcWrite fn n v) ∨ (∃ die, i = .levelSnapshotTimer die) →
    exec i s = .next t → ∃ c b d o, t = { s with clk := { s.clk with timers := c }, bkl := b, d2d := d, out := o }

/-! ### The dictionary, snapshots, the ledger -/

/-- A dictionary request of an idle requester that is reached (R80, R83): the slot holds the request and is BUSY; nothing else
changes. -/
def Obligations.DictionaryRequestsAreTaken : Prop :=
  ∀ (s : State) (r : Requester) (index sub offset : Nat) (irq : Bool), s.power = .up → s.reaches r = true →
    s.ridLive (ridOf r) = true → (s.reqr (ridOf r)).phase = .idle →
    Gives (.dictRead r index sub offset irq) s (s.setReqr (ridOf r) { s.reqr (ridOf r) with
      phase := .waiting, op := 0, index := index, sub := sub, offset := offset, data := [], len := 0, last := false, irq := irq,
      cmdReg := BitVec.ofNat 32 (8 * b2n irq + 0x100 * sub + 0x10000 * index), offReg := BitVec.ofNat 32 offset,
      lenReg := 0, result := putBits (s.reqr (ridOf r)).result 0 2 1 }) ∧
    (∀ (data : Bytes) (last : Bool), Gives (.dictWrite r index sub offset data last irq) s
      (s.setReqr (ridOf r) { s.reqr (ridOf r) with
        phase := .waiting, op := 1, index := index, sub := sub, offset := offset, data := data, len := data.length,
        last := last, irq := irq,
        cmdReg := BitVec.ofNat 32 (1 + 4 * b2n last + 8 * b2n irq + 0x100 * sub + 0x10000 * index),
        offReg := BitVec.ofNat 32 offset, lenReg := BitVec.ofNat 32 data.length,
        buf := wrBytes (s.reqr (ridOf r)).buf 0 data, result := putBits (s.reqr (ridOf r)).result 0 2 1 })) ∧
    Gives (.dictInfo r index sub irq) s (s.setReqr (ridOf r) { s.reqr (ridOf r) with
      phase := .waiting, op := 2, index := index, sub := sub, offset := 0, data := [], len := 0, last := false, irq := irq,
      cmdReg := BitVec.ofNat 32 (2 + 8 * b2n irq + 0x100 * sub + 0x10000 * index), offReg := 0, lenReg := 0,
      result := putBits (s.reqr (ridOf r)).result 0 2 1 })

/-- The gateway's turns and the images it collects (R87, R91): a turn serves the first request that is pending, from its pointer on,
numbers it in the order of acceptance and moves the pointer past it, unless an earlier request to its entry is being served; an
image with no new segment for 100,000 ticks is discarded, and no other. -/
def Obligations.GatewayTurns : Prop :=
  (∀ (s : State) (rid : Nat), s.power = .up →
    (((List.range 133).map fun i => (s.purgeOpens.gw.ptr + i) % 133).find? s.purgeOpens.takeable) = some rid →
    s.purgeOpens.entryBusy (s.purgeOpens.reqr rid).index (s.purgeOpens.reqr rid).sub = false →
    Gives .gatewayServe s
      ((({ s.purgeOpens with gw := { s.purgeOpens.gw with
          ptr := (rid + 1) % 133, accepts := s.purgeOpens.gw.accepts + 1 } } : State).setReqr rid
        { s.purgeOpens.reqr rid with seq := s.purgeOpens.gw.accepts }).serve rid)) ∧
  (∀ (s : State) (r : Requester), s.power = .up →
    Gives (.domainImageDiscard r) s { s with gw := { s.gw with
      opens := s.gw.opens.filter fun o => !(o.rid = ridOf r && 100000 ≤ s.tk 80 - o.since) } })

/-- Counter snapshots (R71, R72, R93): a request starts one, and is ignored and flagged while one is BUSY; the SNAPSHOT command
starts one; a publication fills the hidden bank, toggles BANK, counts and clears BUSY. Host epochs, the hour step and
temperature samples (R49, R52, R55): the accepted write of HOST_EPOCH is broadcast and completes; an hour accumulator at 64
hours or more drops below them and blows one fuse bit for each, up to 2,304; a sample, 1,000 ticks after the last, adds the
ticks since then to the band of the temperature, and keeps the maximum. The wear ledger (R53, R54, R72): a write of LEDGER_IMAGE
that fits this part adds it to the counts, once; a second is refused with NOT_NOW and one that does not fit with INVALID, both
without a change to the counts; a read waits for the next publication. -/
def Obligations.HoldingAreaTimeAndWear : Prop :=
  (∀ s : State, s.power = .up →
    (s.bit 0x40 1 = false → Gives .snapshotRequest s (s.setBit 0x40 1 true)) ∧
    (s.bit 0x40 1 = true → Gives .snapshotRequest s (s.blkFlag 4)) ∧
    (s.cmdRunning 2 = true → Gives .snapshot s { s.setBit 0x40 1 true with tel := { s.tel with snapCmd := true } }) ∧
    (s.bit 0x40 1 = true → Gives .snapshotPublish s s.snapPublish)) ∧
  (∀ (s : State) (rid : Nat), s.power = .up → (s.ownReq .own fun i b _ => i = 0x2000 && b = 0x10) = some rid →
    s.ringBrokenBit = false →
    let f := gwFrame 5 0x7F 0 0x2000 0x10 0 (leBytes 6 (leNat (s.reqr rid).data))
    Gives .hostEpochWrite s ((({ s with gw := { s.gw with bcast := some f } } : State).emit (.latigo f)).complete rid .ok 0 [])) ∧
  (∀ s : State, s.power = .up → hourPs ≤ s.led.hourPs →
    Gives .hourStep s { s with
      led := { s.led with hourPs := s.led.hourPs % hourPs },
      fuses := { s.fuses with hourSteps := min (s.fuses.hourSteps + s.led.hourPs / hourPs) 2304 } }) ∧
  (∀ (s : State) (st : Nat) (temp : Int), s.power = .up → st < 100 → s.fuses.stations.testBit st = true →
    1000 ≤ s.tk st - (sGet {} s.wear st).sampled →
    Gives (.tempSample st temp) s { s.telPut 4 st (temp % 65536).toNat with
      wear := sPut {} s.wear st { sGet {} s.wear st with
        temps := addBand (sGet {} s.wear st).temps (tempBand temp)
          ((s.tk st - (sGet {} s.wear st).sampled) * 10 ^ 6),
        tempMax := if (sGet {} s.wear st).seen then max (sGet {} s.wear st).tempMax temp else temp, seen := true,
        sampled := s.tk st } }) ∧
  (∀ (s : State) (rid : Nat), s.power = .up → (s.ownReq .own fun i b o => i = 0x8000 && b = 2 && o = 1) = some rid →
    (s.ledgerOk (s.reqr rid).data = true → s.led.restored = false →
      Gives .ledgerRestore s ((s.ledgerAdd (s.reqr rid).data).complete rid .ok 0 [])) ∧
    (s.ledgerOk (s.reqr rid).data = true → s.led.restored = true →
      Gives .ledgerRestore s (s.complete rid .notNow 8 [])) ∧
    (s.ledgerOk (s.reqr rid).data = false → Gives .ledgerRestore s (s.complete rid .invalid 0 []))) ∧
  (∀ (s : State) (rid : Nat), s.power = .up → (s.ownReq .own fun i b o => i = 0x8000 && b = 2 && o = 0) = some rid →
    s.bit 0x40 1 = false →
    Gives .ledgerExport s ((s.setReqr rid { s.reqr rid with phase := .snap }).setBit 0x40 1 true)) ∧
  (∀ (s : State) (rid st : Nat) (data : Bytes) (n : St), (s.complete rid n st data).led = s.led ∧
    (s.complete rid n st data).wear = s.wear)

/-! ### The Latigo ring and the management endpoint -/

/-- Frames at a node (R95 to R99): a frame with a bad CRC is marked CORRUPT, counted and otherwise ignored, whatever its type; with
a good one a node takes a READ or a WRITE that it has room for and keeps the reply, sends a reply or an event in an EMPTY frame,
ends the resending of an event that is acknowledged. Frames at the gateway (R98, R99, R100): a broadcast that came to harm goes
again as it was sent; a request that came back accepted waits for its reply, and one with NACK goes again with the same TAG up
to four sends; a reply completes its request with its status, state and payload; a request without an answer for 250 ticks goes
again; an event is answered by an acknowledgement of its sequence number. -/
def Obligations.LatigoFrames : Prop :=
  (∀ (s : State) (f : Frame) (free : Bool) (st : Nat), s.power = .up → st < 100 → (s.node st).alive = true →
    frameOk f = false →
    (f.dst = st + 1 → Gives (.latigoRead f free) s ((s.inc (pageOf st + 0x18)).emit (.latigo { f with corrupt := true })) ∧
      Gives (.latigoWrite f free) s ((s.inc (pageOf st + 0x18)).emit (.latigo { f with corrupt := true }))) ∧
    Gives (.latigoEmpty st f) s ((s.inc (pageOf st + 0x18)).emit (.latigo { f with corrupt := true }))) ∧
  (∀ (s : State) (f : Frame) (st : Nat), s.power = .up → st < 100 → (s.node st).alive = true → (s.node st).skip = false →
    frameOk f = true → f.corrupt = false →
    (∀ row, f.type = 1 → f.dst = st + 1 → f.index = 0x3000 + st → odRow f.index f.sub = some row →
      ((s.node st).kept.find? fun k => k.1 = f.tag) = none →
      Gives (.latigoRead f true) s ((s.setNode st { s.node st with
        replies := (s.node st).replies ++ [replyFrame f .ok (s.odRead f.index f.sub row)],
        kept := ((f.tag, replyFrame f .ok (s.odRead f.index f.sub row)) :: (s.node st).kept).take 4 }).emit
          (.latigo (sealFrame { f with accepted := true })))) ∧
    (f.type = 2 → f.dst = st + 1 → f.index = 0x3000 + st → (odRow f.index f.sub).isSome = true →
      ((s.node st).kept.find? fun k => k.1 = f.tag) = none →
      Gives (.latigoWrite f true) s ((s.setNode st { s.node st with
        replies := (s.node st).replies ++ [replyFrame f .denied []],
        kept := ((f.tag, replyFrame f .denied []) :: (s.node st).kept).take 4 }).emit
          (.latigo (sealFrame { f with accepted := true })))) ∧
    (∀ r rs, f.type = 0 → (s.node st).replies = r :: rs →
      Gives (.latigoEmpty st f) s ((s.setNode st { s.node st with replies := rs }).emit (.latigo r))) ∧
    (f.type = 7 → f.dst = st + 1 → Gives (.latigoEventAck st f) s
      (s.setNode st { s.node st with events := (s.node st).events.filter fun e => e.seq ≠ f.tag })) ∧
    (f.type = 5 → f.index = 0x2000 → f.sub = 0x10 → s.present st = true → s.lame st = false → st ≠ 80 →
      Gives (.latigoBroadcast st f) s (s.adopt st (leNat (f.payload.take 6)))) ∧
    (f.type = 6 → Gives (.latigoHeartbeat st f) s (s.emit (.latigo (sealFrame { f with
      payload := leBytes 16 (Nat.lor (leNat f.payload) (2 ^ (st + 1))) }))))) ∧
  (∀ (s : State) (f b : Frame), s.power = .up → f.type = 5 → s.gw.bcast = some b →
    (f.corrupt = true ∨ frameOk f = false → Gives (.latigoFrameReturn f) s (s.emit (.latigo b))) ∧
    (f.corrupt = false → frameOk f = true → Gives (.latigoFrameReturn f) s { s with gw := { s.gw with bcast := none } })) ∧
  (∀ (s : State) (f : Frame) (o : LtgReq), s.power = .up →
    (s.gw.out.find? fun o => o.tag = f.tag && o.frame.type = f.type && o.frame.dst = f.dst) = some o → f.type ≠ 5 →
    f.corrupt = false → frameOk f = true →
    (f.nack = false → f.accepted = true → Gives (.latigoFrameReturn f) s { s with gw := { s.gw with
      out := s.gw.out.map fun p => if p.tag = f.tag then { p with accepted := true, since := s.tk 80 } else p } }) ∧
    (f.nack = true → o.sends < 4 → Gives (.latigoFrameReturn f) s (({ s with gw := { s.gw with
      out := s.gw.out.map fun p => if p.tag = o.tag then { p with sends := p.sends + 1, accepted := false, since := s.tk 80 }
        else p } } : State).emit (.latigo o.frame)))) ∧
  (∀ (s : State) (f : Frame) (o : LtgReq), s.power = .up →
    (s.gw.out.find? fun o => o.tag = f.tag && o.frame.dst = f.src) = some o → f.type = 3 → f.corrupt = false →
    frameOk f = true → f.status = 0 →
    Gives (.latigoReply f) s ((s.dropOut f.tag).complete o.rid .ok f.state f.payload).gwPump) ∧
  (∀ (s : State) (tag : Nat) (o : LtgReq), s.power = .up → (s.gw.out.find? fun o => o.tag = tag) = some o →
    250 ≤ s.tk 80 - o.since →
    (4 ≤ o.sends → Gives (.latigoResendTimeout tag) s ((s.dropOut o.tag).complete o.rid .timeout 0 []).gwPump) ∧
    (o.sends < 4 → Gives (.latigoResendTimeout tag) s (({ s with gw := { s.gw with
      out := s.gw.out.map fun p => if p.tag = o.tag then { p with sends := p.sends + 1, accepted := false, since := s.tk 80 }
        else p } } : State).emit (.latigo o.frame)))) ∧
  (∀ (s : State) (f : Frame), s.power = .up → f.type = 4 → f.corrupt = false → frameOk f = true →
    Gives (.latigoEvent f) s (s.emit (.latigo (gwFrame 7 f.src f.tag 0 0 0 []))))

/-- The ring's timers (R95, R99, R101, R102): a node switches to its skip hop once, where the node before it has been dead for 30
ticks or its wire fails, and reports it; events not acknowledged for 100 ticks go again; every 4,000 ticks the gateway sends its
heartbeat with every bit clear; a ring with no frame is broken once. -/
def Obligations.LatigoTimers : Prop :=
  (∀ (s : State) (st : Nat), s.power = .up → st < 100 → (s.node st).alive = true →
    ((s.node st).skip = false → (s.predAlive st || s.timerDue .skipHop (st - 1) st 30) = true → Gives (.skipHopSwitch st) s (s.hopSwitch st true)) ∧
    ((s.node st).skip = true → Gives (.skipHopSwitch st) s s) ∧
    Gives (.eventResendTimer st) s (s.setNode st { s.node st with events := (s.node st).events.map fun e =>
      match e.sent with
      | some t => if 100 ≤ s.tk st - t then { e with sent := none } else e
      | none => e })) ∧
  (∀ s : State, s.power = .up → s.ringBrokenBit = false →
    (s.timerDue .heartbeat 0 80 4000 = true →
      Gives .latigoHeartbeatTimer s ((({ s with gw := { s.gw with hbOut := true } } : State).timerSet .heartbeat 0 80).emit
        (.latigo (gwFrame 6 0x7F 0 0 0 0 (leBytes 16 0))))) ∧
    Gives .ringBroken s s.breakRing) ∧
  (∀ s : State, s.power = .up → s.ringBrokenBit = true → Gives .ringBroken s s)

/-- The management endpoint (R88, R89): the first ENTDAA gives its address and a later one changes nothing; with an address it asks
by an in-band interrupt to be read and answers MCTP control requests, and Set Endpoint ID takes every value but 0 and 0xFF. The
codes and layouts are the model's own reading of MCTP (log entry 17). -/
def Obligations.ManagementEndpoint : Prop :=
  (∀ (s : State) (a : Nat), s.power = .up →
    (s.mgmt.addr = 0 → Gives (.entdaa a) s { s with mgmt := { s.mgmt with addr := a } }) ∧
    (s.mgmt.addr ≠ 0 → Gives (.entdaa a) s s)) ∧
  (∀ s : State, s.power = .up → s.mgmt.addr ≠ 0 →
    (∀ e, 1 ≤ e → e < 255 → Gives (.setEndpointId e) s (({ s with mgmt := { s.mgmt with eid := e } } : State).mgmtSay
      (leBytes 1 0 ++ leBytes 1 1 ++ leBytes 1 0 ++ leBytes 1 e))) ∧
    (∀ e, e = 0 ∨ 255 ≤ e →
      Gives (.setEndpointId e) s (s.mgmtSay (leBytes 1 0 ++ leBytes 1 1 ++ leBytes 1 2 ++ []))) ∧
    Gives .getEndpointId s (s.mgmtSay (leBytes 1 0 ++ leBytes 1 2 ++ leBytes 1 0 ++ leBytes 1 s.mgmt.eid)) ∧
    Gives (.getMctpVersionSupport 0xFF) s (s.mgmtSay (leBytes 1 0 ++ leBytes 1 4 ++ leBytes 1 0 ++ leBytes 1 1)) ∧
    Gives .getMessageTypeSupport s (s.mgmtSay (leBytes 1 0 ++ leBytes 1 5 ++ leBytes 1 0 ++
      (leBytes 1 2 ++ leBytes 1 5 ++ leBytes 1 0x7F))) ∧
    Gives (.getVendorDefinedMsgSupport 0) s (s.mgmtSay (leBytes 1 0 ++ leBytes 1 6 ++ leBytes 1 0 ++
      (leBytes 1 0xFF ++ leBytes 1 1 ++ leBytes 4 s.fuses.enterprise))))

/-! ### Queues -/

/-- How a descriptor starts (R145, R146, R150): only from a checked program at NEXT of a queue that runs, with fewer than DEPTH in
flight, after no WAIT or BRANCH, alone where it is ORDERED, a SIGNAL or a BRANCH, and with a completion slot where it needs one;
NEXT then moves on by one and the descriptor is in flight. -/
def Obligations.DescriptorsStartInOrder : Prop :=
  ∀ (s t : State) (q : Nat) (d : Desc) (ri : W32), s.start q d = some (ri, t) →
    ri = (s.que q).next ∧ (s.que q).checked = true ∧ s.queRuns q = true ∧ (s.que q).fly.length < (s.que q).depth ∧
    s.queBlocked q = false ∧ (dFlag d 2 = true ∨ dOp d = 0x41 ∨ dOp d = 0x42 → (s.que q).fly = []) ∧
    (needsSlot d = true → 0 < (s.que q).cqFree) ∧ (t.que q).next = ri + 1 ∧ (t.que q).fly = (s.que q).fly ++ [ri] ∧
    (∀ p, p ≠ q → t.que p = s.que p) ∧ t.dev = s.dev ∧ t.own = s.own ∧ t.cs = s.cs ∧ t.acc = s.acc ∧ t.dma = s.dma

/-- How a descriptor completes (R146, R147, R148): it leaves flight and is counted; a record is appended exactly when it asked for
one or halts its queue; WAIT halts on every failure, another descriptor where HALT_ON_ERROR is 1. -/
def Obligations.DescriptorsComplete : Prop :=
  ∀ (s : State) (q : Nat) (ri : W32) (d : Desc) (w : Done),
    ((s.descDone q ri d w).que q).fly = (s.que q).fly.erase ri ∧
    ((s.descDone q ri d w).que q).done = satAdd 64 (s.que q).done 1 ∧
    ((s.descDone q ri d w).que q).cqTail =
      if dFlag d 0 || (w.status ≠ 0 && (dFlag d 3 || dOp d = 0x40 || w.halt)) then (s.que q).cqTail + 1 else (s.que q).cqTail

/-- Fence words (R120, R121): a signal never lowers the value, never clears the abandoned bit, and moves the word exactly when its
value is larger and the fence is not abandoned; a refused one leaves it; a wait is satisfied exactly when the value has come,
whether or not the fence is abandoned, and ends with ABORTED exactly when it has not and the fence is. -/
def Obligations.FenceRules : Prop :=
  (∀ w v : Nat, w < 2 ^ 64 → v < 2 ^ 64 →
    w ≤ (fenceSignal w v).1 ∧ ((fenceSignal w v).1 ≠ w ↔ v < 2 ^ 63 ∧ w < v) ∧ ((fenceSignal w v).1 ≠ w → (fenceSignal w v).1 = v) ∧
    ((fenceSignal w v).2 = 2 ↔ 2 ^ 63 ≤ v) ∧ ((fenceSignal w v).2 = 1 ↔ v < 2 ^ 63 ∧ (2 ^ 63 ≤ w ∨ v < w % 2 ^ 63))) ∧
  (∀ w x : Nat, w < 2 ^ 64 → x < 2 ^ 63 →
    (waitEval w x = 0 ↔ x ≤ w % 2 ^ 63) ∧ (waitEval w x = 8 ↔ w % 2 ^ 63 < x ∧ 2 ^ 63 ≤ w) ∧
    (waitEval w x = 255 ↔ w % 2 ^ 63 < x ∧ w < 2 ^ 63)) ∧
  (∀ w v x : Nat, w < 2 ^ 64 → v < 2 ^ 64 → waitEval w x = 0 → waitEval (fenceSignal w v).1 x = 0)

/-- Doorbells (R76, R141, R142, R143): one of the operator's to a mapped queue is forwarded to the pommel of its skirt, and one to
an unmapped queue is dropped and counted; a forwarded one is judged where it arrives, in the order sent to that pommel; the
invalidation of a watched tail line asks for its re-read, which rings the queue. -/
def Obligations.Doorbells : Prop :=
  (∀ (s : State) (pm q : Nat) (tail head : Option W32), s.power = .up → s.pmServes pm = true → q < 65536 →
    (sGet 0 s.qs.maps (pm * 65536 + q) ≠ 0 → GivesSettled (.doorbell 0 pm q tail head) s { s with qs := { s.qs with
      fwd := s.qs.fwd ++ [{ pm := s.server (sGet 0 s.qs.maps (pm * 65536 + q) - 1), queue := q, tail := tail, head := head }] } }) ∧
    (sGet 0 s.qs.maps (pm * 65536 + q) = 0 → GivesSettled (.doorbell 0 pm q tail head) s (s.inc (pmReg pm 0x410)))) ∧
  (∀ (s : State) (m : DbMsg) (rest : List DbMsg), s.power = .up → s.qs.fwd = m :: rest →
    ((s.que m.queue).state ≠ 0 → GivesSettled (.doorbellForward m.pm) s
      (({ s with qs := { s.qs with fwd := rest } } : State).bell m.queue m.tail m.head)) ∧
    ((s.que m.queue).state = 0 → GivesSettled (.doorbellForward m.pm) s
      (({ s with qs := { s.qs with fwd := rest } } : State).inc (pmReg m.pm 0x410)))) ∧
  (∀ (s : State) (q : Nat), s.power = .up → q ∈ s.cw.rung → GivesSettled (.snoopDoorbell q) s { s with cw := { s.cw with
    rung := s.cw.rung.filter (fun x => x % 2 ^ 20 ≠ q) ++ [q + 2 ^ 20], lines := s.cw.lines.filter fun l => l.use ≠ .tail q } }) ∧
  (∀ (s : State) (q : Nat) (tail head : W32), s.power = .up → q + 2 ^ 20 ∈ s.cw.rung → q ∈ s.qs.watch →
    GivesSettled (.tailLineReread q tail head) s
      ((({ s with cw := { s.cw with rung := s.cw.rung.filter (· ≠ q + 2 ^ 20) } } : State).cwHold
        { pm := s.server (s.que q).skirt, line := (s.que q).tailLine, use := .tail q }).bell q (some tail) (some head)))

/-- Records and programs (R108, R138, R140, R150, R174): the record of a queue that exists and that of a context in the table are
loaded, and where a guard refuses the context's, the accesses that wait for it end with its status; a program as the ring holds
it that lies whole below TAIL_SEEN and passes every check may run, and one that fails runs nothing: its first failing descriptor
completes with INVALID, or with the status of a fetch that fails, and halts the queue. Queue 0 (R136): the accepted write of 1
to Q0_ENABLE builds it afresh, loads it and starts it where its rings are aligned and its frame is its own; the accepted write
of 0 sets a pending WAIT back and drains a queue that runs, which is STOPPED once it has nothing in flight, and answers at once
where it does not run. -/
def Obligations.RecordsProgramsAndQueueZero : Prop :=
  (∀ (s : State) (q : Nat), s.power = .up → (s.que q).state ≠ 0 → GivesSettled (.queueRecordLoad q) s (s.loadQue q)) ∧
  (∀ (s t : State) (c : Nat) (g : Option Nat), s.power = .up → s.ctxInTable c = true → s.loadCtx c = (g, t) →
    (g = none ∨ g = some 0 → GivesSettled (.ctxRecordLoad c) s t) ∧
    (∀ st, g = some st → st ≠ 0 → GivesSettled (.ctxRecordLoad c) s
      ((t.acc.list.filter fun a => a.ph = .ctxWait && a.ctx = c && !t.ctxResident c).foldl (fun t a => t.endAcc a.id st) t))) ∧
  (∀ (s : State) (q : Nat) (ds : List Desc), s.power = .up → s.queRuns q = true → (s.que q).checked = false →
    isProgram ds = true → ds.length ≤ wdiff (s.que q).tailSeen (s.que q).progStart →
    wdiff (s.que q).tailSeen (s.que q).progStart < 2 ^ 31 → s.fetched q ds = true →
    (s.fetchBad q ds.length = none → progFail (s.que q).priv ds = none →
      GivesSettled (.programCheck q ds) s ((s.fetchHold q ds.length).setQue q { s.que q with checked := true, prog := ds })) ∧
    (∀ p d, s.fetchBad q ds.length = some p → s.fetchEnd q (s.progIdx q p) ≠ 1 → ds[p]? = some d → (s.que q).cqFree ≠ 0 →
      let u := (s.rangeErr q (s.ringAt q (s.progIdx q p)) 128).setQue q { s.que q with
        checked := true, prog := ds, reserved := (s.que q).reserved + b2n (needsSlot d) }
      GivesSettled (.programCheck q ds) s (u.descDone q (s.progIdx q p) d
        { status := s.fetchEnd q (s.progIdx q p), station := u.queStation q, halt := true })) ∧
    (∀ p d, s.fetchBad q ds.length = none → progFail (s.que q).priv ds = some p → ds[p]? = some d → (s.que q).cqFree ≠ 0 →
      let r : QueueRec := { s.que q with
        checked := true, prog := ds, reserved := (s.que q).reserved + b2n (needsSlot d) }
      GivesSettled (.programCheck q ds) s ((s.setQue q r).descDone q ((s.que q).progStart + BitVec.ofNat 32 p) d
        { status := 1, station := (s.setQue q r).queStation q, halt := true }))) ∧
  (∀ (s t : State) (rid : Nat), s.power = .up →
    (s.ownReq .own fun i b op => i = 0x2000 && b = 0x36 && op = 1) = some rid → leNat (s.reqr rid).data = 1 →
    s.q0Runs = false → s.q0New.ringBase % (2 ^ s.q0New.ringLog2 * 128) = 0 → s.q0New.cqBase % (2 ^ s.q0New.cqLog2 * 32) = 0 →
    s.q0New.ringBase % 4096 = 0 → s.q0New.cqBase % 4096 = 0 →
    s.guardCheck (s.queFrame 0) queTableWord { ctx := none, station := s.queStation 0 } = (0, t) →
    let u := (((t.unwatch 0).setQue 0 s.q0New).mapQue 0 0).loadQue 0
    let b := u.host.read s.q0New.tailLine 8
    GivesSettled .q0EnableBuild s
      ((u.queGo 0 (BitVec.ofNat 32 (fieldAt b 0 4)) (BitVec.ofNat 32 (fieldAt b 4 4))).q0Reply .ok 1)) ∧
  (∀ (s : State) (rid : Nat), s.power = .up →
    (s.ownReq .own fun i b op => i = 0x2000 && b = 0x36 && op = 1) = some rid → leNat (s.reqr rid).data = 0 →
    s.qs.q0Draining = false → s.q0Runs = false → GivesSettled .q0Disable s ((s.unwatch 0).q0Reply .ok 0)) ∧
  (∀ (s : State) (rid : Nat), s.power = .up →
    (s.ownReq .own fun i b op => i = 0x2000 && b = 0x36 && op = 1) = some rid → leNat (s.reqr rid).data = 0 →
    s.qs.q0Draining = false → s.q0Runs = true →
    let u := (s.waitBack 0).setQue 0 { (s.waitBack 0).que 0 with stopQ0 := true }
    GivesSettled .q0Disable s (({ u with qs := { u.qs with q0Draining := true } } : State).queStopped 0)) ∧
  (∀ s : State, (s.que 0).stopQ0 = true → (s.que 0).fly = [] → s.q0Runs = true → s.stopJobs 0 = [] →
    ((s.queStopped 0).que 0).state = 1 ∧ (s.queStopped 0).qs.q0Draining = false ∧ 0 ∉ (s.queStopped 0).qs.watch)

/-- Queue commands (R136, R137, R156): QUEUE_CREATE of a FREE privileged queue builds its record with the next generation;
QUEUE_START runs a STOPPED or HALTED one; QUEUE_STOP waits for its descriptors; a queue with none in flight stops; QUEUE_DESTROY
makes it DEAD. -/
def Obligations.QueueCommands : Prop :=
  (∀ (s t t1 t2 : State) (q : Nat) (d : Desc) (ri : W32) (g : RefGot), s.power = .up → dOp d = 0xD0 → Starts s q d ri t →
    t.queShape d = true → (df d 70 1).testBit 0 = true → (t.que (df d 16 4)).state = 0 →
    t.guardCheck (t.queFrame (df d 16 4)) queTableWord { ctx := none, station := t.queStation q } = (0, t1) →
    t1.refTake none (df d 68 1) (df d 56 8) = (g, t2) → g.status = 0 →
    (((t2.setQue (df d 16 4) (t2.queNew d (nextGen (t.que (df d 16 4)).gen))).mapQue (df d 16 4) (df d 68 1)).skirtResident
      (df d 68 1)).length < 4096 →
    GivesSettled (.queueCreate q d) s ((((t2.setQue (df d 16 4) (t2.queNew d (nextGen (t.que (df d 16 4)).gen))).mapQue
      (df d 16 4) (df d 68 1)).loadQue (df d 16 4)).cmdDone q ri d 0 0 (nextGen (t.que (df d 16 4)).gen))) ∧
  (∀ (s t : State) (q : Nat) (d : Desc) (ri tail head : W32), s.power = .up → dOp d = 0xD1 → Starts s q d ri t →
    t.queRefuse (!resOk d [(16, 4), (20, 4)]) (df d 16 4) (df d 20 4) [1, 4] = none →
    GivesSettled (.queueStart q d tail head) s ((t.queGo (df d 16 4) tail head).cmdDone q ri d 0 0
      (b2n ((t.queGo (df d 16 4) tail head).que (df d 16 4)).snoopActive))) ∧
  (∀ (s t : State) (q : Nat) (d : Desc) (ri : W32), s.power = .up → dOp d = 0xD2 → Starts s q d ri t →
    t.queRefuse (!resOk d [(16, 4), (20, 4)]) (df d 16 4) (df d 20 4) [2, 3] = none →
    let u := (t.setJob { queue := q, ri := ri, desc := d, phase := 3, aux := df d 16 4, since := t.tk (t.queStation q) }).waitBack (df d 16 4)
    GivesSettled (.queueStop q d) s (u.setQue (df d 16 4) { u.que (df d 16 4) with stopping := some (q, ri) })) ∧
  (∀ (s : State) (n q : Nat) (ri : W32), s.power = .up → (s.que n).stopping = some (q, ri) → (s.que n).fly = [] →
    (s.que n).stopQ0 = false → (s.que n).state = 2 → (s.que n).pause = 0 →
    GivesSettled (.queueStopped n) s ((s.stopJobs n).foldl (fun t j => t.jobDone j 0 0 0)
      ((s.setQue n { s.que n with state := 1, stopping := none, stopQ0 := false, pause := 0 }).unwatch n))) ∧
  (∀ (s t : State) (q : Nat) (d : Desc) (ri : W32), s.power = .up → dOp d = 0xD3 → Starts s q d ri t →
    t.queRefuse (!resOk d [(16, 4), (20, 4)]) (df d 16 4) (df d 20 4) [1, 4] = none →
    GivesSettled (.queueDestroy q d) s ((t.queDead (df d 16 4)).cmdDone q ri d 0))

/-- Control descriptors (R149, R151, R152, R153, R155): a WAIT and a SIGNAL of a context queue issue one 8-byte access to their
fence, and those of a privileged one act on a fence in host memory at once; a BRANCH issues one read of its word, a STAMP its
first page; a LOOP goes back with its register raised while passes are left, and else clears it and goes on; a pending WAIT
looks at its fence when it changes, every 64 ticks where it polls, and once more when its time is over. -/
def Obligations.ControlDescriptors : Prop :=
  (∀ (s t : State) (q : Nat) (d : Desc) (ri : W32), s.power = .up → Starts s q d ri t → (t.que q).priv = false →
    let j : CtlJob := { queue := q, ri := ri, desc := d, since := t.tk (t.queStation q) }
    let va := vaAdd (df d 16 8) (termAt d (t.loopReg q d))
    (dOp d = 0x40 → GivesSettled (.wait q d) s (t.jobIssue j (t.que q).ctx va 8 false .read8)) ∧
    (dOp d = 0x41 → GivesSettled (.signal q d) s (t.jobIssue { j with aux := fenceVal d (t.loopReg q d) } (t.que q).ctx va 8 true
      (.signal (fenceVal d (t.loopReg q d))))) ∧
    (dOp d = 0x42 → GivesSettled (.branch q d) s (t.jobIssue j (t.que q).ctx va 8 false .read8)) ∧
    (dOp d = 0x45 → GivesSettled (.stamp q d) s (t.stampStart q ri d))) ∧
  (∀ (s t : State) (q : Nat) (d : Desc) (ri : W32), s.power = .up → Starts s q d ri t → (t.que q).priv = true →
    let j : CtlJob := { queue := q, ri := ri, desc := d, since := t.tk (t.queStation q) }
    let va := vaAdd (df d 16 8) (termAt d (t.loopReg q d))
    (dOp d = 0x40 → GivesSettled (.wait q d) s (((t.setJob j).rangeErr q va 8).waitLook j 1 va false)) ∧
    (dOp d = 0x41 → GivesSettled (.signal q d) s
      (let k : CtlJob := { j with aux := fenceVal d (t.loopReg q d) }
       ((t.setJob k).rangeErr q va 8).signalAt k 1 va va 0))) ∧
  (∀ (s t : State) (q : Nat) (d : Desc) (ri : W32) (l : Nat), s.power = .up → dOp d = 0x43 → Starts s q d ri t →
    ((t.que q).loops[df d 18 1 % 4]?).getD 0 = l →
    (l + 1 < df d 20 4 →
      let u := t.setQue q { t.que q with
        loops := (t.que q).loops.set (df d 18 1 % 4) (l + 1), next := ri + BitVec.ofNat 32 (df d 16 2) - 0x10000#32 }
      GivesSettled (.loop q d) s (u.descDone q ri d { status := 0, station := u.queStation q, result := l + 1 })) ∧
    (df d 20 4 ≤ l + 1 →
      let u := t.setQue q { t.que q with loops := (t.que q).loops.set (df d 18 1 % 4) 0, next := ri + 1 }
      GivesSettled (.loop q d) s (u.descDone q ri d { status := 0, station := u.queStation q, result := 0 }))) ∧
  (∀ (s : State) (q : Nat) (j : CtlJob), s.power = .up →
    ((s.waitJob q fun j => s.cw.woken.contains (q, j.ri)) = some j →
      (s.loadQue q).qs.resident.contains q = true →
      GivesSettled (.waitWake q) s ((s.loadQue q).waitLook j (j.aux2 % 4) j.aux false)) ∧
    ((s.waitJob q fun j => !j.entry && s.timerDue .poll q (s.queStation q) 64) = some j →
      GivesSettled (.waitPoll q) s ((s.timerSet .poll q (s.queStation q)).waitLook j (j.aux2 % 4) j.aux false)) ∧
    ((s.waitJob q fun j => df j.desc 40 4 ≠ 0 && df j.desc 40 4 ≤ s.tk (s.queStation q) - j.since) = some j →
      GivesSettled (.waitTimeout q) s (s.waitLook j (j.aux2 % 4) j.aux true)))

/-! ### Frames at boot, retraining, rails -/

/-- BOOT_FRAME_SET (R481): a run of free frames takes the given owner word; with a frame lost, or one not free, nothing is written.
RETRAIN (R488, R489) of a host port, of a cantle port and of a stack: the port is taken out of service and measured; once the
dwell of R482 has passed it is judged and retrained, and the command completes with OK; it completes with LAME where the port's
station is out of service (log entry 20); an enabled stack's guards take no new request, and its training starts. Rails and
temperature (R55, R493): a sensor at 115 °C counts a thermal trip, up to 256, unless the rail fell first; RAIL_OVER is set while
a monitor reads above its bound and clears with the last of them, and halves the effective PACE. -/
def Obligations.FramesRetrainingAndRails : Prop :=
  (∀ s : State, s.power = .up → s.cmdRunning 7 →
    (s.runOut (s.cmdArg 7 0 8) (s.cmdArg 7 8 4) = false → s.runFree (s.cmdArg 7 0 8) (s.cmdArg 7 8 4) = true →
      let own := ownRun s.own (s.cmdArg 7 0 8) (s.cmdArg 7 8 4) (BitVec.ofNat 32 (s.cmdArg 7 12 4))
      Gives .bootFrameSet s (({ s with own := own } : State).cmdEnd 7 0 0)) ∧
    (s.runOut (s.cmdArg 7 0 8) (s.cmdArg 7 8 4) = true → Gives .bootFrameSet s (s.cmdEnd 7 11 0)) ∧
    (s.runOut (s.cmdArg 7 0 8) (s.cmdArg 7 8 4) = false → s.runFree (s.cmdArg 7 0 8) (s.cmdArg 7 8 4) = false →
      Gives .bootFrameSet s (s.cmdEnd 7 2 0x27))) ∧
  (∀ (s : State) (k : Nat) (m : PortMeas), s.power = .up → s.cmdRunning 8 →
    (s.retrainArg = (1, k) → k < 4 →
      (s.retrainGone 1 k = true → GivesSettled (.retrainHostPort m) s (s.measureEnd.cmdEnd 8 11 0)) ∧
      (s.retrainGone 1 k = false → s.bu.girthRun = false → s.bu.dwell = none → s.fld (pmReg k 0x3080) 0 2 ≠ 3 →
        GivesSettled (.retrainHostPort m) s (s.hostOut k)) ∧
      (s.retrainGone 1 k = false → s.measuring k = true → s.timerDue .dwell k (80 + k) (s.odNum 0x2000 0x92) = true →
        GivesSettled (.retrainHostPort m) s ((s.measureEnd.hostRetrain k m).cmdEnd 8 0 0))) ∧
    (s.retrainArg = (2, k) → k < 16 →
      (s.retrainGone 2 k = true → GivesSettled (.retrainCantlePort m) s (s.measureEnd.cmdEnd 8 11 0)) ∧
      (s.retrainGone 2 k = false → s.bu.girthRun = false → s.bu.dwell = none →
        GivesSettled (.retrainCantlePort m) s (s.cantleOut k)) ∧
      (s.retrainGone 2 k = false → s.measuring (4 + k) = true →
        s.timerDue .dwell (4 + k) (84 + k) (s.odNum 0x2000 0x93) = true →
        GivesSettled (.retrainCantlePort m) s ((s.measureEnd.cantleRetrain k m).cmdEnd 8 0 0)))) ∧
  (∀ (s : State) (k : Nat), s.power = .up → s.cmdRunning 8 → s.retrainArg = (3, k) → k < 8 → s.rcv.stackBusy = none →
    s.retrainGone 3 k = false →
    let t := (List.range 16).foldl (fun s i => s.setBit (grdReg (16 * k + i) 4) 1 true) s
    Gives .retrainStack s { t with rcv := { t.rcv with stackBusy := some k }, out := .start 1 k :: t.out }) ∧
  (∀ (s : State) (st : Nat) (temp : Int), s.power = .up → st < 100 → s.fuses.stations.testBit st = true → 115 ≤ temp →
    Gives (.thermalTrip st temp true) s { s with
      fuses := { s.fuses with thermalTrips := min (s.fuses.thermalTrips + 1) 256 }, out := .start 2 st :: s.out } ∧
    Gives (.thermalTrip st temp false) s { s with out := .start 2 st :: s.out }) ∧
  (∀ (s : State) (st mv : Nat), s.power = .up → st < 100 → s.fuses.railMax + 10 ≤ mv → st ∉ s.rcv.railOver →
    let t := s.odSet 0x2000 0x73 1
    Gives (.railOverDetect st mv) s { t with rcv := { t.rcv with railOver := st :: t.rcv.railOver } } ∧
    ({ t with rcv := { t.rcv with railOver := st :: t.rcv.railOver } } : State).pace =
      min t.fuses.paceFuse (t.odNum 0x2000 0x71) / 2) ∧
  (∀ (s : State) (st mv : Nat), s.power = .up → mv ≤ s.fuses.railMax → (∀ n ∈ s.rcv.railOver, n = st) →
    let t : State := { s with rcv := { s.rcv with railOver := [] } }
    Gives (.railOverEnd st mv) s (t.odSet 0x2000 0x73 0) ∧
    (t.odSet 0x2000 0x73 0).pace = min (t.odSet 0x2000 0x73 0).fuses.paceFuse ((t.odSet 0x2000 0x73 0).odNum 0x2000 0x71))

/-! ### DMA channels -/

/-- A data descriptor of each kind starts on a channel that its queue may use (R154, R266, R269, R273, R274, R294, R299, R300), and
a REDUCE on the unit that serves its queue's skirt (R305); with no such unit left it completes with LAME (R435). -/
def Obligations.DataDescriptorsStart : Prop :=
  (∀ (s t : State) (q st ch : Nat) (d : Desc) (ri : W32), s.power = .up → Starts s q d ri t →
    (s.wordsMet (s.queWords q)).chanFor q st ch = true →
    let u := t.chanStart (chanKey st ch) q ri d (termAt d (t.loopReg q d))
    (dOp d = 1 →
      (df d 98 1 = 0 → GivesSettled (.copy q d st ch) s u) ∧ (df d 98 1 = 1 → GivesSettled (.accumSum q d st ch) s u) ∧
      (df d 98 1 = 2 → GivesSettled (.accumMax q d st ch) s u) ∧ (df d 98 1 = 3 → GivesSettled (.accumMin q d st ch) s u) ∧
      (df d 98 1 = 4 → GivesSettled (.cksumAppend q d st ch) s u) ∧
      (df d 98 1 = 5 → GivesSettled (.cksumVerify q d st ch) s u)) ∧
    (dOp d = 2 → GivesSettled (.fill q d st ch) s u) ∧ (dOp d = 3 → GivesSettled (.gatherReduce q d st ch) s u)) ∧
  (∀ (s t : State) (q : Nat) (d : Desc) (ri : W32), s.power = .up → dOp d = 0x44 → Starts s q d ri t →
    (∀ st i, t.reduceStation (t.que q).skirt = some st → i < 8 → t.chan? (chanKey st (16 + q * 8 + i)) = none →
      (∀ j < i, t.chan? (chanKey st (16 + q * 8 + j)) ≠ none) →
      GivesSettled (.reduce q d) s (t.chanStart (chanKey st (16 + q * 8 + i)) q ri d (termAt d (t.loopReg q d)))) ∧
    (t.reduceStation (t.que q).skirt = none →
      GivesSettled (.reduce q d) s (t.descDone q ri d { status := 11, station := t.queStation q })))

/-- What a channel under way gets (R267, R275, R281, R305, R323, R432): a verify buffer for the one that waited longest, the end of
an access at the host or at a guard, an arrival under a retired tag, the end of a read-back, and the stall of its read-backs for
the unit timeout, which ends the oldest with TIMEOUT. DMA_CTRL and DMA_STATUS (R64, R279, R283): ENABLE = 1 enables at once;
ENABLE = 0 starts quiescence, which ends, and ENABLED with it, when no channel of the station holds a descriptor. -/
def Obligations.ChannelsProgressAndQuiesce : Prop :=
  (∀ (s : State) (st ch : Nat) (c : Chan), s.power = .up → s.chan? (chanKey st ch) = some c →
    (s.dma.vwait.find? fun k => (chanOf k).1 = st) = some (chanKey st ch) →
    (s.dma.chans.filter fun e => (chanOf e.1).1 = st && e.2.vbuf).length < 4 →
    GivesSettled (.vbufSlotGranted st ch) s
      ((({ s with dma := { s.dma with vwait := s.dma.vwait.filter (· ≠ chanKey st ch) } } : State).unitBegin (chanKey st ch)
        { c with vbuf := true, stage := 1 }).chanIssue (chanKey st ch))) ∧
  (∀ (s t : State) (n st ch : Nat) (a : Access) (r : Ack) (g : Got), s.power = .up → s.acc? n = some a → a.src = .chan st ch →
    let w := s.wordsMet (s.dmaWords st ch a)
    (a.ph = .ready → a.retired = false → a.kind = 1 → w.hostAccess a r = (g, t) →
      GivesSettled (.dmaAccessDone n r) s (t.chanGot a g (r = .residue))) ∧
    (a.ph = .ready → a.retired = false → a.kind = 2 → w.firstOnPath a = true →
      (r = .timeout → GivesSettled (.dmaAccessDone n r) s (w.chanGot a { status := 9 } false)) ∧
      (r = .lost → GivesSettled (.dmaAccessDone n r) s (w.chanGot a { status := 11 } false))) ∧
    (a.ph = .done → a.retired = false → GivesSettled (.dmaAccessDone n r) s
      (w.chanGot a { status := a.status, data := a.data, pz := a.pz } (r = .residue))) ∧
    (a.ph = .ready → a.retired = true → a.kind ≠ 2 → GivesSettled (.dmaAccessDone n r) s (w.absorb a))) ∧
  (∀ (s t : State) (st ch path e : Nat) (c : Chan) (p : WPath) (r : Ack), s.power = .up → s.chan? (chanKey st ch) = some c →
    c.paths[path]? = some p → c.stage = 3 → p.back = false → s.backStatus st c p r = (some e, t) →
    GivesSettled (.dmaReadbackDone st ch path r) s (t.pathBack (chanKey st ch) c path e)) ∧
  (∀ (s : State) (st ch : Nat) (c : Chan) (p : WPath) (i : Nat), s.power = .up → s.chan? (chanKey st ch) = some c → c.stage = 3 →
    (c.paths.zipIdx).find? (fun e => !e.1.back) = some (p, i) → s.timerDue .stall (chanKey st ch) st handshakeTicks = true →
    GivesSettled (.handshakeTimeout st ch) s
      ((s.errQueue c.queue 6 0x0601 st 9 0 (3 + 256 * ch)).pathBack (chanKey st ch) c i 9)) ∧
  (∀ (s : State) (st : Nat), s.power = .up →
    (s.live st = true →
      GivesSettled (.dmaEnable st) s
        (((s.setBit (pageOf st + 0x2000) 0 true).setBit (pageOf st + 0x2004) 0 true).setBit (pageOf st + 0x2004) 1 false) ∧
      ((s.setBit (pageOf st + 0x2000) 0 false).bit (pageOf st + 0x2004) 0 = true →
        GivesSettled (.dmaDisable st) s ((s.setBit (pageOf st + 0x2000) 0 false).setBit (pageOf st + 0x2004) 1 true))) ∧
    (s.bit (pageOf st + 0x2004) 1 = true → (∀ e ∈ s.dma.chans, (chanOf e.1).1 = st → 16 ≤ (chanOf e.1).2) →
      GivesSettled (.dmaQuiesced st) s ((s.setBit (pageOf st + 0x2004) 0 false).setBit (pageOf st + 0x2004) 1 false)))

/-! ### Frames and page tables -/

/-- FRAME_SET (R114): a well-formed command on frames whose guards are in service begins with its first batch of frames; in each
batch (of 60 frames a tick, the model's choice, log entry 85) frames that are all free take the owner word, and with the last of
them the command completes with OK and their number. FRAME_RECLAIM (R116): frames that all carry the word named turn to ID 3 of
kind 3 of their partition; when their guards hold nothing admitted they are scrubbed; then, their guards in service, they are
free and their bytes zero, and the command completes with their number. PTE_WRITE (R118): the context's record is brought in
(R108); entries for a page of the context's tables, its generation given, are read from host memory and written there. -/
def Obligations.FramesAndTableEntries : Prop :=
  (∀ (s t : State) (q : Nat) (d : Desc) (ri : W32), s.power = .up → dOp d = 0xC0 → Starts s q d ri t →
    resOk d [(16, 8), (24, 4), (28, 4)] = true → df d 24 4 ≠ 0 → df d 24 4 ≤ 262144 → ownerOk (df d 28 4) = true →
    df d 16 8 + df d 24 4 ≤ t.devBytes / 4096 → t.runOut (df d 16 8) (df d 24 4) = false →
    let j : CtlJob := { queue := q, ri := ri, desc := d, phase := 3, since := t.tk (t.queStation q) }
    GivesSettled (.frameSet q d) s ((t.setJob j).frameSetGo j)) ∧
  (∀ (s : State) (j : CtlJob) (f m n : Nat), f = df j.desc 16 8 + j.aux → n = df j.desc 24 4 → m = min 60 (n - j.aux) → j.aux < n →
    f + m ≤ s.usable → (∀ e ∈ s.own, e.1 < f ∨ f + m ≤ e.1) → (∀ i < m, s.guardUp (s.guardOf (f + i)) = true) →
    let bad := s.acc.owBad.filter fun x => !(f ≤ x && x < f + m)
    let u : State := { s with own := ownRun s.own f m (BitVec.ofNat 32 (df j.desc 28 4)), acc := { s.acc with owBad := bad } }
    s.frameSetGo j = if j.aux + m = n then u.jobDone j 0 0 n else u.setJob { j with aux := j.aux + m }) ∧
  (∀ (s t : State) (q : Nat) (d : Desc) (ri : W32), s.power = .up → dOp d = 0xC1 → Starts s q d ri t →
    resOk d [(16, 8), (24, 4), (32, 4)] = true → df d 24 4 ≠ 0 → df d 24 4 ≤ 262144 →
    df d 16 8 + df d 24 4 ≤ t.devBytes / 4096 → t.runOut (df d 16 8) (df d 24 4) = false → df d 16 8 + df d 24 4 ≤ t.usable →
    (∀ i < df d 24 4, t.ownerOf (df d 16 8 + i) = BitVec.ofNat 32 (df d 32 4)) →
    let own := ownRun t.own (df d 16 8) (df d 24 4) (ownerWord (df d 32 4 % 2 ^ 32 / 2 ^ 26) 3 3)
    let bad := t.acc.owBad.filter fun x => !(df d 16 8 ≤ x && x < df d 16 8 + df d 24 4)
    let job : CtlJob := { queue := q, ri := ri, desc := d, phase := 3, aux := 1, since := t.tk (t.queStation q) }
    GivesSettled (.frameReclaim q d) s (({ t with own := own, acc := { t.acc with owBad := bad } } : State).setJob job)) ∧
  (∀ (s : State) (q : Nat) (ri : W32) (j : CtlJob), s.power = .up → s.job? q ri = some j → dOp j.desc = 0xC1 → j.aux = 1 →
    s.admitted (df j.desc 16 8) (df j.desc 24 4) = false →
    GivesSettled (.reclaimDrainDone q ri) s (s.setJob { j with aux := 2 })) ∧
  (∀ (s : State) (q : Nat) (ri : W32) (j : CtlJob), s.power = .up → s.job? q ri = some j → dOp j.desc = 0xC1 → j.aux = 2 →
    (∀ i < df j.desc 24 4, s.guardUp (s.guardOf (df j.desc 16 8 + i)) = true ∧
      s.ownerOf (df j.desc 16 8 + i) = ownerWord (df j.desc 32 4 / 2 ^ 26) 3 3 ∧ df j.desc 16 8 + i ∉ s.acc.owBad) →
    ∃ t : State, GivesSettled (.reclaimScrubDone q ri) s (t.jobDone j 0 0 (df j.desc 24 4)) ∧
      (∀ e, e ∈ t.own ↔ e ∈ s.own ∧ ¬ (df j.desc 16 8 ≤ e.1 ∧ e.1 < df j.desc 16 8 + df j.desc 24 4)) ∧
      (∀ a, sGet 0 t.dev.bytes a =
        if df j.desc 16 8 ≤ a / 4096 ∧ a / 4096 < df j.desc 16 8 + df j.desc 24 4 then 0 else sGet 0 s.dev.bytes a) ∧
      t = { s with own := t.own, dev := t.dev }) ∧
  (∀ (s t t0 t1 t2 : State) (q : Nat) (d : Desc) (ri : W32) (b : Bytes), s.power = .up → dOp d = 0xC2 → Starts s q d ri t →
    resOk d [(16, 8), (24, 2), (28, 4), (32, 4), (40, 8)] = true → df d 24 2 ≠ 0 → df d 24 2 ≤ 512 → df d 16 8 % 8 = 0 →
    df d 16 8 % 4096 + 8 * df d 24 2 ≤ 4096 → t.ctxInTable (df d 28 4) = true →
    t.loadCtx (df d 28 4) = (some 0, t0) →
    t0.ownerOf (df d 16 8 / 4096) = t.expectTables (df d 28 4) → df d 16 8 / 4096 < t0.usable →
    df d 32 4 = (t.ctx (df d 28 4)).gen → (t.ctx (df d 28 4)).state ≠ 0 →
    t0.cmdRead q (df d 40 8) (8 * df d 24 2) = (0, b, t1) →
    t1.devWrite (df d 16 8) b (List.replicate (8 * df d 24 2) false) (t.expectTables (df d 28 4))
      { ctx := some (df d 28 4), station := t1.queStation q } = (0, t2) →
    GivesSettled (.pteWrite q d .ok) s (t2.cmdDone q ri d 0 0 (df d 24 2)))

/-! ### Contexts -/

/-- CTX_CREATE (R107, R108, R110, R119, R197): a FREE record whose image and map keep the rules, of a configured partition that is
enabled, is brought in and takes the image, its guards admitting the writes of the record, the map and the ledger; it gets a
reference on its header, becomes LIVE with the next generation, and the command returns that generation. CTX_REGIONS and
CTX_SHARE (R108, R119), the context's record brought in: a LIVE, FAULT_STALLED or RESTED context of the generation given gets a
new region map, or a new share group in a slot; where translations may have come from what it replaces they go first. -/
def Obligations.ContextsAreMadeAndEdited : Prop :=
  (∀ (s t t1 t2 t3 t4 t5 t6 t7 : State) (q c p : Nat) (d : Desc) (ri : W32) (b m : Bytes) (g : RefGot), s.power = .up → dOp d = 0xC3 →
    Starts s q d ri t → c = df d 16 4 → resOk d [(16, 4), (24, 8), (32, 8)] = true → t.ctxInTable c = true →
    t.cmdRead q (df d 24 8) 256 = (0, b, t1) → p = fieldAt b 2 1 % 64 →
    (if fieldAt b 3 1 = 0 then (0, [], t1) else t1.cmdRead q (df d 32 8) (32 * min (fieldAt b 3 1) 64)) = (0, m, t2) →
    t2.imageOk b c = true → t2.mapOk m (min (fieldAt b 3 1) 64) = true → t2.configured p = true → t2.inPartCtx p c = true →
    t2.ctxInTable c = true → t2.loadCtx c = (some 0, t3) → t3.ctxCheck c = (0, t4) → (t2.ctx c).state = 0 →
    t4.bit (partReg p 0) 1 = true → ((fieldAt b 1 1).testBit 2 = true → t4.pinsOf c < 256) →
    (if fieldAt b 3 1 = 0 then (0, t4)
      else t4.guardCheck (fieldAt b 24 8 / 4096) (ownerWord p 3 2) { ctx := none, station := t.queStation q }) = (0, t5) →
    let r := ctxImage b ((List.range (fieldAt b 3 1)).map (regionAt m)) (nextGen (t2.ctx c).gen)
    (if (fieldAt b 1 1).testBit 0 then (t5.setCtx c r).ledgerZero c else (0, t5.setCtx c r)) = (0, t6) →
    t6.refTake (some c) (t.que q).skirt (fieldAt b 56 8) = (g, t7) → g.status = 0 →
    let u : State := { t7 with
      res := { t7.res with ctxs := sDel t7.res.ctxs c, groups := sFilter t7.res.groups fun x _ => x / 2 ^ 40 ≠ c },
      flt := { t7.flt with noted := t7.flt.noted.filter (· ≠ c) } }
    GivesSettled (.ctxCreate q d) s ((u.ctlHold c true).cmdDone q ri d 0 0 (nextGen (t2.ctx c).gen)) ∧ r.state = 1) ∧
  (∀ (s t t1 t2 t3 : State) (q c n : Nat) (d : Desc) (ri : W32) (m : Bytes), s.power = .up → dOp d = 0xC4 → Starts s q d ri t →
    c = df d 16 4 → n = df d 24 1 → n ≤ 64 → resOk d [(16, 4), (20, 4), (24, 1), (32, 8)] = true →
    (if n = 0 then (0, [], t) else t.cmdRead q (df d 32 8) (32 * min n 64)) = (0, m, t1) → t1.mapOk m (min n 64) = true →
    t1.ctxInTable c = true → t1.loadCtx c = (some 0, t2) → df d 20 4 = (t2.ctx c).gen →
    (t2.ctx c).state = 1 ∨ (t2.ctx c).state = 2 ∨ (t2.ctx c).state = 4 →
    (if n = 0 then (0, t2) else
      t2.guardCheck ((t2.ctx c).regionMap / 4096) (t2.expectTables c) { ctx := some c, station := t2.queStation q }) = (0, t3) →
    let u := t3.setCtx c { t3.ctx c with regions := (List.range n).map (regionAt m) }
    GivesSettled (.ctxRegions q d) s
      ((u.setJob { queue := q, ri := ri, desc := d, phase := 3, since := u.tk (u.queStation q) }).invalidate (.job q ri) c 0 0)) ∧
  (∀ (s t t1 : State) (q c i g old : Nat) (d : Desc) (ri : W32), s.power = .up → dOp d = 0xC5 → Starts s q d ri t → c = df d 16 4 →
    i = df d 24 1 → g = Nat.land (df d 28 4) 0x800FFFFF → i ≤ 15 → resOk d [(16, 4), (20, 4), (24, 1), (28, 4)] = true →
    t.ctxInTable c = true → t.loadCtx c = (some 0, t1) → df d 20 4 = (t1.ctx c).gen →
    (t1.ctx c).state = 1 ∨ (t1.ctx c).state = 2 ∨ (t1.ctx c).state = 4 → old = ((t1.ctx c).groups[i]?).getD 0 →
    let u := t1.setCtx c { t1.ctx c with groups := (t1.ctx c).groups.set i g }
    (old.testBit 31 = false ∨ (g.testBit 31 = true ∧ old % 2 ^ 20 = g % 2 ^ 20) →
      GivesSettled (.ctxShare q d) s (u.cmdDone q ri d 0)) ∧
    (old.testBit 31 = true → (g.testBit 31 = false ∨ old % 2 ^ 20 ≠ g % 2 ^ 20) → GivesSettled (.ctxShare q d) s
      ((u.setJob { queue := q, ri := ri, desc := d, phase := 3, since := u.tk (u.queStation q) }).invalidate (.job q ri) c 0 0)))

/-- The end of a context (R109, R127, R133, R134), its record brought in: CTX_REVOKE of a RESTED one makes it DEAD, and of one that
runs revokes it; when its queues have stopped and its translations are gone it is DEAD; CTX_DESTROY of a DEAD one whose header
is ready frees the record, which keeps its generation. FENCE_ABANDON, REF_ACK and CTX_QUERY (R107, R108, R122, R127): the
fence's word is accessed; an acknowledged header of a DEAD queue frees its record; one of an object that is neither context nor
queue is released; a context's record is written to host memory, pinned first where it asks for it. -/
def Obligations.ContextsEndAndAreQueried : Prop :=
  (∀ (s t t1 : State) (q c : Nat) (d : Desc) (ri : W32), s.power = .up → dOp d = 0xC6 → Starts s q d ri t → c = df d 16 4 →
    resOk d [(16, 4), (20, 4)] = true → t.ctxInTable c = true → t.loadCtx c = (some 0, t1) → df d 20 4 = (t1.ctx c).gen →
    ((t1.ctx c).state = 4 → GivesSettled (.ctxRevoke q d) s ((t1.ctxDead c).2.cmdDone q ri d (t1.ctxDead c).1)) ∧
    ((t1.ctx c).state = 1 ∨ (t1.ctx c).state = 2 ∨ (t1.ctx c).state = 3 → GivesSettled (.ctxRevoke q d) s
      ((t1.setJob { queue := q, ri := ri, desc := d, phase := 3, aux := c, since := t1.tk (t1.queStation q) }).revoke c))) ∧
  (∀ (s : State) (c : Nat) (j : CtlJob), s.power = .up → s.revokeSettled c = true →
    (s.ctxDead c).2.qs.jobs.find? (fun j => dOp j.desc = 0xC6 && j.aux = c) = some j →
    GivesSettled (.ctxRevoked c) s ((s.ctxDead c).2.jobDone j (s.ctxDead c).1 0 0)) ∧
  (∀ (s t t1 : State) (q c : Nat) (d : Desc) (ri : W32), s.power = .up → dOp d = 0xC7 → Starts s q d ri t → c = df d 16 4 →
    resOk d [(16, 4), (20, 4)] = true → t.ctxInTable c = true → t.loadCtx c = (some 0, t1) → df d 20 4 = (t1.ctx c).gen →
    (t1.ctx c).state = 6 → (t1.refRead (c % 4) (t1.ctx c).refHeader).status = 0 →
    (refBlocked (t1.refRead (c % 4) (t1.ctx c).refHeader).ref = none →
      GivesSettled (.ctxDestroy q d) s ((t1.ctxFree c (t1.refRead (c % 4) (t1.ctx c).refHeader).ref).cmdDone q ri d 0)) ∧
    (∀ e, refBlocked (t1.refRead (c % 4) (t1.ctx c).refHeader).ref = some e →
      GivesSettled (.ctxDestroy q d) s (t1.cmdDone q ri d 2 e))) ∧
  (∀ r : Nat, refBlocked r = none ↔ r % 2 ^ 32 = 0 ∧ r.testBit 32 = true ∧ r.testBit 33 = true) ∧
  (∀ (t : State) (c ref : Nat), (t.ctxFree c ref).ctx c = { gen := (t.ctx c).gen }) ∧
  (∀ (s t t1 : State) (q c : Nat) (d : Desc) (ri : W32), s.power = .up → dOp d = 0xC8 → Starts s q d ri t → c = df d 16 4 →
    resOk d [(16, 4), (20, 4), (24, 8)] = true → df d 24 8 % 8 = 0 → t.ctxInTable c = true → t.loadCtx c = (some 0, t1) →
    df d 20 4 = (t1.ctx c).gen → (t1.ctx c).state = 1 ∨ (t1.ctx c).state = 2 ∨ (t1.ctx c).state = 5 ∨ (t1.ctx c).state = 6 →
    GivesSettled (.fenceAbandon q d) s
      (t1.jobIssue { queue := q, ri := ri, desc := d, since := t1.tk (t1.queStation q) } c (df d 24 8) 8 true .abandon)) ∧
  (∀ (s t t1 t2 : State) (q : Nat) (d : Desc) (ri : W32) (h : Bytes), s.power = .up → dOp d = 0xC9 → Starts s q d ri t →
    resOk d [(16, 8)] = true → df d 16 8 % 64 = 0 → t.cmdRead q (df d 16 8) 32 = (0, h, t1) → refBlocked (fieldAt h 0 8) = none →
    (fieldAt h 8 1 = 1 → t1.ctxInTable (fieldAt h 12 4) = true → t1.loadCtx (fieldAt h 12 4) = (some 0, t2) →
      (t2.ctx (fieldAt h 12 4)).gen = fieldAt h 16 4 → (t2.ctx (fieldAt h 12 4)).state = 6 →
      (t2.refRead (fieldAt h 12 4 % 4) (t2.ctx (fieldAt h 12 4)).refHeader).status = 0 →
      refBlocked (t2.refRead (fieldAt h 12 4 % 4) (t2.ctx (fieldAt h 12 4)).refHeader).ref = none →
      GivesSettled (.refAck q d) s ((t2.ctxFree (fieldAt h 12 4)
        (t2.refRead (fieldAt h 12 4 % 4) (t2.ctx (fieldAt h 12 4)).refHeader).ref).cmdDone q ri d 0)) ∧
    (fieldAt h 8 1 = 2 → fieldAt h 12 4 ≠ 0 → fieldAt h 12 4 < 65536 → (t1.que (fieldAt h 12 4)).gen = fieldAt h 16 4 →
      (t1.que (fieldAt h 12 4)).state = 5 → GivesSettled (.refAck q d) s
        (((t1.queFree (fieldAt h 12 4)).refRelease (t.que q).skirt (df d 16 8) (fieldAt h 0 8)).cmdDone q ri d 0)) ∧
    (3 ≤ fieldAt h 8 1 → fieldAt h 8 1 ≤ 5 → GivesSettled (.refAck q d) s
      ((t1.refRelease (t.que q).skirt (df d 16 8) (fieldAt h 0 8)).cmdDone q ri d 0))) ∧
  (∀ (s t t0 t1 u : State) (q c : Nat) (d : Desc) (ri : W32), s.power = .up → dOp d = 0xCA → Starts s q d ri t → c = df d 16 4 →
    resOk d [(16, 4), (20, 4), (24, 8)] = true → t.ctxInTable c = true → t.loadCtx c = (some 0, t0) →
    df d 20 4 = (t0.ctx c).gen → (t0.ctx c).state ≤ 6 →
    u = (if (t.ctx c).mode.testBit 2 && (t.ctx c).state ≠ 0 && !(t.ctx c).pinned
      then t0.setCtx c { t.ctx c with pinned := true } else t0) →
    ((t.ctx c).mode.testBit 2 = true → (t.ctx c).state ≠ 0 → (t.ctx c).pinned = false → t0.pinsOf c < 256) →
    (u.rangeErr q (df d 24 8) 256).ctlWrite (u.que q).skirt (df d 24 8) (u.ctxBytes c) false = (0, t1) →
    GivesSettled (.ctxQuery q d) s (t1.cmdDone q ri d 0))

/-! ### Accesses of tiles, and guards -/

/-- A tile access that its stirrup takes (R227, R228, R229, R120) is issued whole where it lies in one page, and in two parts with a
reassembly entry where it straddles two; a fence atomic on an aligned word is issued whole, one on a word that is not aligned
refused with INVALID. An access of a context that the stirrup may not serve is refused with its status: INVALID beyond the
context table (R106), DENIED, counted, where another partition owns it. Answers to tiles (R228, R231, R321, R432): a whole
access that has ended is delivered with its status and data, with its data only where it ended well; one of the host's is
performed as its answer says and then delivered; one lost on the way to its guard, or not answered, ends with LAME or TIMEOUT;
an arrival under a retired tag is absorbed. -/
def Obligations.TileAccesses : Prop :=
  (∀ (s t : State) (st tag c len : Nat) (va : W64), s.power = .up → st < 80 → 1 ≤ len → len ≤ 4096 →
    t = s.wordsMet (s.xlatWords st c) → t.tileRefusal st c = none → t.tileOpen st c = true →
    let low := 4096 - va.toNat % 4096
    let hi := (va.toNat + low) % 2 ^ 64
    (len ≤ low → GivesSettled (.tileLoad st tag c va len) s (t.issue (t.tileAcc st tag c va.toNat len false .load)).2) ∧
    (∀ e, low < len → ((List.range 32).find? fun e => (t.partsOf st e).isEmpty) = some e →
      GivesSettled (.tileLoad st tag c va len) s
        (((t.inc (pageOf st + 0x628)).issue (t.tileAcc st tag c va.toNat low false .load 1 e)).2.issue
          (t.tileAcc st tag c hi (len - low) false .load 2 e)).2)) ∧
  (∀ (s t : State) (st tag c : Nat) (va : W64) (b : Bytes), s.power = .up → st < 80 → 1 ≤ b.length → b.length ≤ 4096 →
    t = s.wordsMet (s.xlatWords st c) → t.tileRefusal st c = none → t.tileOpen st c = true →
    let low := 4096 - va.toNat % 4096
    let hi := (va.toNat + low) % 2 ^ 64
    (b.length ≤ low → GivesSettled (.tileStore st tag c va b) s
      (t.issue (t.tileAcc st tag c va.toNat b.length true (.store b (List.replicate b.length false)))).2) ∧
    (∀ e, low < b.length → ((List.range 32).find? fun e => (t.partsOf st e).isEmpty) = some e →
      let lo : AccOp := .store (b.take low) (List.replicate low false)
      let up : AccOp := .store (b.drop low) (List.replicate (b.length - low) false)
      GivesSettled (.tileStore st tag c va b) s
        (((t.inc (pageOf st + 0x628)).issue (t.tileAcc st tag c va.toNat low true lo 1 e)).2.issue
          (t.tileAcc st tag c hi (b.length - low) true up 2 e)).2)) ∧
  (∀ (s t : State) (st tag c : Nat) (va v : W64), s.power = .up → st < 80 → va.toNat % 8 = 0 →
    t = s.wordsMet (s.xlatWords st c) → t.tileRefusal st c = none → t.tileOpen st c = true →
    GivesSettled (.tileFenceAtomic st tag c va v) s (t.issue (t.tileAcc st tag c va.toNat 8 true (.signal v.toNat))).2) ∧
  (∀ (s t : State) (st tag c len : Nat) (va : W64), s.power = .up → st < 80 → 1 ≤ len → len ≤ 4096 →
    t = s.wordsMet (s.xlatWords st c) → (∀ e, t.tileRefusal st c = some e →
      GivesSettled (.tileLoad st tag c va len) s ((if e = 4 then t.inc (pageOf st + 0x630) else t).tileRefuse st tag e)) ∧
    (2 ^ t.odNum 0x2000 0x21 ≤ c → t.live st = true → t.rcv.reset = none → t.tileRefusal st c = some 1)) ∧
  (∀ (s : State) (st tag c : Nat) (va v : W64), s.power = .up → st < 80 → va.toNat % 8 ≠ 0 →
    GivesSettled (.tileFenceAtomic st tag c va v) s (s.tileRefuse st tag 1)) ∧
  (∀ (s : State) (n st tag p re : Nat) (a : Access) (r : Ack), s.power = .up → s.acc? n = some a → a.src = .tile st tag p re →
    (a.ph = .done → p = 0 → s.acc? a.id = some a →
      GivesSettled (.tileAccessComplete n r) s
        ((s.emit (.tile st tag a.status (a.pz.any (· = true)) a.data)).dropAcc a.id)) ∧
    (∀ g t, a.ph = .ready → a.kind = 1 → a.op = .load → a.retired = false → s.hostAccess a r = (g, t) →
      let b : Access := { a with ph := .done, status := g.status, data := g.data, pz := g.pz }
      GivesSettled (.tileAccessComplete n r) s ((t.setAcc b).tileDeliver a.id)) ∧
    (a.ph = .ready → a.kind = 2 → a.retired = false → p = 0 → r = .timeout ∨ r = .lost →
      GivesSettled (.tileAccessComplete n r) s
        ((s.setAcc { a with ph := .done, status := if r = .timeout then 9 else 11 }).tileDeliver a.id)) ∧
    (a.ph = .ready → a.retired = true → GivesSettled (.tileAccessComplete n r) s (s.absorb a)))

/-- What a guard does with an access that reaches it after those before it on its path (R26, R176, R180, R229, R231): a whole load
or store, and a channel's, has its effect; a part of a straddling store is only checked, once both parts are translated; with
both checked it is committed, with one refused it is aborted; a commit writes and an abort writes nothing. -/
def Obligations.GuardsServeAccesses : Prop :=
  (∀ (s t : State) (n : Nat) (a : Access) (bad : Bool), s.power = .up → s.acc? n = some a → a.kind = 2 → a.ph = .ready →
    a.retired = false → s.firstOnPath a = true → t = s.wordsMet (s.guardWords (a.pa / 4096)) →
    (∀ st tag p re, a.src = .tile st tag p re → a.storePart = false → GivesSettled (.guardRequest n bad) s (t.guardEffect a bad)) ∧
    (∀ st ch, a.src = .chan st ch → GivesSettled (.guardRequest n bad) s (t.guardEffect a bad)) ∧
    (∀ k i, a.src = .inbound k → t.inb? k = some i →
      GivesSettled (.guardRequest n bad) s ((t.inbEffect a i.w bad).2.inbGot a (t.inbEffect a i.w bad).1)) ∧
    (∀ st tag p re, a.src = .tile st tag p re → a.storePart = true → t.bothTranslated a = true →
      GivesSettled (.guardRequest n bad) s ((t.guardCheck (a.pa / 4096) a.expect a.who).2.setAcc
        { a with ph := .checked, status := (t.guardCheck (a.pa / 4096) a.expect a.who).1 }))) ∧
  (∀ (s : State) (st e : Nat) (ps : List Access), s.power = .up → s.partsOf st e = ps → (∀ a ∈ ps, a.storePart = true) →
    (∀ a ∈ ps, a.ph = .checked) →
    ((∀ a ∈ ps, a.status = 0) → GivesSettled (.straddleCheckResult st e) s
      (ps.foldl (fun s a => s.setAcc { a with ph := .commit, sent := true }) s)) ∧
    (∀ a0 ∈ ps, a0.status ≠ 0 →
      let w := worstPart ((ps.filter fun a => a.status ≠ 0).map (·.status))
      GivesSettled (.straddleCheckResult st e) s (ps.foldl (fun s a => s.setAcc { a with ph := .abort, status := w }) s))) ∧
  (∀ (s : State) (n : Nat) (a : Access), s.power = .up → s.acc? n = some a →
    (∀ d z, a.op = .store d z → a.ph = .commit → a.retired = false → s.guardUp (s.guardOf (a.pa / 4096)) = true →
      GivesSettled (.guardCommit n) s
        (({ s with dev := s.dev.writeP a.pa d z } : State).setAcc { a with ph := .done, status := 0 })) ∧
    (a.ph = .abort → GivesSettled (.guardAbort n) s (s.setAcc { a with ph := .done })))

/-! ### Translation -/

/-- Walks (R163, R169, R192, R350): the table read of a walk under way moves it on; the host's answer is taken up, and a request
that had none within its bound counts as answered with an abort, flagged and counted. Stamps (R194, R195, R196, R197): a
descriptor that may be stamped, ahead of NEXT within the stamp depth and with no peer page, takes the free slot offered; a slot
whose pages are all translated becomes READY. -/
def Obligations.WalksAndStamps : Prop :=
  (∀ (s : State) (w : Nat) (v : Walk), s.power = .up → s.walk? w = some v →
    (v.active = true → v.host = 0 → GivesSettled (.walkTableReadDone w) s (s.walkRead v)) ∧
    (∀ ans, v.host = 2 → GivesSettled (.hostTranslationAnswer w ans) s (s.hostAnswered v ans)) ∧
    (v.host = 2 → s.odNum 0x2000 0x51 ≤ s.tk (80 + v.via) - v.sent →
      GivesSettled (.atsRequestTimeout w) s (((s.epFlag v.via 1).inc (pmReg v.via 0x305C)).hostAnswered v .abort))) ∧
  (∀ (s : State) (q slot : Nat) (ri : W32) (d : Desc), s.power = .up → s.unitEnabled .stamp = true → (s.que q).state ≠ 0 → (s.que q).priv = false →
    (s.ctx (s.que q).ctx).state ≠ 0 → (s.ctx (s.que q).ctx).state < 5 → (s.ctx (s.que q).ctx).mode.testBit 0 = true →
    stampable (dOp d) = true → dFlag d 4 = false → wdiff (s.que q).tailSeen ri ≠ 0 → wdiff (s.que q).tailSeen ri < 2 ^ 31 →
    wdiff ri (s.que q).next < 2 ^ 31 → s.slotFor q ri = none → ri ∉ (s.que q).fly → s.odNum 0x5000 0x15 ≠ 0 →
    s.odNum 0x5000 (0x10 + (s.que q).skirt) ≠ 0 → wdiff ri (s.que q).next ≤ s.odNum 0x5000 0x15 →
    slot < 2 ^ s.odNum 0x5000 0x14 → sFind s.x.slots ((s.que q).skirt * 4096 + slot) = none →
    (∀ p ∈ footprint d, ∀ g, (s.ctx (s.que q).ctx).regionOf p.1 = some g → g.kind ≠ 3) →
    GivesSettled (.stampService q ri d slot) s (s.stampClaim q ri d slot)) ∧
  (∀ (s : State) (k slot : Nat) (v : SideSlot), s.power = .up → k < 4 → slot < 4096 →
    sFind s.x.slots (k * 4096 + slot) = some v → v.state = 1 → v.want = [] →
    GivesSettled (.stampReady k slot) s
      { s with x := { s.x with slots := sPut {} s.x.slots (k * 4096 + slot) { v with state := 2 } } })

/-- Invalidations (R200, R201, R202, R203, R259, R351): GO at a slot that is not busy, with a good range of a context of the
generation given, starts one and makes the slot busy; at a busy slot it is counted; one whose caches are clean and whose uses
have ended completes; the host's own covers the contexts of its function and PASID. -/
def Obligations.Invalidations : Prop :=
  (∀ (s : State) (pm k c n va : Nat) (irq : Bool), s.power = .up → pm < 4 → k < 4 → s.live (80 + pm) = true →
    c = s.fld (pmReg pm (0x600 + 0x20 * k)) 0 20 → n = (s.rd (pmReg pm (0x600 + 0x20 * k) + 0x10)).toNat →
    va = s.rd64 (pmReg pm (0x600 + 0x20 * k) + 8) →
    (s.slotBusy (pmReg pm (0x600 + 0x20 * k) + 0x18) = true →
      GivesSettled (.tlbInvalidate pm k irq) s (s.inc (pmReg pm 0x6B4))) ∧
    (s.slotBusy (pmReg pm (0x600 + 0x20 * k) + 0x18) = false → n ≤ 262144 → s.ctxInTable c = true →
      (n ≠ 0 → canonical va = true ∧ va % 4096 = 0 ∧ va.testBit 56 = (va + n * 4096 - 1).testBit 56 ∧
        canonical ((va + n * 4096 - 1) % 2 ^ 64) = true) →
      (s.rd (pmReg pm (0x600 + 0x20 * k) + 4)).toNat = (s.ctx c).gen → (s.ctx c).state ≠ 0 →
      GivesSettled (.tlbInvalidate pm k irq) s
        (((s.setFld (pmReg pm (0x600 + 0x20 * k) + 0x14) 1 1 (b2n irq)).slotTake (pmReg pm (0x600 + 0x20 * k) + 0x18)).invalidate
          (.slot pm k) c (vpage va) n))) ∧
  (∀ (s : State) (i : Nat) (v : Inv), s.power = .up → s.x.invs.find? (fun v => v.id = i) = some v → s.invSettled v = true →
    GivesSettled (.invalidationComplete i) s (((s.trace 4 (80 + s.invPm v) v.ctx v.pages).invTell v).invEnd v)) ∧
  (∀ (s : State) (fn pages : Nat) (pasid : Option Nat) (va : W64) (global : Bool), s.power = .up →
    GivesSettled (.atsInvalidateRequest fn pasid va pages global) s (s.hostInvalidate fn pasid va pages global))

/-! ### Faults -/

/-- Page requests (R218, R352): a response to a request of the context's PASID replays what waits on success, ends it with FAULT on
an invalid answer, and on a failure stops page requests and ends those outstanding; one that answers nothing is a stray; a
control reset sends page requests again, and a disable ends those not sent. Responses to faults (R224, R225, R233): RETRY
replays what an entry holds, FAIL ends it with FAULT, FAIL with ALL ends every device-side entry of the context, RESUME of a
FAULT_STALLED context whose ring is consumed makes it LIVE and its queues go on; each completes its slot with OK. What time and
the host do to faults (R216, R221, R222, R223, R232): an entry not answered in its time ends with TIMEOUT, recorded and counted;
the HEAD of a fault ring is taken up when its control line has moved; an access held too long with no entry stalls its context. -/
def Obligations.FaultsAndPageRequests : Prop :=
  (∀ (s : State) (ix pasid : Nat) (e : FltEntry), s.power = .up →
    s.flt.entries.find? (fun e => e.pri = some (ix % 128) && e.pm = ix / 128) = some e → (s.ctx e.ctx).pasid = pasid →
    (s.cfg 0 cfgPri).getLsbD 0 = true →
    GivesSettled (.prgResponse ix pasid .success) s (s.endEntry e none) ∧
    GivesSettled (.prgResponse ix pasid .invalid) s (s.endEntry e (some 5)) ∧
    GivesSettled (.prgResponse ix pasid .failure) s ((s.setCfg 0 cfgPri (s.cfg 0 cfgPri ||| 0x10000)).endPris 5)) ∧
  (∀ (s : State) (ix pasid : Nat) (code : PrgCode), s.power = .up →
    s.flt.entries.find? (fun e => e.pri = some (ix % 128) && e.pm = ix / 128) = none →
    GivesSettled (.prgResponse ix pasid code) s (s.strayPrg ix)) ∧
  (∀ s : State, s.power = .up →
    GivesSettled .priControlReset s (s.setCfg 0 cfgPri (s.cfg 0 cfgPri &&& ~~~(0x30000#32))).sendPris ∧
    GivesSettled .priDisable s s.priOff) ∧
  (∀ (s u : State) (pm k o c : Nat) (irq : Bool) (e : FltEntry), s.power = .up → pm < 4 → k < 4 → u.live (80 + pm) = true →
    u = s.wordsMet (faultWords pm) → u.fltOp pm k = s.fltOp pm k →
    o = pmReg pm (0x700 + 0x20 * k) → c = u.fld o 0 20 → u.slotBusy (o + 0x14) = false → u.ctxInTable c = true →
    (u.rd (o + 4)).toNat = (u.ctx c).gen →
    let t := u.setFld (o + 0x10) 1 1 (b2n irq)
    let src := if irq then some (0xCB0 + 4 * pm + k) else none
    (u.tagged c (u.rd (o + 8)).toNat = some e →
      (s.fltOp pm k = (0, false) → GivesSettled (.retry pm k irq) s ((t.endEntry e none).slotDone (o + 0x14) 0 0 src)) ∧
      (s.fltOp pm k = (1, false) → GivesSettled (.fail pm k irq) s ((t.endEntry e (some 5)).slotDone (o + 0x14) 0 0 src))) ∧
    (s.fltOp pm k = (1, true) → GivesSettled (.failAll pm k irq) s
      (((u.flt.entries.filter fun f => f.ctx = c && !f.host).foldl (fun s f => s.endEntry f (some 5)) t).slotDone
        (o + 0x14) 0 0 src)) ∧
    (s.fltOp pm k = (2, false) → (u.ctx c).state = 2 → u.ringBusy c = false → GivesSettled (.resume pm k irq) s
      (((t.ctxQueues c).foldl (fun s q => s.unpauseQue q 0) (t.setCtx c { u.ctx c with state := 1 })).slotDone
        (o + 0x14) 0 0 src))) ∧
  (∀ (s : State) (pm n : Nat) (e : FltEntry), s.power = .up → s.flt.entries.find? (fun e => e.pm = pm && e.idx = n) = some e →
    s.odNum 0x5000 0x26 ≠ 0 → s.odNum 0x5000 0x26 ≤ s.tk (80 + pm) - e.since → (e.host = true → e.pri.isSome = true) →
    GivesSettled (.faultResponseTimeout pm n) s
      (((s.errCtx e.ctx 3 0x0306 (80 + pm) 9 (pageVa e.page) 0).inc (pmReg pm 0x79C)).endEntry e (some 9))) ∧
  (∀ (s : State) (c : Nat) (h : W32), s.power = .up → c ∈ s.cw.moved →
    GivesSettled (.faultRingHead c h) s ((s.ctlHold c true).ringHead c h)) ∧
  (∀ (s : State) (n t : Nat) (a : Access), s.power = .up → s.acc? n = some a → a.since = some t → a.ph = .held →
    s.odNum 0x5000 0x25 ≤ s.tk a.station - t → (s.ctx a.ctx).state = 1 → GivesSettled (.faultStall n) s (s.faultStall a))

/-! ### Peer ports, Ixcia and RoCEv2 -/

/-- Packets (R372, R374, R375, R376, R377, R378, R382, R384): a frame that the FEC could not correct, or with a bad FCS, is dropped
and counted; a good one that reaches an UP port with peers enabled, is whole, sealed well and meant for this node is taken once
its conduit is cached: a sequenced one of the incarnation known goes to its conduit, an ACK to an OPEN one, a PROBE sets its
sender's receiving direction up, and its answer opens the conduit; one of another incarnation is dropped and counted; a FENCED
packet executes when its turn has come; an access to a peer leaves for its node once nothing holds it back. Timers of the
conduits (R376, R380, R382, R383, R388): a probe that is not answered is sent again, up to the tries, and then the conduit is
DOWN; a packet not acknowledged in its time counts against its path and is sent again; a path comes back after 10,000 ticks; an
acknowledgement owed for two ticks goes; an access without an outcome ends with TIMEOUT. -/
def Obligations.PeerPacketsAndTimers : Prop :=
  (∀ (s w : State) (cn : Nat) (p : Packet), s.power = .up → cn < 16 → s.wordsMet (· = .conduit p.srcNode) = w →
    w.portUp cn = true →
    (p.frame = .uncorrected → GivesSettled (.write cn p) s ((w.inc (cnReg cn 0x4030) p.fixed).inc (cnReg cn 0x4034))) ∧
    (p.frame = .badFcs → GivesSettled (.write cn p) s ((w.inc (cnReg cn 0x4030) p.fixed).inc (cnReg cn 0x4038))) ∧
    (p.frame = .good → (w.inc (cnReg cn 0x4030) p.fixed).peerEn = false →
      GivesSettled (.write cn p) s ((w.inc (cnReg cn 0x4030) p.fixed).inc (cnReg cn 0x4048)))) ∧
  (∀ (s w m v t u : State) (cn : Nat) (p : Packet), s.power = .up → cn < 16 → s.wordsMet (· = .conduit p.srcNode) = w →
    w.portUp cn = true → p.frame = .good → m = w.inc (cnReg cn 0x4030) p.fixed → m.peerEn = true → p.version = 1 →
    v = m.inc64sat (cnReg cn 0x4028) (m.wireBytes p) → p.dstNode = v.nodeId → p.srcNode < 2 ^ 14 → p.sealOk = true →
    (p.secure = true → (v.keySlot p.partition p.srcNode).isSome = true) → v.condLoad p.srcNode = (none, t) →
    u = (if (t.conduit p.srcNode).state = 2 then t.ackBelow p.srcNode p.ackPsn else t) →
    let on (v : State) : State := v.pump p.srcNode (v.conduit p.srcNode).queue.length
    ((t.conduit p.srcNode).inc = some p.incarnation →
      GivesSettled (.write cn p) s (on (u.seqGot cn 1 p)) ∧ GivesSettled (.readReq cn p) s (on (u.seqGot cn 2 p)) ∧
      GivesSettled (.readRsp cn p) s (on (u.seqGot cn 3 p)) ∧ GivesSettled (.atomic cn p) s (on (u.seqGot cn 4 p)) ∧
      GivesSettled (.nak cn p) s (on (u.seqGot cn 5 p)) ∧
      ((u.conduit p.srcNode).state = 2 → GivesSettled (.ack cn p) s (on (u.ackGot p.srcNode p)))) ∧
    ((t.conduit p.srcNode).inc ≠ some p.incarnation → GivesSettled (.write cn p) s (t.inc (cnReg cn 0x404C))) ∧
    GivesSettled (.probe cn p) s (t.probeGot p) ∧
    ((t.conduit p.srcNode).state = 1 →
      let x := t.setConduit p.srcNode { t.conduit p.srcNode with
        state := 2, tries := 0, inc := some p.incarnation, mask := fieldAt p.payload 0 2 }
      GivesSettled (.probeRsp cn p) s (x.pump p.srcNode (t.conduit p.srcNode).queue.length))) ∧
  (∀ (s : State) (r cn ty : Nat) (psn : W32) (p : Packet), s.power = .up →
    (s.conduit r).fenced.find? (fun e => e.2.2.psn = psn) = some (cn, ty, p) → (s.conduit r).ripe psn = true →
    let c := { s.conduit r with fenced := (s.conduit r).fenced.filter fun e => e.2.2.psn ≠ psn }
    GivesSettled (.fencedExecute r psn) s ((s.setConduit r c).execPkt cn ty p)) ∧
  (∀ (s : State) (n : Nat) (a : Access), s.power = .up → s.acc? n = some a → s.released a = true →
    GivesSettled (.ixciaSend n) s ((s.wordsMet (· = .conduit a.node)).ixciaSend n)) ∧
  (∀ (s : State) (r : Nat), s.power = .up → (s.conduit r).state = 1 → s.odNum 0x6000 0x10 ≤ s.condTk r - (s.conduit r).probeAt →
    (s.odNum 0x6000 0x11 + 1 ≤ (s.conduit r).tries → GivesSettled (.probeTimeout r) s (s.condDown r)) ∧
    ((s.conduit r).tries < s.odNum 0x6000 0x11 + 1 →
      let c := { s.conduit r with tries := (s.conduit r).tries + 1, probeAt := s.condTk r }
      GivesSettled (.probeTimeout r) s ((s.setConduit r c).sendProbe r false))) ∧
  (∀ (s : State) (r : Nat) (psn : W32) (u : TxPkt), s.power = .up →
    (s.conduit r).unacked.find? (fun u => u.pkt.psn = psn) = some u → (s.conduit r).state = 2 → u.sacked = false →
    s.odNum 0x6000 0x10 ≤ s.condTk r - u.sent →
    GivesSettled (.ixciaRto r psn) s ((s.pathFail r u.lport u.rport).resendPkt r u)) ∧
  (∀ (s : State) (r l m : Nat), s.power = .up → (s.conduit r).excl ≠ [] →
    let c := { s.conduit r with
      excl := (s.conduit r).excl.filter fun e => !(e.lport = l && e.rport = m && 10000 ≤ s.condTk r - e.since) }
    GivesSettled (.pathExclusionEnd r l m) s (s.setConduit r c)) ∧
  (∀ (s : State) (r : Nat), s.power = .up → (s.conduit r).owed ≠ 0 → 2 ≤ s.condTk r - (s.conduit r).owedAt →
    GivesSettled (.ackTimer r) s (s.sendAck r)) ∧
  (∀ (s : State) (a : Nat) (q : RemReq), s.power = .up → s.peer.reqs.find? (fun q => q.acc = a && !q.acked) = some q →
    s.odNum 0x6000 0x12 ≤ s.condTk q.node - q.since → GivesSettled (.ixcRemoteTimeout a) s (s.remoteEnd q 9 [] [] true))

/-- Ports and peer objects (R372, R381, R386, R389, R394, R397): an UP port goes down and its held packets take other paths; a DOWN
port that the girth gate accepted comes up and its retrain is counted; a PFC frame holds or releases priorities; GO at a free
slot makes a window or a queue pair valid, or clears it, once the guard of the peer table admits its write, and the slot ends
when nothing of it is in flight. -/
def Obligations.PeerPortsAndObjects : Prop :=
  (∀ (s : State) (cn : Nat), s.power = .up → cn < 16 →
    (∀ remote, s.fld (cnReg cn 0x4000) 0 2 = 2 →
      let t := (s.setFld (cnReg cn 0x4000) 0 4 (if remote then 8 else 4)).perFlag cn 0
      GivesSettled (.portDown cn remote) s ((s.portQ cn).held.foldl (fun s e => s.respray cn e) (t.setPortQ cn {}))) ∧
    (s.live (84 + cn) = true → s.fld (cnReg cn 0x4000) 0 2 = 0 → (s.odNum 0x2000 0x91).testBit (4 + cn) = true →
      let t := s.setFld (cnReg cn 0x4000) 0 4 2
      let w : WearRec := sGet {} s.wear (84 + cn)
      GivesSettled (.portUp cn) s { t with wear := sPut {} t.wear (84 + cn) { w with retrains := satAdd 32 w.retrains 1 } }) ∧
    (∀ mask : Byte, s.portUp cn = true →
      GivesSettled (.priorityFlowControl cn mask true) s ((s.portQ cn).held.foldl (fun s e => s.wire cn e)
        (s.setPortQ cn { paused := Nat.lor (s.portQ cn).paused mask.toNat, held := [] })) ∧
      GivesSettled (.priorityFlowControl cn mask false) s ((s.portQ cn).held.foldl (fun s e => s.wire cn e)
        (s.setPortQ cn { paused := Nat.xor (s.portQ cn).paused (Nat.land (s.portQ cn).paused mask.toNat), held := [] })))) ∧
  (∀ (s v : State) (cn id : Nat) (irq : Bool) (b : Bytes), s.power = .up → s.objSlot cn = true →
    s.slotBusy (cnReg cn 0x410C) = false → id = s.fld (cnReg cn 0x4100) 0 12 → b = s.objEntry cn →
    let t := s.setFld (cnReg cn 0x4108) 1 1 (b2n irq)
    let src := if irq then some (0xCD0 + cn) else none
    (s.fld (cnReg cn 0x4104) 0 2 = 0 → winShape b = true → s.ctxInTable (winOf b).ctx = true →
      (∀ e ∈ s.peer.wins, e.1 ≠ id → e.2.clash (winOf b) = false) → s.bit (partReg (s.ctx (winOf b).ctx).part 0) 3 = true →
      (winOf b).gen = (s.ctx (winOf b).ctx).gen → (s.ctx (winOf b).ctx).state = 1 → sFind s.peer.wins id = none →
      t.tableWrite cn (id * 64) (winEntry b true) = (0, v) →
      let u : State := { v with peer := { v.peer with wins := sIns v.peer.wins id (winOf b) } }
      GivesSettled (.winSet cn irq) s (u.slotDone (cnReg cn 0x410C) 0 0 src)) ∧
    (s.fld (cnReg cn 0x4104) 0 2 = 1 →
      (if (sFind s.peer.wins id).isSome then t.tableWrite cn (id * 64 + 24) (((winEntry b false).drop 24).take 2) else (0, t)) = (0, v) →
      let u := v.slotTake (cnReg cn 0x410C)
      GivesSettled (.winClear cn irq) s
        { u with peer := { v.peer with wins := sDel v.peer.wins id, clears := (cn, id) :: v.peer.clears } }) ∧
    (s.fld (cnReg cn 0x4104) 0 2 = 2 → qpShape b = true → s.live (84 + id % 16) = true →
      (sFind s.peer.wins (fieldAt b 36 2) = none → fieldAt b 36 2 = 0xFFFF) →
      (∀ w, sFind s.peer.wins (fieldAt b 36 2) = some w → s.bit (partReg (s.ctx w.ctx).part 0) 3 = true ∧
        w.gen = (s.ctx w.ctx).gen ∧ (s.ctx w.ctx).state = 1) → sFind s.peer.qps id = none →
      t.tableWrite cn (0x40000 + id * 64) b = (0, v) →
      GivesSettled (.qpSet cn irq) s ((v.setQp id { entry := b, epsn := fieldAt b 4 4 }).slotDone (cnReg cn 0x410C) 0 0 src)) ∧
    (s.fld (cnReg cn 0x4104) 0 2 = 3 → sFind s.peer.qps id = none →
      GivesSettled (.qpClear cn irq) s (t.slotDone (cnReg cn 0x410C) 0 0 src)) ∧
    (∀ x, s.fld (cnReg cn 0x4104) 0 2 = 3 → sFind s.peer.qps id = some x →
      let u := (t.slotTake (cnReg cn 0x410C)).setQp id { x with clearing := true }
      GivesSettled (.qpClear cn irq) s { u with peer := { u.peer with clears := (cn, 4096 + id) :: s.peer.clears } })) ∧
  (∀ (s : State) (cn id : Nat), s.power = .up → s.peer.clears.find? (fun e => e.1 = cn && (4096 ≤ e.2 : Bool) = false) = some (cn, id) →
    (∀ i ∈ s.peer.inb, i.win ≠ id) →
    let t : State := { s with peer := { s.peer with clears := s.peer.clears.filter (· ≠ (cn, id)) } }
    GivesSettled (.winClearDone cn) s
      (t.slotDone (cnReg cn 0x410C) 0 0 (if t.bit (cnReg cn 0x4108) 1 then some (0xCD0 + cn) else none)))

/-- RoCEv2 packets (R372, R393, R394, R395, R396): on a queue pair that is not clearing, a good packet at its port and address with
the PSN expected and without a congestion mark is taken: an RDMA WRITE into its window writes there, an RDMA READ reads there,
the first packet of a SEND asks for the slot of its message and a later one is written; the next PSN expected moves on. -/
def Obligations.RocePackets : Prop :=
  ∀ (s0 s : State) (p : RocePkt) (x : Qp) (k : Nat) (w : Win), s0.power = .up → s0.portUp p.cn = true → p.cn = p.qp % 16 →
    p.psn < 2 ^ 24 → p.frame = .good → s = s0.inc (cnReg p.cn 0x4030) p.fixed → s.peerEn = true → p.icrcOk = true →
    sFind s.peer.qps p.qp = some x → x.clearing = false → p.ip = s.qpIp p.qp x → p.ecn = false → p.supported = true →
    p.psn = x.epsn →
    (∀ (n a togo : Nat) (key : W32) (first : Bool) (t : State), t = s.roceIn p x (if first then 16 else 0) → n = p.payload.length → first = (p.pos = .first || p.pos = .only) →
      a = (if first then p.va.toNat else x.cursor) → togo = (if first then p.len else x.togo) →
      key = (if first then p.rkey else BitVec.ofNat 32 x.win) →
      t.roceWin p.qp key a (if first then p.len else n) 1 = (0, some (k, w)) → n ≤ x.mtu →
      (if p.pos = .only ∨ p.pos = .last then n = togo else n = x.mtu ∧ n < togo) → (first = true ∨ togo ≠ 0) →
      let u := t.setQp p.qp { x with epsn := (x.epsn + 1) % 2 ^ 24, cursor := a + n, togo := togo - n, win := key.toNat }
      let v := u.moveBytes (84 + p.qp % 16) (u.ctx w.ctx).part 1 n
      let i := roceInb p .write k w a n
      (n = 0 → GivesSettled (.rdmaWrite p) s0 (u.roceAck p.qp)) ∧
      (n ≠ 0 → GivesSettled (.rdmaWrite p) s0 ((v.addInb i).2.inbIssue (v.addInb i).1 a n true fun o m =>
        .store ((p.payload.drop o).take m) (List.replicate m false)))) ∧
    ((s.roceIn p x 16).roceWin p.qp p.rkey p.va.toNat p.len 0 = (0, some (k, w)) → p.len ≠ 0 →
      let t := s.roceIn p x 16
      let u := (t.setQp p.qp { x with
        epsn := (x.epsn + max 1 ((p.len + x.mtu - 1) / x.mtu)) % 2 ^ 24 }).moveBytes (84 + p.qp % 16) (t.ctx w.ctx).part 0 p.len
      let i := roceInb p .read k w p.va.toNat p.len
      GivesSettled (.rdmaReadRequest p) s0 ((u.addInb i).2.inbIssue (u.addInb i).1 p.va.toNat p.len false fun _ _ => .load)) ∧
    (sFind s.peer.wins (fieldAt x.entry 36 2) = some w → w.admits true p.qp = true →
      w.holds (slotVa x w x.delivered) 4096 = true → (s.roceIn p x 0).winCheck w (w.rights.testBit 1) none = 0 →
      p.payload.length ≤ x.mtu → x.inMsg + p.payload.length ≤ 4088 →
      ((p.pos = .first ∨ p.pos = .only) ↔ x.inMsg = 0) →
      (∀ i ∈ s.peer.inb, i.roce = true → i.node = p.qp → i.kind ≠ .sendCheck ∧ (i.kind = .sendData → i.last = false)) →
      let t := s.roceIn p x 0
      let u := (t.setQp p.qp { x with
        epsn := (x.epsn + 1) % 2 ^ 24 }).moveBytes (84 + p.qp % 16) (t.ctx w.ctx).part 1 p.payload.length
      let i := { roceInb p .sendCheck (fieldAt x.entry 36 2) w 0 0 with
        data := p.payload, last := p.pos = .only || p.pos = .last }
      (x.inMsg = 0 → GivesSettled (.send p) s0
        ((u.addInb i).2.inbIssue (u.addInb i).1 (fieldAt x.entry 48 8) 8 false fun _ _ => .load)) ∧
      (x.inMsg ≠ 0 → GivesSettled (.send p) s0 ((u.addInb i).2.sendWrite { i with k := (u.addInb i).1 })))

/-! ### Residency -/

/-- Residency requests (R242, R243, R244, R245, R246): GO at a free slot of a live pommel, of a LIVE or FAULT_STALLED context of the
generation given, with operands that keep the rules: GIVE adds its frames to the pool and answers with their number, the others
start their work under the slot. What the residency engine is told (R247, R248, R252, R253, R254, R315): the oldest sample of a
pommel's queue leaves it and, of a page that the engine may act on, counts in its group; an interval ends after
RES_INTERVAL_TICKS, where the engine is enabled; a batch whose copies have landed becomes RESIDENT; a writeback that landed
whole or narrowed evicts its page; a host snoop is answered with the line, which an invalidation takes away before the host's
store. -/
def Obligations.Residency : Prop :=
  (∀ (s t : State) (pm k o c n op : Nat) (irq : Bool), s.power = .up → pm < 4 → k < 4 → o = pmReg pm (0x1000 + 0x40 * k) →
    s.live (80 + pm) = true → s.slotBusy (o + 0x24) = false → c = s.fld o 0 20 → n = (s.rd (o + 0x10)).toNat →
    op = s.fld (o + 0x14) 0 3 → t = s.setFld (o + 0x20) 1 1 (b2n irq) → t.resShape op c (s.rd64 (o + 8)) n (s.rd64 (o + 0x18)) = true →
    (s.rd (o + 4)).toNat = (t.ctx c).gen → (t.ctx c).state = 1 ∨ (t.ctx c).state = 2 → t.resOn c = true →
    (op = 0 → t.poolsAt (t.homeOf c) + n ≤ 64 * t.groupRoom) →
    let src := if irq then some (0xCC0 + 4 * pm + k) else none
    let r : ResReq := { id := 0, pm := pm, slot := some k, ctx := c, op := op, first := vpage (s.rd64 (o + 8)), pages := n,
                        arg := s.rd64 (o + 0x18), want := if op = 1 then n else 0, list := s.rd64 (o + 0x18) }
    (∀ m u, op = 0 → t.giveRun c (s.rd64 (o + 0x18)) n = (0, m, u) →
      GivesSettled (.give pm k irq) s ((u.wr (o + 0x28) (BitVec.ofNat 32 m)).slotDone (o + 0x24) 0 0 src)) ∧
    (op = 1 → GivesSettled (.take pm k irq) s ((t.slotTake (o + 0x24)).reqStart r)) ∧
    (op = 2 → GivesSettled (.flush pm k irq) s ((t.slotTake (o + 0x24)).reqStart r)) ∧
    (op = 3 → GivesSettled (.evict pm k irq) s ((t.slotTake (o + 0x24)).reqStart r)) ∧
    (op = 4 → GivesSettled (.drop pm k irq) s ((t.slotTake (o + 0x24)).reqStart r)) ∧
    (op = 5 → GivesSettled (.setAttr pm k irq) s ((t.slotTake (o + 0x24)).reqStart r))) ∧
  (∀ (s v t : State) (c p : Nat) (ht : Option Nat) (x : Sample) (g : Region), s.power = .up →
    x = { pm := s.homeOf c, ctx := c, page := p, host := ht } → (s.res.samples.find? fun y => y.pm = s.homeOf c) = some x →
    v = { s with res := { s.res with samples := s.res.samples.erase x } } → (s.ctx c).regionOf p = some g → g.kind = 4 →
    (s.ctx c).mode.testBit 1 = true → s.resOn c = true → 1 ≤ (s.ctx c).state → (s.ctx c).state ≤ 4 →
    (ht = none → v.groupMake c p = (true, t) →
      let u := t.setGroup c p { t.group c p with count := satAdd 16 (t.group c p).count 1 }
      GivesSettled (.resSample c p none) s u) ∧
    (∀ n, ht = some n →
      let r := { v.resCtx c with mNow := ((v.resCtx c).mNow.1 + n, (v.resCtx c).mNow.2 + 1) }
      (v.setResCtx c r).groupMake c p = (true, t) →
      let u := t.setGroup c p { t.group c p with count := satAdd 16 (t.group c p).count 1 }
      GivesSettled (.resSample c p (some n)) s u)) ∧
  (∀ (s : State) (pm : Nat), s.power = .up → pm < 4 →
    (s.timerDue .residency pm (80 + pm) (s.odNum 0x5000 0x36) = true →
      GivesSettled (.resIntervalEnd pm) s ((s.timerSet .residency pm (80 + pm)).intervalEnd pm)) ∧
    (s.odNum 0x5000 (0x30 + pm) = 0 → s.intervalEnd pm = s)) ∧
  (∀ (s0 s : State) (pm i : Nat) (m : Mig) (l : Smap Mig), s0.power = .up → s = s0.wordsMet (migWords pm) → sFind s.res.migs (pm * 65536 + i) = some m →
    m.act = .promote → l = s.res.migs.filter (fun e => e.2.batch = m.batch) → (∀ e ∈ l, e.2.stage = 4) →
    GivesSettled (.promotionCopyDone pm i) s0 (((l.map fun e => e.2.page / 64).eraseDups).foldl (fun s g => s.rehint m.ctx g)
      (l.foldl (fun s e => s.promoteOne e.1 e.2) s))) ∧
  (∀ (s0 s t : State) (pm i : Nat) (m : Mig) (r : Ack), s0.power = .up → s = s0.wordsMet (migWords pm) → sFind s.res.migs (pm * 65536 + i) = some m → m.stage = 4 →
    (m.act = .evict → s.writeback m r = (.full, t) →
      GivesSettled (.evictionWritebackDone pm i r) s0 ((t.setMark m false).evicted (pm * 65536 + i) m false)) ∧
    (m.act = .evict → s.writeback m r = (.narrow, t) → GivesSettled (.evictionWritebackDone pm i r) s0
      (((t.setMark m true).inc (pmReg pm 0x110C)).evicted (pm * 65536 + i) m true)) ∧
    (m.act = .flush → s.writeback m r = (.full, t) →
      GivesSettled (.evictionWritebackDone pm i r) s0 (((t.setMark m false).resCount m).migEnd (pm * 65536 + i) m))) ∧
  (∀ (s : State) (pm line : Nat), s.power = .up → pm < 4 → s.linkActive pm = true → s.lame (80 + pm) = false →
    s.inOrphan = false →
    let w := (s.wordsMet (lineWords pm line)).portBusy pm
    let t := (w.inc (pmReg pm 0x3008)).emit (.snoopRsp pm (line / 64 * 64) (w.host.read (line / 64 * 64) 64))
    let u := (t.cw.lines.filter fun l => l.pm = pm && l.line / 64 = line / 64).foldl State.lineGone t
    GivesSettled (.hostSnoop pm line false none) s t ∧ GivesSettled (.hostSnoop pm line true none) s u ∧
    (∀ o b, o + b.length ≤ 64 → GivesSettled (.hostSnoop pm line true (some (o, b))) s
      { u with host := u.host.write (line / 64 * 64 + o) b }))

/-! ### The host's lease, loss and return -/

/-- Tenure (R504, R505, R506, R509, R510): a renewal restarts the heartbeat lease at the length now set; an expired one is host
loss, or with LEASE_SUP_EN 0 a flag (log entry 30 says that no record is written); a token is taken in READY; the same token
brings the block back from ORPHAN, another is a mismatch; the last descriptor in flight ends the entry's draining. -/
def Obligations.TenureAndReattach : Prop :=
  (∀ (s : State) (seq : W32), s.power = .up → s.bit 0x200 1 = true → (s.wr 0x20C seq).bit 0x200 1 = true →
    let t := s.wr 0x20C seq
    let l := (t.rd 0x204).toNat
    GivesSettled (.hbRenew seq) s { t with orph := { t.orph with expiry := t.supTk 4 + l, leaseLen := l, hbFlagged := false } }) ∧
  (∀ s : State, s.power = .up → s.bit 0x200 1 = true → s.orph.expiry ≤ s.supTk 4 →
    (s.bit 0x0C 3 = true → GivesSettled .hbExpired s (s.orphanEnter 1)) ∧
    (s.bit 0x0C 3 = false → s.orph.hbFlagged = false → GivesSettled .hbExpired s
      (({ s with orph := { s.orph with hbFlagged := true } } : State).raise 0x150 1 0x158))) ∧
  (∀ (s : State) (v : W64), s.power = .up → s.phase = 2 → GivesSettled (.tenureTokenWrite 8 v) s
    { s.setBit 0x218 0 (v ≠ 0) with orph := { s.orph with token := v.toNat } }) ∧
  (∀ (s : State) (v : W64), s.power = .up → s.phase = 3 → s.muted = false → s.orph.draining = false →
    (s.orph.token ≠ 0 → v.toNat = s.orph.token → GivesSettled (.reattach 8 v) s s.reattach) ∧
    (s.orph.token = 0 ∨ v.toNat ≠ s.orph.token → GivesSettled (.reattach 8 v) s
      ({ s with orph := { s.orph with mismatch := [s.tk 80] } } : State).tokenMismatch)) ∧
  (∀ s : State, s.power = .up → s.phase = 3 → s.orph.draining = true → (∀ e ∈ s.qs.recs, e.2.fly = []) →
    GivesSettled .orphanDrained s (s.orph.present.foldl (fun s v => s.judgeToken v)
      { s with orph := { s.orph with draining := false, present := [] } }))

/-- Resting (R496, R498): the command on a LIVE or FAULT_STALLED context of the generation given makes it RESTING and pauses its
queues; when nothing of it is in flight its pages are written back; what is held too long ends with ABORTED; with the image
written it is RESTED and unpinned, and the command ends with the write's status, or with the status of a rest that was broken
off. Resuming (R501, R502): outside ORPHAN the command on a RESTED context with image address zero goes on with what is there,
with another address it takes the edits of the image, and on a FREE record it makes the context that the image holds; a
generation that is not the context's, or for a FREE record not zero, is STALE, and another state is NOT_NOW. -/
def Obligations.RestAndResume : Prop :=
  (∀ (s : State) (c : Nat), s.power = .up → s.cmdRunning 5 = true → s.cs.rest = none → c = s.cmdArg 5 0 4 % 2 ^ 20 →
    (s.ctx c).gen = s.cmdArg 5 4 4 → (s.ctx c).state = 1 ∨ (s.ctx c).state = 2 →
    let r : Rest := { ctx := c, image := s.cmdArg 5 8 8, keep := bitOf (s.cmdArg 5 0 4) 31, since := s.tk (80 + s.homeOf c),
                      status := if s.inOrphan then 11 else 0 }
    let t := (s.ctxQueues c).foldl (fun s q => s.pauseQue q 1) (s.setCtx c { s.ctx c with state := 3 })
    GivesSettled .ctxRest s { t with cs := { t.cs with rest := some r } }) ∧
  (∀ (s : State) (c : Nat) (t : Rest), s.power = .up → s.restAt c 2 = some t →
    (s.ctxIdle c = true → (∀ e ∈ s.dma.chans, e.2.ctx ≠ c) → GivesSettled (.restDrainDone c) s (s.restFlush t)) ∧
    (s.odNum 0x2000 0xB0 ≤ s.tk (80 + s.homeOf c) - t.since → GivesSettled (.restHoldExpiry c) s (s.endFaults c 8))) ∧
  (∀ (s w u : State) (c st : Nat) (t : Rest), s.power = .up → s.restAt c 5 = some t →
    w = s.rangeRec (some c) (80 + s.homeOf c) t.image (s.restImage c t.keep).length →
    (if t.status ≠ 0 then (t.status, w) else w.ctlWrite (c % 4) t.image (s.restImage c t.keep) false) = (st, u) →
    let y := (u.ctxCheck c).2
    let x := y.ctx c
    let v := y.setCtx c { x with
      state := 4, pinned := false, mode := if x.mode.testBit 2 then x.mode - 4 else x.mode }
    GivesSettled (.restImageWritten c .ok) s (({ v with cs := { v.cs with rest := none } } : State).cmdEnd 5 st 0)) ∧
  (∀ (s : State) (c : Nat), s.power = .up → s.cmdRunning 6 = true → c = s.cmdArg 6 0 4 % 2 ^ 20 → s.inOrphan = false →
    (s.cmdArg 6 4 4 = (s.ctx c).gen → (s.ctx c).state = 4 → s.cmdArg 6 8 8 = 0 →
      GivesSettled .ctxResume s ((s.ctxGoOn c).cmdEnd 6 0 0)) ∧
    (s.cmdArg 6 4 4 = (s.ctx c).gen → (s.ctx c).state = 4 → s.cmdArg 6 8 8 ≠ 0 →
      GivesSettled .ctxResume s (s.resumeImage c (s.cmdArg 6 8 8))) ∧
    (s.cmdArg 6 4 4 = 0 → (s.ctx c).state = 0 → GivesSettled .ctxResume s (s.resumeFree c (s.cmdArg 6 8 8))) ∧
    (s.cmdArg 6 4 4 ≠ (s.ctx c).gen → (s.ctx c).state ≠ 0 → GivesSettled .ctxResume s (s.cmdEnd 6 10 0)) ∧
    (s.cmdArg 6 4 4 = (s.ctx c).gen → (s.ctx c).state ≠ 0 → (s.ctx c).state ≠ 4 →
      GivesSettled .ctxResume s (s.cmdEnd 6 2 (0x20 + (s.ctx c).state))))

/-! ### Error queue, leases, heartbeats -/

/-- The error queue's head, leases and station heartbeats (R101, R419, R424, R426, R427, R428, R434): a HEAD between the last one
and TAIL is taken, one beyond TAIL sets BAD_HEAD; a renewal restarts a lease in the table of a station that is not LAME; a scan
looks at every lease, and with LEASE_SUP_EN 0 an expired one is only flagged; a self-check that passes returns a core or
restarts a walker; a heartbeat clears the misses of the nodes that marked it, counts the others', and takes the guards that the
skirts' reports declare lost out of service. -/
def Obligations.LeasesAndHeartbeats : Prop :=
  (∀ (s : State) (v : W32), s.power = .up → (v - s.rd 0x10C).toNat < 2 ^ 31 →
    ((v - s.rd 0x10C).toNat ≤ (s.rd 0x110 - s.rd 0x10C).toNat → GivesSettled (.errqHeadWrite v) s (s.wr 0x10C v).errSummary) ∧
    ((s.rd 0x110 - s.rd 0x10C).toNat < (v - s.rd 0x10C).toNat →
      GivesSettled (.errqHeadWrite v) s (s.raise 0x114 1 0x11C))) ∧
  (∀ (s t : State) (kind res : Nat) (l : Lease), s.power = .up → t = s.wordsMet (· = .lease kind res) →
    sFind t.rcv.leases (leaseKey kind res) = some l → t.lame (t.leaseHolder kind res) = false →
    GivesSettled (.leaseRenew kind res) s (t.leaseStart kind res)) ∧
  (∀ (s : State) (k : Nat), s.power = .up → k < 4 →
    let t := s.wordsMet (s.leaseWords k)
    let u := s.wordsMet (s.leaseWords 4)
    GivesSettled (.leaseScan k) s ((t.rcv.leases.map Prod.fst).foldl (fun s key => s.leaseExpired k key) t) ∧
    GivesSettled (.leaseScan 4) s ((u.rcv.leases.map Prod.fst).foldl (fun s key => s.leaseExpired 4 key) u).hbCheck) ∧
  (∀ (s : State) (k key : Nat) (l : Lease), sFind s.rcv.leases key = some l → l.expiry ≤ s.supTk k → s.leaseSup key = k →
    s.bit 0x0C 3 = false → l.flagged = false →
    s.leaseExpired k key =
      (({ s with rcv := { s.rcv with leases := sIns s.rcv.leases key { l with flagged := true } } } : State).raise 0x150 1 0x158)) ∧
  (∀ (s : State) (res : Nat), s.power = .up →
    ((1, res) ∈ s.rcv.scrubbing →
      let t : State := { s with rcv := { s.rcv with scrubbing := s.rcv.scrubbing.filter (· ≠ (1, res)) } }
      GivesSettled (.leaseSelfCheckDone 1 res true) s (t.coreBack (res / 8) (res % 8)) ∧
      GivesSettled (.leaseSelfCheckDone 1 res false) s (t.dropCore (res / 8) (res % 8) true true)) ∧
    ((2, res) ∈ s.rcv.scrubbing →
      let t : State := { s with rcv := { s.rcv with scrubbing := s.rcv.scrubbing.filter (· ≠ (2, res)) } }
      GivesSettled (.leaseSelfCheckDone 2 res true) s t.startWalks)) ∧
  (∀ (s : State) (f : Frame) (gs : List Nat), s.power = .up → s.gw.hbOut = true → frameOk f = true → f.corrupt = false → f.type = 6 →
    GivesSettled (.heartbeatReturn ⟨f, gs⟩) s (gs.foldl State.guardLost ((List.range 100).foldl (fun s n =>
      if s.present n = false ∨ s.lame n = true then s
      else if (leNat f.payload).testBit (n + 1) then { s with gw := { s.gw with hbMiss := sPut 0 s.gw.hbMiss n 0 } }
      else s.hbMissed n) { s with gw := { s.gw with hbOut := false } })) ∧
    (∀ g < 128, s.guardIn g = true →
      s.guardLost g = ((s.setBit (grdReg g 4) 2 true).setBit (grdReg g 4) 0 false).unitLame (80 + g / 32) 5 g []))

/-! ### Resets, rolls, storage -/

/-- RESET_UNIT (R355, R430, R431, R433, R473): the reset of a live core hands its duties over, that of a live station or of a
partition begins and drains; when its scope is drained it is performed, a station being held in reset until its self-check ends
by the next tick (log entry 42), and at the drain bound what still runs is aborted; a block reset acts at once. -/
def Obligations.UnitResets : Prop :=
  (∀ (s : State) (n c : Nat), s.power = .up →
    (s.resetAsked 1 = some (n, c) → s.present n = true → s.lame n = false → (s.coresOk n).testBit c = true →
      GivesSettled .resetCore s ((s.resetBegin 1 n c).coreAway n c)) ∧
    (s.resetAsked 2 = some (n, c) → s.present n = true → s.lame n = false →
      GivesSettled .resetStation s (s.resetBegin 2 n 0)) ∧
    (s.resetAsked 3 = some (n, c) → s.tdi n = 0 ∨ 3 ≤ s.tdi n →
      GivesSettled .resetPartition s ((s.resetBegin 3 n 0).partBegin n)) ∧
    (s.resetAsked 3 = some (n, c) → s.tdi n = 1 ∨ s.tdi n = 2 →
      GivesSettled .resetPartition s (((s.setTdi n 3).resetBegin 3 n 0).partBegin n)) ∧
    (s.cmdRunning 3 = true → bitsOf (s.cmdArg 3 0 4) 3 0 = 4 → Gives .resetBlock s s.blockReset)) ∧
  (∀ (s : State) (u c : Nat) (ok : Bool), s.power = .up → s.rcv.presets = [] →
    let fin (t : State) : State := ({ t with rcv := { t.rcv with reset := none, checking := none } } : State).cmdEnd 3 0 0
    (s.rcv.reset = some (1, u, c) → ok = true → GivesSettled (.resetDrainDone ok) s (fin (s.coreBack u c))) ∧
    (s.rcv.reset = some (1, u, c) → ok = false → GivesSettled (.resetDrainDone ok) s (fin (s.dropCore u c true true))) ∧
    (s.rcv.reset = some (2, u, c) → s.rcv.checking = none → s.stationIdle u = true →
      let t := s.stationReset u
      GivesSettled (.resetDrainDone ok) s { t with rcv := { t.rcv with checking := some ok } }) ∧
    (s.rcv.reset = some (2, u, c) → s.rcv.checking = some ok → s.checkEnds = fin (s.stationBack u ok)) ∧
    (s.rcv.reset = some (3, u, c) → s.partDrained u = true → GivesSettled (.resetDrainDone ok) s (fin (s.partClear u))) ∧
    (s.rcv.reset = some (2, u, c) → GivesSettled .drainBoundExpiry s (s.stationAbort u)) ∧
    (s.rcv.reset = some (3, u, c) → GivesSettled .drainBoundExpiry s (s.partAbort u)))

/-- Rolls and protected storage (R413, R414, R415, R440, R442): a roll starts with the live stations that are not at its epoch, in
order; a visited station that is idle takes its items and its epoch; one that does not quiesce in its time ends the roll with
TIMEOUT; a scrubber meets an upset word; an upset is kept, added to its word's, until something meets it. -/
def Obligations.RollsAndStorage : Prop :=
  (∀ (s : State), s.power = .up → s.cmdRunning 4 = true → s.roll.active = false →
    let e := s.cmdArg 4 0 4
    let l := rollOrder.filter fun n => s.live n && sGet 0 s.roll.epochs n ≠ e
    let t : State := { s with roll := { s.roll with active := true, epoch := e, left := l, visiting := [], lost := false, state := 1 } }
    GivesSettled .rollStart s ((t.setBit 0x08 8 true).rollGo 101)) ∧
  (∀ (s : State) (st t : Nat), s.power = .up → s.rollAt st = some t →
    (s.stationIdle st = true → GivesSettled (.rollStationQuiesced st) s
      ((((s.rollItems.foldl (fun s i => s.rollItem st i) s).rollEnd st).rollTake st).rollGo 101)) ∧
    (s.odNum 0x2F00 6 ≤ s.tk st - t → GivesSettled (.rollQuiesceTimeout st) s (s.rollOver 3 9 3))) ∧
  (∀ (s : State) (w : StoreWord) (n bits : Nat), s.power = .up →
    (s.bit 0x0C 2 = true → s.rcv.upsets.find? (fun u => u.1 = w) = some (w, n) →
      GivesSettled (.storageScrubVisit w) s (s.wordMet w n)) ∧
    ((∀ a, w ≠ .lineBuffer a) → s.rcv.upsets.find? (fun u => u.1 = w) = some (w, n) →
      let us := s.rcv.upsets.filter (fun u => u.1 ≠ w) ++ [(w, n + bits)]
      GivesSettled (.storageUpset (.word w bits)) s { s with rcv := { s.rcv with upsets := us } }) ∧
    ((∀ a, w ≠ .lineBuffer a) → s.rcv.upsets.find? (fun u => u.1 = w) = none →
      let us := s.rcv.upsets.filter (fun u => u.1 ≠ w) ++ [(w, bits)]
      GivesSettled (.storageUpset (.word w bits)) s { s with rcv := { s.rcv with upsets := us } }))

/-! ### Interfaces, attestation, keys -/

/-- TDISP (R354, R355): an unlocked interface of a configured partition with no peer access, with every stream secure, locks and
answers a nonce; a locked one starts; one that is not unlocked stops by a partition reset, in ERROR; its report lists BAR0 and
BAR2. -/
def Obligations.InterfaceStates : Prop :=
  ∀ (s : State) (vf : Nat), s.power = .up → 1 ≤ vf → vf ≤ 64 →
    (s.tdi (vf - 1) = 0 → s.configured (vf - 1) = true → s.bit (partReg (vf - 1) 0) 3 = false → s.ideSecure = true →
      let t : State := { s with freeSeq := s.freeSeq + 1 }
      GivesSettled (.lockInterface vf) s ((t.setTdi (vf - 1) 1).emit (.tdisp vf 3 (Config.random s.freeSeq 32)))) ∧
    (s.tdi (vf - 1) = 1 → GivesSettled (.startInterface vf) s ((s.setTdi (vf - 1) 2).emit (.tdisp vf 6 []))) ∧
    (s.tdi (vf - 1) ≠ 0 → GivesSettled (.stopInterface vf) s ((s.setTdi (vf - 1) 3).presetBegin (vf - 1) 2)) ∧
    (s.tdi (vf - 1) = 0 → GivesSettled (.stopInterface vf) s (s.emit (.tdisp vf 7 []))) ∧
    GivesSettled (.interfaceReport vf) s (s.emit (.tdisp vf 4 (leBytes 12 0 ++ leBytes 4 2 ++
      mmioRange (s.vfBar 0x184 + (vf - 1) * 0x100000) 0x100000 0 ++
      mmioRange (s.vfBar 0x18C + (vf - 1) * 0x400000) 0x400000 2 ++ leBytes 4 0)))

/-- The SPDM responder (R456): each request at or after its step answers, takes both messages into the transcript and moves the
responder on; a key exchange opens a session while fewer than eight are open; a FINISH that checks makes it secured; a secured
session answers heartbeats and key updates, and ends when asked. -/
def Obligations.SpdmResponder : Prop :=
  (∀ s : State, s.power = .up →
    GivesSettled .getVersion s (({ s with sec := { s.sec with spdm := 1, version := 0, transcript := [] } } : State).spdmAnswer
      0x84 [] 0x04 (leBytes 1 0x12 ++ leBytes 1 0x13)) ∧
    (1 ≤ s.sec.spdm → GivesSettled .getCapabilities s
      (({ s with sec := { s.sec with spdm := max s.sec.spdm 2 } } : State).spdmAnswer 0xE1 [] 0x61 spdmCaps)) ∧
    (∀ v, 2 ≤ s.sec.spdm → v = 0x12 ∨ v = 0x13 → GivesSettled (.negotiateAlgorithms v true) s
      (({ s with sec := { s.sec with spdm := 3, version := v } } : State).spdmAnswer 0xE3 (leBytes 1 v) 0x63 spdmAlgs))) ∧
  (∀ s : State, s.power = .up → 3 ≤ s.sec.spdm →
    let t : State := { s with freeSeq := s.freeSeq + 1 }
    let chain := s.fuses.certChain
    let dig := beBytes 48 (Config.sha384 chain).toNat
    GivesSettled .getDigests s (s.spdmAnswer 0x81 [] 0x01 (leBytes 1 1 ++ dig)) ∧
    (∀ o n, o < chain.length ∨ o = 0 →
      let b := (chain.drop o).take n
      GivesSettled (.getCertificate 0 o n) s (s.spdmAnswer 0x82 (leBytes 1 0 ++ leBytes 2 o ++ leBytes 2 n) 0x02
        (leBytes 2 b.length ++ leBytes 2 (chain.length - o - b.length) ++ b))) ∧
    (∀ nonce, GivesSettled (.challenge 0 nonce) s
      (t.spdmSigned 0x83 (leBytes 1 0 ++ beBytes 32 nonce.toNat) 0x03 (dig ++ Config.random s.freeSeq 32))) ∧
    (∀ i nonce, 1 ≤ i → i ≤ 7 →
      let u : State := { s with freeSeq := s.freeSeq + 2 }
      GivesSettled (.getMeasurements i nonce) s (u.spdmSigned 0xE0 (leBytes 1 i ++ beBytes 32 nonce.toNat) 0x60
        (leBytes 1 1 ++ u.spdmBlock i ((Config.free64 (s.freeSeq + 1)).getLsbD 0) ++ Config.random s.freeSeq 32))) ∧
    (∀ share, s.sec.sessions.length < 8 →
      let u := t.spdmSigned 0xE4 (beBytes 96 share.toNat) 0x64 (leBytes 2 s.freeSid ++ Config.random s.freeSeq 32 ++
        beBytes 96 (Config.ecdhShare (512 + s.freeSid) s.freeSeq).toNat)
      let x : Session := { sid := s.freeSid, th := Config.sha384 u.sec.transcript }
      GivesSettled (.keyExchange share) s { u with sec := { u.sec with sessions := u.sec.sessions ++ [x] } })) ∧
  (∀ (s : State) (sid : Nat) (x : Session), s.power = .up → s.session sid = some x →
    (x.secured = false →
      let u := s.spdmAnswer 0xE5 (leBytes 2 sid) 0x65 []
      GivesSettled (.finish sid true) s (u.setSession { x with secured := true, th := Config.sha384 u.sec.transcript })) ∧
    (x.secured = true →
      GivesSettled (.spdmHeartbeat sid) s (s.emit (.spdm 0x68 [])) ∧
      GivesSettled (.keyUpdate sid) s ((s.setSession { x with updates := x.updates + 1 }).emit (.spdm 0x69 [])) ∧
      GivesSettled (.endSession sid) s ((s.dropSession sid).emit (.spdm 0x6C []))))

/-- Binding, reports and peer keys (R457, R458, R459, R460, R461, R464): a secured session binds a configured partition that none
has bound, and then reads its report and moves its key slots on: a share for a slot's first or next key, the peer's share, the
commit, and the drop of what is not in use; the accepted KEYS_RETIRE empties every slot of the partition. -/
def Obligations.BindingAndPeerKeys : Prop :=
  (∀ (s : State) (sid p : Nat) (x : Session), s.power = .up → s.session sid = some x → x.secured = true →
    (p < 64 → s.configured p = true → s.boundTo p = none →
      GivesSettled (.bind sid p) s ((s.setSession { x with bound := some p }).vendor 0 0 [])) ∧
    (∀ nonce, x.bound = some p → GivesSettled (.getReport sid nonce) s (s.vendor 0 0 (s.report p (beBytes 32 nonce.toNat)))) ∧
    (∀ node rp k, x.bound = some p → node < 2 ^ 14 → rp < 64 → node ≠ s.odNum 0x6000 1 →
      (List.range 512).find? (fun k => s.keyState k ≠ 0 && getBits (s.keyWord k) 3 6 = p && getBits (s.keyWord k) 9 14 = node)
        = some k → getBits (s.keyWord k) 23 6 = rp → s.keyState k = 2 →
      GivesSettled (.peerShareGet sid node rp) s ((s.keyTo k 3 (s.keyGen k + 1)).shareAnswer k)) ∧
    (∀ node rp k, x.bound = some p → node < 2 ^ 14 → rp < 64 → node ≠ s.odNum 0x6000 1 →
      (List.range 512).find? (fun k => s.keyState k ≠ 0 && getBits (s.keyWord k) 3 6 = p && getBits (s.keyWord k) 9 14 = node)
        = none → (List.range 512).find? (fun k => s.keyState k = 0) = some k →
      let t : State := { s with freeSeq := s.freeSeq + 1 }
      GivesSettled (.peerShareGet sid node rp) s
        ((t.setKey k 1 p node rp ((Config.free64 s.freeSeq).toNat % 8)).shareAnswer k)) ∧
    (∀ k share, x.bound = some p → k < 512 → getBits (s.keyWord k) 3 6 = p →
      (s.keyState k = 1 → GivesSettled (.peerShareSet sid k (s.keyGen k) share) s
        ((((s.keyTo k 2 (s.keyGen k)).keyFresh k).setMat k { cur := s.newKey k share }).vendor 0 0 [])) ∧
      (s.keyState k = 3 → GivesSettled (.peerShareSet sid k (s.keyGen k) share) s
        (((s.keyTo k 4 (s.keyGen k)).setMat k { s.keyMat k with share := none, next := s.newKey k share }).vendor 0 0 [])) ∧
      (s.keyState k = 4 → GivesSettled (.peerKeyCommit sid k (s.keyGen k)) s
        (((s.keyTo k 5 (s.keyGen k)).keyFresh k).vendor 0 0 [])) ∧
      (s.keyState k = 1 ∨ s.keyState k = 2 → GivesSettled (.peerKeyRetire sid k (s.keyGen k)) s ((s.keyDrop k).vendor 0 0 [])) ∧
      (s.keyState k = 5 → GivesSettled (.peerKeyRetire sid k (s.keyGen k)) s
        (((s.keyTo k 2 (s.keyGen k)).setMat k { cur := (s.keyMat k).next }).vendor 0 0 [])))) ∧
  (∀ (s : State) (rid : Nat), s.power = .up →
    ((s.ownReq .own fun i b _ => 0x9100 ≤ i && i < 0x9140 && b = 1) = some rid →
      Gives .reportSign s (s.captureReply rid (s.report ((s.reqr rid).index - 0x9100)
        (s.odBlob (0x4000 + ((s.reqr rid).index - 0x9100)) 0x20)))) ∧
    ((s.ownReq .own fun i b _ => 0x4000 ≤ i && i < 0x4040 && b = 0x30) = some rid →
      Gives .keysRetire s (((List.range 512).foldl (fun t k =>
        if t.keyState k ≠ 0 ∧ getBits (t.keyWord k) 3 6 = (s.reqr rid).index - 0x4000 then t.keyDrop k else t) s).complete rid .ok 0 [])))

/-! ### Telemetry and awl -/

/-- Telemetry (R44, R450, R519, R520, R521), each after its interval: a window's end restarts the byte counts of its pommel or
cantle; an estimate of a station in service is taken up; a rate window's end restarts a station's trace rate; a trace HEAD is
judged as the error queue's. -/
def Obligations.Telemetry : Prop :=
  (∀ (s : State) (st : Nat), s.power = .up →
    (80 ≤ st → st < 100 → s.timerDue .rateShare st st 256 = true → GivesSettled (.rateShareWindow st) s
      { s.timerSet .rateShare st st with tel := { s.tel with window := s.tel.window.filter fun e => e.1 / 64 ≠ st } }) ∧
    (st < 100 → s.timerDue .trace st st 1000 = true → GivesSettled (.traceRateWindow st) s
      { s.timerSet .trace st st with tel := { s.tel with traceRate := sDel s.tel.traceRate st } }) ∧
    (∀ mw temp mv, st < 100 → s.present st = true → s.lame st = false →
      (s.timerDue .power st st 10000 = true →
        GivesSettled (.powerEstimate st mw temp mv) s ((s.timerSet .power st st).estimate st mw temp mv)) ∧
      (s.estimate st mw temp mv).odNum 0xA000 2 ≤ 300000)) ∧
  (∀ (s : State) (v : W32), s.power = .up → (v - s.rd 0x304).toNat < 2 ^ 31 →
    ((v - s.rd 0x304).toNat ≤ (s.rd 0x308 - s.rd 0x304).toNat → (s.wr 0x304 v).traceHigh = true →
      GivesSettled (.traceHeadWrite v) s (s.wr 0x304 v)) ∧
    ((v - s.rd 0x304).toNat ≤ (s.rd 0x308 - s.rd 0x304).toNat → (s.wr 0x304 v).traceHigh = false →
      let t := s.wr 0x304 v
      GivesSettled (.traceHeadWrite v) s { t with tel := { t.tel with traceArmed := true } }) ∧
    ((s.rd 0x308 - s.rd 0x304).toNat < (v - s.rd 0x304).toNat →
      GivesSettled (.traceHeadWrite v) s (s.raise 0x30C 1 0x314)))

/-- Awl (R523, R524, R525): ATTACH over a route that reaches the block, with no other attached, takes the attachment; over it a core
is halted, resumed and stepped, words are read and written, and DETACH, or the idle bound, ends it; every other request from a
route that is not attached is DENIED. -/
def Obligations.AwlPort : Prop :=
  (∀ (s t : State) (r : AwlRoute), s.power = .up → s.awlReach r = true → t = s.inc 0x384 →
    (s.tel.awlRoute ≠ some (!awlMgmt r) →
      let u : State := { t with tel := { t.tel with awlRoute := some (awlMgmt r), awlLast := t.tk 80 } }
      let v := u.wr 0x380 (BitVec.ofNat 32 (5 + 2 * b2n (awlMgmt r)))
      GivesSettled (.attach r) s (((v.setBit 0x2000 2 true).setBit 0x2000 3 true).awlSay r 0 0 0 0)) ∧
    (s.tel.awlRoute ≠ some (awlMgmt r) → GivesSettled (.detach r) s (t.awlSay r 4 0 0 0))) ∧
  (∀ (s m t : State) (r : AwlRoute), s.power = .up → s.awlReach r = true → s.tel.awlRoute = some (awlMgmt r) →
    m = s.inc 0x384 → t = { m with tel := { m.tel with awlLast := m.tk 80 } } →
    GivesSettled (.detach r) s (t.awlEnd.awlSay r 0 0 0 0) ∧
    (∀ st c, st < 100 → c < 8 → t.awlCore st c = true →
      (t.halted st c = false → (t.takeover st c).isSome = true →
        let sups := t.supsAt fun x => x = (st, c)
        let u := ((t.moveDuties st c).leaseEnd 1 (st * 8 + c)).setBit (0x390 + st / 4 * 4) (st % 4 * 8 + c) true
        GivesSettled (.halt r st c) s (((if sups = [] then u else u.handover sups).awlTouch st).awlSay r 0 0 0 0)) ∧
      (t.halted st c = true →
        GivesSettled (.awlResume r st c) s ((t.awlWake st c).awlSay r 0 0 0 0) ∧
        GivesSettled (.step r st c) s ((t.awlTouch st).awlSay r 0 0 0 0) ∧
        (∀ a v : W32, awlAddrOk a = true → getBits a 28 4 ≠ 3 → t.fuses.prodLocked = false →
          GivesSettled (.awlWrite r st c a v) s ((t.awlTouch st).awlSay r 0 0 a 0)) ∧
        (∀ a : W32, awlAddrOk a = true → getBits a 28 4 ≠ 3 →
          let u : State := { t with freeSeq := t.freeSeq + 1 }
          GivesSettled (.awlRead r st c a) s ((u.awlTouch st).awlSay r 0 0 a ((Config.free64 t.freeSeq).setWidth 32))))) ∧
    (∀ st c (a v : W32), st < 100 → c < 8 → awlAddrOk a = true → getBits a 28 4 = 3 →
      GivesSettled (.awlRead r st c a) s
        ((t.pageRead st (getBits a 0 28)).2.awlSay r 0 0 a (t.pageRead st (getBits a 0 28)).1) ∧
      GivesSettled (.awlWrite r st c a v) s
        ((t.pageWrite 0 (pageOf st + getBits a 0 28) st (getBits a 0 28) v).awlSay r 0 0 a 0))) ∧
  (∀ s : State, s.power = .up → s.tel.awlRoute.isSome = true → s.odNum 0xA000 0x20 ≤ s.tk 80 - s.tel.awlLast →
    GivesSettled .awlIdleDetach s (s.awlEnd.inc 0x388))

/-! ### Judgements and formats that the spec's tables give -/

/-- The verdict of a link (R484): a host port is PASS_FULL with all 4 modules usable, PASS_NARROW with 1 to 3 and FAIL with none; a
cantle port is PASS_FULL where all 8 lanes pass with no uncorrectable codeword, and FAIL otherwise; a module is usable when its
failed data lanes number no more than its passing spares and no more than 4. -/
def Obligations.LinkVerdicts : Prop :=
  (∀ (exp : Nat) (m : PortMeas), m.lanes.length = 272 →
    let usable (i : Nat) : Prop :=
      let l := ((m.lanes.drop (68 * i)).take 68).map (laneResult exp)
      ((l.take 64).filter (· ≠ 1)).length ≤ ((l.drop 64).filter (· = 1)).length ∧ ((l.take 64).filter (· ≠ 1)).length ≤ 4
    ((judgeHost exp m).verdict = 1 ↔ usable 0 ∧ usable 1 ∧ usable 2 ∧ usable 3) ∧
    ((judgeHost exp m).verdict = 3 ↔ ¬ usable 0 ∧ ¬ usable 1 ∧ ¬ usable 2 ∧ ¬ usable 3) ∧
    ((judgeHost exp m).verdict = 1 ∨ (judgeHost exp m).verdict = 2 ∨ (judgeHost exp m).verdict = 3)) ∧
  (∀ (exp : Nat) (m : PortMeas), m.lanes.length = 8 →
    ((judgeCantle exp m).verdict = 1 ↔ (∀ l ∈ m.lanes, laneResult exp l = 1) ∧ m.uncorrectable = 0) ∧
    ((judgeCantle exp m).verdict = 1 ∨ (judgeCantle exp m).verdict = 3))

/-- Decoding a block-scaled source (R292): element j of a block is what its code stands for, times 2 to the scale less 127; of
MXINT8 a code stands for the signed integer times 2^-6; a scale byte of 0xFF makes every element of its block a NaN. -/
def Obligations.BlockScaledDecode : Prop :=
  (∀ (f b j : Nat) (bs : Bytes) (pz : List Bool), isBlock f = true → b < bs.length / unitBytes f → j < 32 →
    let n := bs.length / unitBytes f
    let scale := (bs.getD (n * (4 * elemBits f) + b) 0).toNat
    let code := leNat ((bs.drop (b * (4 * elemBits f))).take (4 * elemBits f)) / 2 ^ (elemBits f * j) % 2 ^ elemBits f
    let el := ((decodeRow f bs pz)[32 * b + j]?).map Prod.fst
    (scale = 0xFF → el = some .nan) ∧
    (scale ≠ 0xFF → el = some ((elemDecode f code).scale ((scale : Int) - 127)))) ∧
  (∀ (neg : Bool) (m : Nat) (e k : Int), (Num.fin neg m e).scale k = .fin neg m (e + k)) ∧
  (∀ v < 256, elemDecode 0x15 v = if v < 128 then .fin false v (-6) else .fin true (256 - v) (-6))

end
end

