-- ==== Sys2Proof/Laws/Smap.lean ====
section
/-! SUPPORT. Laws of sparse maps: a read after a write, the frame of a write, and the canonical form that every
operation keeps. -/

namespace Sys2Proof.Machine

variable {β : Type}

@[simp] theorem sFind_nil (k : Nat) : sFind ([] : Smap β) k = none := rfl

@[simp] theorem sFind_sIns_self (m : Smap β) (k : Nat) (v : β) : sFind (sIns m k v) k = some v := by
  induction m with
  | nil => simp [sIns, sFind]
  | cons p m ih =>
    obtain ⟨j, w⟩ := p
    simp only [sIns]
    split
    · simp [sFind]
    · split
      · simp [sFind]
      · simp [sFind, *]

theorem sFind_sIns_ne (m : Smap β) {k j : Nat} (v : β) (h : j ≠ k) : sFind (sIns m k v) j = sFind m j := by
  induction m with
  | nil => simp [sIns, sFind, Ne.symm h]
  | cons p m ih =>
    obtain ⟨i, w⟩ := p
    simp only [sIns]
    split
    · subst_vars; simp [sFind, Ne.symm h]
    · split
      · simp [sFind, Ne.symm h]
      · simp [sFind, ih]

@[simp] theorem sFind_sDel_self (m : Smap β) (k : Nat) : sFind (sDel m k) k = none := by
  induction m with
  | nil => rfl
  | cons p m ih =>
    obtain ⟨j, w⟩ := p
    simp only [sDel]
    split
    · exact ih
    · simp [sFind, *]

theorem sFind_sDel_ne (m : Smap β) {k j : Nat} (h : j ≠ k) : sFind (sDel m k) j = sFind m j := by
  induction m with
  | nil => rfl
  | cons p m ih =>
    obtain ⟨i, w⟩ := p
    simp only [sDel]
    split
    · subst_vars; simp [sFind, Ne.symm h, ih]
    · simp [sFind, ih]

section
variable [DecidableEq β]

/-- What key `k` holds after it was set. -/
@[simp] theorem sGet_sPut_self (d : β) (m : Smap β) (k : Nat) (v : β) : sGet d (sPut d m k v) k = v := by
  unfold sPut sGet
  split <;> simp [*]

/-- Setting one key leaves every other as it was. -/
theorem sGet_sPut_ne (d e : β) (m : Smap β) {k j : Nat} (v : β) (h : j ≠ k) : sGet e (sPut d m k v) j = sGet e m j := by
  unfold sPut sGet
  split
  · rw [sFind_sDel_ne m h]
  · rw [sFind_sIns_ne m v h]

theorem sGet_sPut (d : β) (m : Smap β) (k j : Nat) (v : β) :
    sGet d (sPut d m k v) j = if j = k then v else sGet d m j := by
  split
  · subst_vars; simp
  · exact sGet_sPut_ne d d m v ‹_›

theorem sFind_sPut_ne (d : β) (m : Smap β) {k j : Nat} (v : β) (h : j ≠ k) : sFind (sPut d m k v) j = sFind m j := by
  unfold sPut
  split
  · exact sFind_sDel_ne m h
  · exact sFind_sIns_ne m v h

theorem sFind_sPut_self (d : β) (m : Smap β) (k : Nat) (v : β) :
    sFind (sPut d m k v) k = if v = d then none else some v := by
  unfold sPut
  split <;> simp

end

/-! ### The canonical form -/

theorem sSorted_mono {lo lo' : Option Nat} {m : Smap β} (h : sSorted lo m = true)
    (hl : ∀ l, lo' = some l → ∃ l', lo = some l' ∧ l ≤ l') : sSorted lo' m = true := by
  cases m with
  | nil => rfl
  | cons p m =>
    obtain ⟨j, w⟩ := p
    simp only [sSorted, Bool.and_eq_true] at h ⊢
    refine ⟨?_, h.2⟩
    cases lo' with
    | none => rfl
    | some l =>
      obtain ⟨l', rfl, hle⟩ := hl l rfl
      have := h.1
      simp at this ⊢
      omega

theorem sSorted_none {lo : Option Nat} {m : Smap β} (h : sSorted lo m = true) : sSorted none m = true :=
  sSorted_mono h (by simp)

/-- Inserting keeps the keys rising. -/
theorem sSorted_sIns {lo : Option Nat} {m : Smap β} (h : sSorted lo m = true) (k : Nat) (v : β)
    (hk : ∀ l, lo = some l → l < k) : sSorted lo (sIns m k v) = true := by
  induction m generalizing lo with
  | nil =>
    cases lo with
    | none => rfl
    | some l => simp [sIns, sSorted, hk l rfl]
  | cons p m ih =>
    obtain ⟨j, w⟩ := p
    simp only [sIns]
    simp only [sSorted, Bool.and_eq_true] at h
    split
    · subst_vars; simp [sSorted, h.1, h.2]
    · split
      · have hj : sSorted (some k) ((j, w) :: m) = true := by simp [sSorted, h.2, *]
        cases lo with
        | none => simpa [sSorted] using hj
        | some l => simp [sSorted, hk l rfl, h.2, *]
      · simp only [sSorted, Bool.and_eq_true]
        refine ⟨h.1, ih h.2 ?_⟩
        intro l hl
        cases hl
        omega

/-- Removing keeps the keys rising. -/
theorem sSorted_sDel {lo : Option Nat} {m : Smap β} (h : sSorted lo m = true) (k : Nat) :
    sSorted lo (sDel m k) = true := by
  induction m generalizing lo with
  | nil => rfl
  | cons p m ih =>
    obtain ⟨j, w⟩ := p
    simp only [sSorted, Bool.and_eq_true] at h
    simp only [sDel]
    split
    · refine ih (sSorted_mono h.2 ?_)
      intro l hl
      subst hl
      exact ⟨j, rfl, by have := h.1; simp at this; omega⟩
    · simp [sSorted, h.1, ih h.2]

theorem all_sIns (f : Nat × β → Bool) (m : Smap β) (k : Nat) (v : β) (h : m.all f = true) (hv : f (k, v) = true) :
    (sIns m k v).all f = true := by
  induction m with
  | nil => simp [sIns, hv]
  | cons p m ih =>
    obtain ⟨j, w⟩ := p
    simp only [List.all_cons, Bool.and_eq_true] at h
    simp only [sIns]
    split
    · simp only [List.all_cons, Bool.and_eq_true]; exact ⟨hv, h.2⟩
    · split
      · simp only [List.all_cons, Bool.and_eq_true]; exact ⟨hv, h.1, h.2⟩
      · simp only [List.all_cons, Bool.and_eq_true]; exact ⟨h.1, ih h.2⟩

theorem all_sDel (f : Nat × β → Bool) (m : Smap β) (k : Nat) (h : m.all f = true) : (sDel m k).all f = true := by
  induction m with
  | nil => rfl
  | cons p m ih =>
    obtain ⟨j, w⟩ := p
    simp only [List.all_cons, Bool.and_eq_true] at h
    simp only [sDel]
    split
    · exact ih h.2
    · simp only [List.all_cons, Bool.and_eq_true]; exact ⟨h.1, ih h.2⟩

section
variable [DecidableEq β]

@[simp] theorem sWf_nil (d : β) : sWf d ([] : Smap β) = true := rfl

/-- Setting a key keeps the canonical form. -/
theorem sWf_sPut {d : β} {m : Smap β} (h : sWf d m = true) (k : Nat) (v : β) : sWf d (sPut d m k v) = true := by
  unfold sWf at *
  simp only [Bool.and_eq_true] at h ⊢
  unfold sPut
  split
  · exact ⟨sSorted_sDel h.1 k, all_sDel _ m k h.2⟩
  · refine ⟨sSorted_sIns h.1 k v (by simp), all_sIns _ m k v h.2 ?_⟩
    simpa using ‹¬ v = d›

end

/-! ### Bytes -/

/-- Writing bytes keeps the canonical form. -/
theorem sWf_wrBytes {m : Smap Byte} (h : sWf 0 m = true) (a : Nat) (bs : Bytes) : sWf 0 (wrBytes m a bs) = true := by
  induction bs generalizing m a with
  | nil => exact h
  | cons b bs ih => exact ih (sWf_sPut h a b) (a + 1)

/-- What an address holds after bytes were written at `a`. -/
theorem sGet_wrBytes (m : Smap Byte) (a j : Nat) (bs : Bytes) :
    sGet 0 (wrBytes m a bs) j = if h : a ≤ j ∧ j < a + bs.length then bs[j - a]'(by omega) else sGet 0 m j := by
  induction bs generalizing m a with
  | nil => simp [wrBytes] <;> omega
  | cons b bs ih =>
    simp only [wrBytes, ih, List.length_cons, sGet_sPut]
    by_cases h1 : a + 1 ≤ j ∧ j < a + 1 + bs.length
    · have h2 : a ≤ j ∧ j < a + (bs.length + 1) := by omega
      have h3 : j - a = (j - (a + 1)) + 1 := by omega
      rw [dif_pos h1, dif_pos h2]
      simp [h3]
    · rw [dif_neg h1]
      by_cases h2 : j = a
      · subst h2; simp
      · have h3 : ¬ (a ≤ j ∧ j < a + (bs.length + 1)) := by omega
        rw [dif_neg h3, if_neg h2]

/-- Every byte outside those written is as before. -/
theorem sGet_wrBytes_out (m : Smap Byte) (a j : Nat) (bs : Bytes) (h : j < a ∨ a + bs.length ≤ j) :
    sGet 0 (wrBytes m a bs) j = sGet 0 m j := by
  rw [sGet_wrBytes, dif_neg (by omega)]

/-- Bytes read where they were written are those bytes. -/
theorem rdBytes_wrBytes (m : Smap Byte) (a : Nat) (bs : Bytes) : rdBytes (wrBytes m a bs) a bs.length = bs := by
  have key : ∀ (n i : Nat), i + n = bs.length → rdBytes (wrBytes m a bs) (a + i) n = bs.drop i := by
    intro n
    induction n with
    | zero => intro i hi; simp [rdBytes]; omega
    | succ n ih =>
      intro i hi
      have hlt : i < bs.length := by omega
      rw [rdBytes, Nat.add_assoc, ih (i + 1) (by omega), sGet_wrBytes, dif_pos (by omega)]
      rw [List.drop_eq_getElem_cons hlt]
      simp
  simpa using key bs.length 0 (by omega)

end Sys2Proof.Machine
end

