-- ==== Sys2Proof/Laws/State.lean ====
section
/-! SUPPORT. What each named update of the state leaves as it was: one lemma for each field. -/

namespace Sys2Proof.Machine

/-! ### State.emit -/

@[simp] theorem State.emit_pending (s : State) (m : OutMsg) : (s.emit m).pending = s.pending := rfl
@[simp] theorem State.emit_freeSeq (s : State) (m : OutMsg) : (s.emit m).freeSeq = s.freeSeq := rfl
@[simp] theorem State.emit_power (s : State) (m : OutMsg) : (s.emit m).power = s.power := rfl
@[simp] theorem State.emit_ticks (s : State) (m : OutMsg) : (s.emit m).ticks = s.ticks := rfl
@[simp] theorem State.emit_clk (s : State) (m : OutMsg) : (s.emit m).clk = s.clk := rfl
@[simp] theorem State.emit_pins (s : State) (m : OutMsg) : (s.emit m).pins = s.pins := rfl
@[simp] theorem State.emit_fuses (s : State) (m : OutMsg) : (s.emit m).fuses = s.fuses := rfl
@[simp] theorem State.emit_regs (s : State) (m : OutMsg) : (s.emit m).regs = s.regs := rfl
@[simp] theorem State.emit_odv (s : State) (m : OutMsg) : (s.emit m).odv = s.odv := rfl
@[simp] theorem State.emit_odb (s : State) (m : OutMsg) : (s.emit m).odb = s.odb := rfl
@[simp] theorem State.emit_tags (s : State) (m : OutMsg) : (s.emit m).tags = s.tags := rfl
@[simp] theorem State.emit_wear (s : State) (m : OutMsg) : (s.emit m).wear = s.wear := rfl
@[simp] theorem State.emit_led (s : State) (m : OutMsg) : (s.emit m).led = s.led := rfl
@[simp] theorem State.emit_gw (s : State) (m : OutMsg) : (s.emit m).gw = s.gw := rfl
@[simp] theorem State.emit_nodes (s : State) (m : OutMsg) : (s.emit m).nodes = s.nodes := rfl
@[simp] theorem State.emit_mgmt (s : State) (m : OutMsg) : (s.emit m).mgmt = s.mgmt := rfl
@[simp] theorem State.emit_bu (s : State) (m : OutMsg) : (s.emit m).bu = s.bu := rfl
@[simp] theorem State.emit_d2d (s : State) (m : OutMsg) : (s.emit m).d2d = s.d2d := rfl
@[simp] theorem State.emit_bkl (s : State) (m : OutMsg) : (s.emit m).bkl = s.bkl := rfl
@[simp] theorem State.emit_rcv (s : State) (m : OutMsg) : (s.emit m).rcv = s.rcv := rfl
@[simp] theorem State.emit_roll (s : State) (m : OutMsg) : (s.emit m).roll = s.roll := rfl
@[simp] theorem State.emit_dev (s : State) (m : OutMsg) : (s.emit m).dev = s.dev := rfl
@[simp] theorem State.emit_host (s : State) (m : OutMsg) : (s.emit m).host = s.host := rfl
@[simp] theorem State.emit_own (s : State) (m : OutMsg) : (s.emit m).own = s.own := rfl
@[simp] theorem State.emit_cs (s : State) (m : OutMsg) : (s.emit m).cs = s.cs := rfl
@[simp] theorem State.emit_qs (s : State) (m : OutMsg) : (s.emit m).qs = s.qs := rfl
@[simp] theorem State.emit_x (s : State) (m : OutMsg) : (s.emit m).x = s.x := rfl
@[simp] theorem State.emit_acc (s : State) (m : OutMsg) : (s.emit m).acc = s.acc := rfl
@[simp] theorem State.emit_flt (s : State) (m : OutMsg) : (s.emit m).flt = s.flt := rfl
@[simp] theorem State.emit_res (s : State) (m : OutMsg) : (s.emit m).res = s.res := rfl
@[simp] theorem State.emit_dma (s : State) (m : OutMsg) : (s.emit m).dma = s.dma := rfl
@[simp] theorem State.emit_cw (s : State) (m : OutMsg) : (s.emit m).cw = s.cw := rfl
@[simp] theorem State.emit_ep (s : State) (m : OutMsg) : (s.emit m).ep = s.ep := rfl
@[simp] theorem State.emit_peer (s : State) (m : OutMsg) : (s.emit m).peer = s.peer := rfl
@[simp] theorem State.emit_sec (s : State) (m : OutMsg) : (s.emit m).sec = s.sec := rfl
@[simp] theorem State.emit_orph (s : State) (m : OutMsg) : (s.emit m).orph = s.orph := rfl
@[simp] theorem State.emit_tel (s : State) (m : OutMsg) : (s.emit m).tel = s.tel := rfl

/-! ### State.putTrip -/

@[simp] theorem State.putTrip_pending (s : State) (off : Nat) (t : Trip) : (s.putTrip off t).pending = s.pending := rfl
@[simp] theorem State.putTrip_freeSeq (s : State) (off : Nat) (t : Trip) : (s.putTrip off t).freeSeq = s.freeSeq := rfl
@[simp] theorem State.putTrip_out (s : State) (off : Nat) (t : Trip) : (s.putTrip off t).out = s.out := rfl
@[simp] theorem State.putTrip_power (s : State) (off : Nat) (t : Trip) : (s.putTrip off t).power = s.power := rfl
@[simp] theorem State.putTrip_ticks (s : State) (off : Nat) (t : Trip) : (s.putTrip off t).ticks = s.ticks := rfl
@[simp] theorem State.putTrip_clk (s : State) (off : Nat) (t : Trip) : (s.putTrip off t).clk = s.clk := rfl
@[simp] theorem State.putTrip_pins (s : State) (off : Nat) (t : Trip) : (s.putTrip off t).pins = s.pins := rfl
@[simp] theorem State.putTrip_fuses (s : State) (off : Nat) (t : Trip) : (s.putTrip off t).fuses = s.fuses := rfl
@[simp] theorem State.putTrip_odv (s : State) (off : Nat) (t : Trip) : (s.putTrip off t).odv = s.odv := rfl
@[simp] theorem State.putTrip_odb (s : State) (off : Nat) (t : Trip) : (s.putTrip off t).odb = s.odb := rfl
@[simp] theorem State.putTrip_tags (s : State) (off : Nat) (t : Trip) : (s.putTrip off t).tags = s.tags := rfl
@[simp] theorem State.putTrip_wear (s : State) (off : Nat) (t : Trip) : (s.putTrip off t).wear = s.wear := rfl
@[simp] theorem State.putTrip_led (s : State) (off : Nat) (t : Trip) : (s.putTrip off t).led = s.led := rfl
@[simp] theorem State.putTrip_gw (s : State) (off : Nat) (t : Trip) : (s.putTrip off t).gw = s.gw := rfl
@[simp] theorem State.putTrip_nodes (s : State) (off : Nat) (t : Trip) : (s.putTrip off t).nodes = s.nodes := rfl
@[simp] theorem State.putTrip_mgmt (s : State) (off : Nat) (t : Trip) : (s.putTrip off t).mgmt = s.mgmt := rfl
@[simp] theorem State.putTrip_bu (s : State) (off : Nat) (t : Trip) : (s.putTrip off t).bu = s.bu := rfl
@[simp] theorem State.putTrip_d2d (s : State) (off : Nat) (t : Trip) : (s.putTrip off t).d2d = s.d2d := rfl
@[simp] theorem State.putTrip_bkl (s : State) (off : Nat) (t : Trip) : (s.putTrip off t).bkl = s.bkl := rfl
@[simp] theorem State.putTrip_rcv (s : State) (off : Nat) (t : Trip) : (s.putTrip off t).rcv = s.rcv := rfl
@[simp] theorem State.putTrip_roll (s : State) (off : Nat) (t : Trip) : (s.putTrip off t).roll = s.roll := rfl
@[simp] theorem State.putTrip_dev (s : State) (off : Nat) (t : Trip) : (s.putTrip off t).dev = s.dev := rfl
@[simp] theorem State.putTrip_host (s : State) (off : Nat) (t : Trip) : (s.putTrip off t).host = s.host := rfl
@[simp] theorem State.putTrip_own (s : State) (off : Nat) (t : Trip) : (s.putTrip off t).own = s.own := rfl
@[simp] theorem State.putTrip_cs (s : State) (off : Nat) (t : Trip) : (s.putTrip off t).cs = s.cs := rfl
@[simp] theorem State.putTrip_qs (s : State) (off : Nat) (t : Trip) : (s.putTrip off t).qs = s.qs := rfl
@[simp] theorem State.putTrip_x (s : State) (off : Nat) (t : Trip) : (s.putTrip off t).x = s.x := rfl
@[simp] theorem State.putTrip_acc (s : State) (off : Nat) (t : Trip) : (s.putTrip off t).acc = s.acc := rfl
@[simp] theorem State.putTrip_flt (s : State) (off : Nat) (t : Trip) : (s.putTrip off t).flt = s.flt := rfl
@[simp] theorem State.putTrip_res (s : State) (off : Nat) (t : Trip) : (s.putTrip off t).res = s.res := rfl
@[simp] theorem State.putTrip_dma (s : State) (off : Nat) (t : Trip) : (s.putTrip off t).dma = s.dma := rfl
@[simp] theorem State.putTrip_cw (s : State) (off : Nat) (t : Trip) : (s.putTrip off t).cw = s.cw := rfl
@[simp] theorem State.putTrip_ep (s : State) (off : Nat) (t : Trip) : (s.putTrip off t).ep = s.ep := rfl
@[simp] theorem State.putTrip_peer (s : State) (off : Nat) (t : Trip) : (s.putTrip off t).peer = s.peer := rfl
@[simp] theorem State.putTrip_sec (s : State) (off : Nat) (t : Trip) : (s.putTrip off t).sec = s.sec := rfl
@[simp] theorem State.putTrip_orph (s : State) (off : Nat) (t : Trip) : (s.putTrip off t).orph = s.orph := rfl
@[simp] theorem State.putTrip_tel (s : State) (off : Nat) (t : Trip) : (s.putTrip off t).tel = s.tel := rfl

/-! ### State.wr -/

@[simp] theorem State.wr_pending (s : State) (off : Nat) (v : W32) : (s.wr off v).pending = s.pending := rfl
@[simp] theorem State.wr_freeSeq (s : State) (off : Nat) (v : W32) : (s.wr off v).freeSeq = s.freeSeq := rfl
@[simp] theorem State.wr_out (s : State) (off : Nat) (v : W32) : (s.wr off v).out = s.out := rfl
@[simp] theorem State.wr_power (s : State) (off : Nat) (v : W32) : (s.wr off v).power = s.power := rfl
@[simp] theorem State.wr_ticks (s : State) (off : Nat) (v : W32) : (s.wr off v).ticks = s.ticks := rfl
@[simp] theorem State.wr_clk (s : State) (off : Nat) (v : W32) : (s.wr off v).clk = s.clk := rfl
@[simp] theorem State.wr_pins (s : State) (off : Nat) (v : W32) : (s.wr off v).pins = s.pins := rfl
@[simp] theorem State.wr_fuses (s : State) (off : Nat) (v : W32) : (s.wr off v).fuses = s.fuses := rfl
@[simp] theorem State.wr_odv (s : State) (off : Nat) (v : W32) : (s.wr off v).odv = s.odv := rfl
@[simp] theorem State.wr_odb (s : State) (off : Nat) (v : W32) : (s.wr off v).odb = s.odb := rfl
@[simp] theorem State.wr_tags (s : State) (off : Nat) (v : W32) : (s.wr off v).tags = s.tags := rfl
@[simp] theorem State.wr_wear (s : State) (off : Nat) (v : W32) : (s.wr off v).wear = s.wear := rfl
@[simp] theorem State.wr_led (s : State) (off : Nat) (v : W32) : (s.wr off v).led = s.led := rfl
@[simp] theorem State.wr_gw (s : State) (off : Nat) (v : W32) : (s.wr off v).gw = s.gw := rfl
@[simp] theorem State.wr_nodes (s : State) (off : Nat) (v : W32) : (s.wr off v).nodes = s.nodes := rfl
@[simp] theorem State.wr_mgmt (s : State) (off : Nat) (v : W32) : (s.wr off v).mgmt = s.mgmt := rfl
@[simp] theorem State.wr_bu (s : State) (off : Nat) (v : W32) : (s.wr off v).bu = s.bu := rfl
@[simp] theorem State.wr_d2d (s : State) (off : Nat) (v : W32) : (s.wr off v).d2d = s.d2d := rfl
@[simp] theorem State.wr_bkl (s : State) (off : Nat) (v : W32) : (s.wr off v).bkl = s.bkl := rfl
@[simp] theorem State.wr_rcv (s : State) (off : Nat) (v : W32) : (s.wr off v).rcv = s.rcv := rfl
@[simp] theorem State.wr_roll (s : State) (off : Nat) (v : W32) : (s.wr off v).roll = s.roll := rfl
@[simp] theorem State.wr_dev (s : State) (off : Nat) (v : W32) : (s.wr off v).dev = s.dev := rfl
@[simp] theorem State.wr_host (s : State) (off : Nat) (v : W32) : (s.wr off v).host = s.host := rfl
@[simp] theorem State.wr_own (s : State) (off : Nat) (v : W32) : (s.wr off v).own = s.own := rfl
@[simp] theorem State.wr_cs (s : State) (off : Nat) (v : W32) : (s.wr off v).cs = s.cs := rfl
@[simp] theorem State.wr_qs (s : State) (off : Nat) (v : W32) : (s.wr off v).qs = s.qs := rfl
@[simp] theorem State.wr_x (s : State) (off : Nat) (v : W32) : (s.wr off v).x = s.x := rfl
@[simp] theorem State.wr_acc (s : State) (off : Nat) (v : W32) : (s.wr off v).acc = s.acc := rfl
@[simp] theorem State.wr_flt (s : State) (off : Nat) (v : W32) : (s.wr off v).flt = s.flt := rfl
@[simp] theorem State.wr_res (s : State) (off : Nat) (v : W32) : (s.wr off v).res = s.res := rfl
@[simp] theorem State.wr_dma (s : State) (off : Nat) (v : W32) : (s.wr off v).dma = s.dma := rfl
@[simp] theorem State.wr_cw (s : State) (off : Nat) (v : W32) : (s.wr off v).cw = s.cw := rfl
@[simp] theorem State.wr_ep (s : State) (off : Nat) (v : W32) : (s.wr off v).ep = s.ep := rfl
@[simp] theorem State.wr_peer (s : State) (off : Nat) (v : W32) : (s.wr off v).peer = s.peer := rfl
@[simp] theorem State.wr_sec (s : State) (off : Nat) (v : W32) : (s.wr off v).sec = s.sec := rfl
@[simp] theorem State.wr_orph (s : State) (off : Nat) (v : W32) : (s.wr off v).orph = s.orph := rfl
@[simp] theorem State.wr_tel (s : State) (off : Nat) (v : W32) : (s.wr off v).tel = s.tel := rfl

/-! ### State.setFld -/

@[simp] theorem State.setFld_pending (s : State) (off lo w x : Nat) : (s.setFld off lo w x).pending = s.pending := rfl
@[simp] theorem State.setFld_freeSeq (s : State) (off lo w x : Nat) : (s.setFld off lo w x).freeSeq = s.freeSeq := rfl
@[simp] theorem State.setFld_out (s : State) (off lo w x : Nat) : (s.setFld off lo w x).out = s.out := rfl
@[simp] theorem State.setFld_power (s : State) (off lo w x : Nat) : (s.setFld off lo w x).power = s.power := rfl
@[simp] theorem State.setFld_ticks (s : State) (off lo w x : Nat) : (s.setFld off lo w x).ticks = s.ticks := rfl
@[simp] theorem State.setFld_clk (s : State) (off lo w x : Nat) : (s.setFld off lo w x).clk = s.clk := rfl
@[simp] theorem State.setFld_pins (s : State) (off lo w x : Nat) : (s.setFld off lo w x).pins = s.pins := rfl
@[simp] theorem State.setFld_fuses (s : State) (off lo w x : Nat) : (s.setFld off lo w x).fuses = s.fuses := rfl
@[simp] theorem State.setFld_odv (s : State) (off lo w x : Nat) : (s.setFld off lo w x).odv = s.odv := rfl
@[simp] theorem State.setFld_odb (s : State) (off lo w x : Nat) : (s.setFld off lo w x).odb = s.odb := rfl
@[simp] theorem State.setFld_tags (s : State) (off lo w x : Nat) : (s.setFld off lo w x).tags = s.tags := rfl
@[simp] theorem State.setFld_wear (s : State) (off lo w x : Nat) : (s.setFld off lo w x).wear = s.wear := rfl
@[simp] theorem State.setFld_led (s : State) (off lo w x : Nat) : (s.setFld off lo w x).led = s.led := rfl
@[simp] theorem State.setFld_gw (s : State) (off lo w x : Nat) : (s.setFld off lo w x).gw = s.gw := rfl
@[simp] theorem State.setFld_nodes (s : State) (off lo w x : Nat) : (s.setFld off lo w x).nodes = s.nodes := rfl
@[simp] theorem State.setFld_mgmt (s : State) (off lo w x : Nat) : (s.setFld off lo w x).mgmt = s.mgmt := rfl
@[simp] theorem State.setFld_bu (s : State) (off lo w x : Nat) : (s.setFld off lo w x).bu = s.bu := rfl
@[simp] theorem State.setFld_d2d (s : State) (off lo w x : Nat) : (s.setFld off lo w x).d2d = s.d2d := rfl
@[simp] theorem State.setFld_bkl (s : State) (off lo w x : Nat) : (s.setFld off lo w x).bkl = s.bkl := rfl
@[simp] theorem State.setFld_rcv (s : State) (off lo w x : Nat) : (s.setFld off lo w x).rcv = s.rcv := rfl
@[simp] theorem State.setFld_roll (s : State) (off lo w x : Nat) : (s.setFld off lo w x).roll = s.roll := rfl
@[simp] theorem State.setFld_dev (s : State) (off lo w x : Nat) : (s.setFld off lo w x).dev = s.dev := rfl
@[simp] theorem State.setFld_host (s : State) (off lo w x : Nat) : (s.setFld off lo w x).host = s.host := rfl
@[simp] theorem State.setFld_own (s : State) (off lo w x : Nat) : (s.setFld off lo w x).own = s.own := rfl
@[simp] theorem State.setFld_cs (s : State) (off lo w x : Nat) : (s.setFld off lo w x).cs = s.cs := rfl
@[simp] theorem State.setFld_qs (s : State) (off lo w x : Nat) : (s.setFld off lo w x).qs = s.qs := rfl
@[simp] theorem State.setFld_x (s : State) (off lo w x : Nat) : (s.setFld off lo w x).x = s.x := rfl
@[simp] theorem State.setFld_acc (s : State) (off lo w x : Nat) : (s.setFld off lo w x).acc = s.acc := rfl
@[simp] theorem State.setFld_flt (s : State) (off lo w x : Nat) : (s.setFld off lo w x).flt = s.flt := rfl
@[simp] theorem State.setFld_res (s : State) (off lo w x : Nat) : (s.setFld off lo w x).res = s.res := rfl
@[simp] theorem State.setFld_dma (s : State) (off lo w x : Nat) : (s.setFld off lo w x).dma = s.dma := rfl
@[simp] theorem State.setFld_cw (s : State) (off lo w x : Nat) : (s.setFld off lo w x).cw = s.cw := rfl
@[simp] theorem State.setFld_ep (s : State) (off lo w x : Nat) : (s.setFld off lo w x).ep = s.ep := rfl
@[simp] theorem State.setFld_peer (s : State) (off lo w x : Nat) : (s.setFld off lo w x).peer = s.peer := rfl
@[simp] theorem State.setFld_sec (s : State) (off lo w x : Nat) : (s.setFld off lo w x).sec = s.sec := rfl
@[simp] theorem State.setFld_orph (s : State) (off lo w x : Nat) : (s.setFld off lo w x).orph = s.orph := rfl
@[simp] theorem State.setFld_tel (s : State) (off lo w x : Nat) : (s.setFld off lo w x).tel = s.tel := rfl

/-! ### State.setBit -/

@[simp] theorem State.setBit_pending (s : State) (off b : Nat) (v : Bool) : (s.setBit off b v).pending = s.pending := rfl
@[simp] theorem State.setBit_freeSeq (s : State) (off b : Nat) (v : Bool) : (s.setBit off b v).freeSeq = s.freeSeq := rfl
@[simp] theorem State.setBit_out (s : State) (off b : Nat) (v : Bool) : (s.setBit off b v).out = s.out := rfl
@[simp] theorem State.setBit_power (s : State) (off b : Nat) (v : Bool) : (s.setBit off b v).power = s.power := rfl
@[simp] theorem State.setBit_ticks (s : State) (off b : Nat) (v : Bool) : (s.setBit off b v).ticks = s.ticks := rfl
@[simp] theorem State.setBit_clk (s : State) (off b : Nat) (v : Bool) : (s.setBit off b v).clk = s.clk := rfl
@[simp] theorem State.setBit_pins (s : State) (off b : Nat) (v : Bool) : (s.setBit off b v).pins = s.pins := rfl
@[simp] theorem State.setBit_fuses (s : State) (off b : Nat) (v : Bool) : (s.setBit off b v).fuses = s.fuses := rfl
@[simp] theorem State.setBit_odv (s : State) (off b : Nat) (v : Bool) : (s.setBit off b v).odv = s.odv := rfl
@[simp] theorem State.setBit_odb (s : State) (off b : Nat) (v : Bool) : (s.setBit off b v).odb = s.odb := rfl
@[simp] theorem State.setBit_tags (s : State) (off b : Nat) (v : Bool) : (s.setBit off b v).tags = s.tags := rfl
@[simp] theorem State.setBit_wear (s : State) (off b : Nat) (v : Bool) : (s.setBit off b v).wear = s.wear := rfl
@[simp] theorem State.setBit_led (s : State) (off b : Nat) (v : Bool) : (s.setBit off b v).led = s.led := rfl
@[simp] theorem State.setBit_gw (s : State) (off b : Nat) (v : Bool) : (s.setBit off b v).gw = s.gw := rfl
@[simp] theorem State.setBit_nodes (s : State) (off b : Nat) (v : Bool) : (s.setBit off b v).nodes = s.nodes := rfl
@[simp] theorem State.setBit_mgmt (s : State) (off b : Nat) (v : Bool) : (s.setBit off b v).mgmt = s.mgmt := rfl
@[simp] theorem State.setBit_bu (s : State) (off b : Nat) (v : Bool) : (s.setBit off b v).bu = s.bu := rfl
@[simp] theorem State.setBit_d2d (s : State) (off b : Nat) (v : Bool) : (s.setBit off b v).d2d = s.d2d := rfl
@[simp] theorem State.setBit_bkl (s : State) (off b : Nat) (v : Bool) : (s.setBit off b v).bkl = s.bkl := rfl
@[simp] theorem State.setBit_rcv (s : State) (off b : Nat) (v : Bool) : (s.setBit off b v).rcv = s.rcv := rfl
@[simp] theorem State.setBit_roll (s : State) (off b : Nat) (v : Bool) : (s.setBit off b v).roll = s.roll := rfl
@[simp] theorem State.setBit_dev (s : State) (off b : Nat) (v : Bool) : (s.setBit off b v).dev = s.dev := rfl
@[simp] theorem State.setBit_host (s : State) (off b : Nat) (v : Bool) : (s.setBit off b v).host = s.host := rfl
@[simp] theorem State.setBit_own (s : State) (off b : Nat) (v : Bool) : (s.setBit off b v).own = s.own := rfl
@[simp] theorem State.setBit_cs (s : State) (off b : Nat) (v : Bool) : (s.setBit off b v).cs = s.cs := rfl
@[simp] theorem State.setBit_qs (s : State) (off b : Nat) (v : Bool) : (s.setBit off b v).qs = s.qs := rfl
@[simp] theorem State.setBit_x (s : State) (off b : Nat) (v : Bool) : (s.setBit off b v).x = s.x := rfl
@[simp] theorem State.setBit_acc (s : State) (off b : Nat) (v : Bool) : (s.setBit off b v).acc = s.acc := rfl
@[simp] theorem State.setBit_flt (s : State) (off b : Nat) (v : Bool) : (s.setBit off b v).flt = s.flt := rfl
@[simp] theorem State.setBit_res (s : State) (off b : Nat) (v : Bool) : (s.setBit off b v).res = s.res := rfl
@[simp] theorem State.setBit_dma (s : State) (off b : Nat) (v : Bool) : (s.setBit off b v).dma = s.dma := rfl
@[simp] theorem State.setBit_cw (s : State) (off b : Nat) (v : Bool) : (s.setBit off b v).cw = s.cw := rfl
@[simp] theorem State.setBit_ep (s : State) (off b : Nat) (v : Bool) : (s.setBit off b v).ep = s.ep := rfl
@[simp] theorem State.setBit_peer (s : State) (off b : Nat) (v : Bool) : (s.setBit off b v).peer = s.peer := rfl
@[simp] theorem State.setBit_sec (s : State) (off b : Nat) (v : Bool) : (s.setBit off b v).sec = s.sec := rfl
@[simp] theorem State.setBit_orph (s : State) (off b : Nat) (v : Bool) : (s.setBit off b v).orph = s.orph := rfl
@[simp] theorem State.setBit_tel (s : State) (off b : Nat) (v : Bool) : (s.setBit off b v).tel = s.tel := rfl

/-! ### State.inc -/

@[simp] theorem State.inc_pending (s : State) (off n : Nat) : (s.inc off n).pending = s.pending := rfl
@[simp] theorem State.inc_freeSeq (s : State) (off n : Nat) : (s.inc off n).freeSeq = s.freeSeq := rfl
@[simp] theorem State.inc_out (s : State) (off n : Nat) : (s.inc off n).out = s.out := rfl
@[simp] theorem State.inc_power (s : State) (off n : Nat) : (s.inc off n).power = s.power := rfl
@[simp] theorem State.inc_ticks (s : State) (off n : Nat) : (s.inc off n).ticks = s.ticks := rfl
@[simp] theorem State.inc_clk (s : State) (off n : Nat) : (s.inc off n).clk = s.clk := rfl
@[simp] theorem State.inc_pins (s : State) (off n : Nat) : (s.inc off n).pins = s.pins := rfl
@[simp] theorem State.inc_fuses (s : State) (off n : Nat) : (s.inc off n).fuses = s.fuses := rfl
@[simp] theorem State.inc_odv (s : State) (off n : Nat) : (s.inc off n).odv = s.odv := rfl
@[simp] theorem State.inc_odb (s : State) (off n : Nat) : (s.inc off n).odb = s.odb := rfl
@[simp] theorem State.inc_tags (s : State) (off n : Nat) : (s.inc off n).tags = s.tags := rfl
@[simp] theorem State.inc_wear (s : State) (off n : Nat) : (s.inc off n).wear = s.wear := rfl
@[simp] theorem State.inc_led (s : State) (off n : Nat) : (s.inc off n).led = s.led := rfl
@[simp] theorem State.inc_gw (s : State) (off n : Nat) : (s.inc off n).gw = s.gw := rfl
@[simp] theorem State.inc_nodes (s : State) (off n : Nat) : (s.inc off n).nodes = s.nodes := rfl
@[simp] theorem State.inc_mgmt (s : State) (off n : Nat) : (s.inc off n).mgmt = s.mgmt := rfl
@[simp] theorem State.inc_bu (s : State) (off n : Nat) : (s.inc off n).bu = s.bu := rfl
@[simp] theorem State.inc_d2d (s : State) (off n : Nat) : (s.inc off n).d2d = s.d2d := rfl
@[simp] theorem State.inc_bkl (s : State) (off n : Nat) : (s.inc off n).bkl = s.bkl := rfl
@[simp] theorem State.inc_rcv (s : State) (off n : Nat) : (s.inc off n).rcv = s.rcv := rfl
@[simp] theorem State.inc_roll (s : State) (off n : Nat) : (s.inc off n).roll = s.roll := rfl
@[simp] theorem State.inc_dev (s : State) (off n : Nat) : (s.inc off n).dev = s.dev := rfl
@[simp] theorem State.inc_host (s : State) (off n : Nat) : (s.inc off n).host = s.host := rfl
@[simp] theorem State.inc_own (s : State) (off n : Nat) : (s.inc off n).own = s.own := rfl
@[simp] theorem State.inc_cs (s : State) (off n : Nat) : (s.inc off n).cs = s.cs := rfl
@[simp] theorem State.inc_qs (s : State) (off n : Nat) : (s.inc off n).qs = s.qs := rfl
@[simp] theorem State.inc_x (s : State) (off n : Nat) : (s.inc off n).x = s.x := rfl
@[simp] theorem State.inc_acc (s : State) (off n : Nat) : (s.inc off n).acc = s.acc := rfl
@[simp] theorem State.inc_flt (s : State) (off n : Nat) : (s.inc off n).flt = s.flt := rfl
@[simp] theorem State.inc_res (s : State) (off n : Nat) : (s.inc off n).res = s.res := rfl
@[simp] theorem State.inc_dma (s : State) (off n : Nat) : (s.inc off n).dma = s.dma := rfl
@[simp] theorem State.inc_cw (s : State) (off n : Nat) : (s.inc off n).cw = s.cw := rfl
@[simp] theorem State.inc_ep (s : State) (off n : Nat) : (s.inc off n).ep = s.ep := rfl
@[simp] theorem State.inc_peer (s : State) (off n : Nat) : (s.inc off n).peer = s.peer := rfl
@[simp] theorem State.inc_sec (s : State) (off n : Nat) : (s.inc off n).sec = s.sec := rfl
@[simp] theorem State.inc_orph (s : State) (off n : Nat) : (s.inc off n).orph = s.orph := rfl
@[simp] theorem State.inc_tel (s : State) (off n : Nat) : (s.inc off n).tel = s.tel := rfl

/-! ### State.raise -/

@[simp] theorem State.raise_pending (s : State) (off b cnt : Nat) : (s.raise off b cnt).pending = s.pending := by
  rw [State.raise, State.inc_pending, State.setBit_pending]
@[simp] theorem State.raise_freeSeq (s : State) (off b cnt : Nat) : (s.raise off b cnt).freeSeq = s.freeSeq := by
  rw [State.raise, State.inc_freeSeq, State.setBit_freeSeq]
@[simp] theorem State.raise_out (s : State) (off b cnt : Nat) : (s.raise off b cnt).out = s.out := by
  rw [State.raise, State.inc_out, State.setBit_out]
@[simp] theorem State.raise_power (s : State) (off b cnt : Nat) : (s.raise off b cnt).power = s.power := by
  rw [State.raise, State.inc_power, State.setBit_power]
@[simp] theorem State.raise_ticks (s : State) (off b cnt : Nat) : (s.raise off b cnt).ticks = s.ticks := by
  rw [State.raise, State.inc_ticks, State.setBit_ticks]
@[simp] theorem State.raise_clk (s : State) (off b cnt : Nat) : (s.raise off b cnt).clk = s.clk := by
  rw [State.raise, State.inc_clk, State.setBit_clk]
@[simp] theorem State.raise_pins (s : State) (off b cnt : Nat) : (s.raise off b cnt).pins = s.pins := by
  rw [State.raise, State.inc_pins, State.setBit_pins]
@[simp] theorem State.raise_fuses (s : State) (off b cnt : Nat) : (s.raise off b cnt).fuses = s.fuses := by
  rw [State.raise, State.inc_fuses, State.setBit_fuses]
@[simp] theorem State.raise_odv (s : State) (off b cnt : Nat) : (s.raise off b cnt).odv = s.odv := by
  rw [State.raise, State.inc_odv, State.setBit_odv]
@[simp] theorem State.raise_odb (s : State) (off b cnt : Nat) : (s.raise off b cnt).odb = s.odb := by
  rw [State.raise, State.inc_odb, State.setBit_odb]
@[simp] theorem State.raise_tags (s : State) (off b cnt : Nat) : (s.raise off b cnt).tags = s.tags := by
  rw [State.raise, State.inc_tags, State.setBit_tags]
@[simp] theorem State.raise_wear (s : State) (off b cnt : Nat) : (s.raise off b cnt).wear = s.wear := by
  rw [State.raise, State.inc_wear, State.setBit_wear]
@[simp] theorem State.raise_led (s : State) (off b cnt : Nat) : (s.raise off b cnt).led = s.led := by
  rw [State.raise, State.inc_led, State.setBit_led]
@[simp] theorem State.raise_gw (s : State) (off b cnt : Nat) : (s.raise off b cnt).gw = s.gw := by
  rw [State.raise, State.inc_gw, State.setBit_gw]
@[simp] theorem State.raise_nodes (s : State) (off b cnt : Nat) : (s.raise off b cnt).nodes = s.nodes := by
  rw [State.raise, State.inc_nodes, State.setBit_nodes]
@[simp] theorem State.raise_mgmt (s : State) (off b cnt : Nat) : (s.raise off b cnt).mgmt = s.mgmt := by
  rw [State.raise, State.inc_mgmt, State.setBit_mgmt]
@[simp] theorem State.raise_bu (s : State) (off b cnt : Nat) : (s.raise off b cnt).bu = s.bu := by
  rw [State.raise, State.inc_bu, State.setBit_bu]
@[simp] theorem State.raise_d2d (s : State) (off b cnt : Nat) : (s.raise off b cnt).d2d = s.d2d := by
  rw [State.raise, State.inc_d2d, State.setBit_d2d]
@[simp] theorem State.raise_bkl (s : State) (off b cnt : Nat) : (s.raise off b cnt).bkl = s.bkl := by
  rw [State.raise, State.inc_bkl, State.setBit_bkl]
@[simp] theorem State.raise_rcv (s : State) (off b cnt : Nat) : (s.raise off b cnt).rcv = s.rcv := by
  rw [State.raise, State.inc_rcv, State.setBit_rcv]
@[simp] theorem State.raise_roll (s : State) (off b cnt : Nat) : (s.raise off b cnt).roll = s.roll := by
  rw [State.raise, State.inc_roll, State.setBit_roll]
@[simp] theorem State.raise_dev (s : State) (off b cnt : Nat) : (s.raise off b cnt).dev = s.dev := by
  rw [State.raise, State.inc_dev, State.setBit_dev]
@[simp] theorem State.raise_host (s : State) (off b cnt : Nat) : (s.raise off b cnt).host = s.host := by
  rw [State.raise, State.inc_host, State.setBit_host]
@[simp] theorem State.raise_own (s : State) (off b cnt : Nat) : (s.raise off b cnt).own = s.own := by
  rw [State.raise, State.inc_own, State.setBit_own]
@[simp] theorem State.raise_cs (s : State) (off b cnt : Nat) : (s.raise off b cnt).cs = s.cs := by
  rw [State.raise, State.inc_cs, State.setBit_cs]
@[simp] theorem State.raise_qs (s : State) (off b cnt : Nat) : (s.raise off b cnt).qs = s.qs := by
  rw [State.raise, State.inc_qs, State.setBit_qs]
@[simp] theorem State.raise_x (s : State) (off b cnt : Nat) : (s.raise off b cnt).x = s.x := by
  rw [State.raise, State.inc_x, State.setBit_x]
@[simp] theorem State.raise_acc (s : State) (off b cnt : Nat) : (s.raise off b cnt).acc = s.acc := by
  rw [State.raise, State.inc_acc, State.setBit_acc]
@[simp] theorem State.raise_flt (s : State) (off b cnt : Nat) : (s.raise off b cnt).flt = s.flt := by
  rw [State.raise, State.inc_flt, State.setBit_flt]
@[simp] theorem State.raise_res (s : State) (off b cnt : Nat) : (s.raise off b cnt).res = s.res := by
  rw [State.raise, State.inc_res, State.setBit_res]
@[simp] theorem State.raise_dma (s : State) (off b cnt : Nat) : (s.raise off b cnt).dma = s.dma := by
  rw [State.raise, State.inc_dma, State.setBit_dma]
@[simp] theorem State.raise_cw (s : State) (off b cnt : Nat) : (s.raise off b cnt).cw = s.cw := by
  rw [State.raise, State.inc_cw, State.setBit_cw]
@[simp] theorem State.raise_ep (s : State) (off b cnt : Nat) : (s.raise off b cnt).ep = s.ep := by
  rw [State.raise, State.inc_ep, State.setBit_ep]
@[simp] theorem State.raise_peer (s : State) (off b cnt : Nat) : (s.raise off b cnt).peer = s.peer := by
  rw [State.raise, State.inc_peer, State.setBit_peer]
@[simp] theorem State.raise_sec (s : State) (off b cnt : Nat) : (s.raise off b cnt).sec = s.sec := by
  rw [State.raise, State.inc_sec, State.setBit_sec]
@[simp] theorem State.raise_orph (s : State) (off b cnt : Nat) : (s.raise off b cnt).orph = s.orph := by
  rw [State.raise, State.inc_orph, State.setBit_orph]
@[simp] theorem State.raise_tel (s : State) (off b cnt : Nat) : (s.raise off b cnt).tel = s.tel := by
  rw [State.raise, State.inc_tel, State.setBit_tel]

/-! ### State.blkFlag -/

@[simp] theorem State.blkFlag_pending (s : State) (b : Nat) : (s.blkFlag b).pending = s.pending := State.raise_pending s _ b _
@[simp] theorem State.blkFlag_freeSeq (s : State) (b : Nat) : (s.blkFlag b).freeSeq = s.freeSeq := State.raise_freeSeq s _ b _
@[simp] theorem State.blkFlag_out (s : State) (b : Nat) : (s.blkFlag b).out = s.out := State.raise_out s _ b _
@[simp] theorem State.blkFlag_power (s : State) (b : Nat) : (s.blkFlag b).power = s.power := State.raise_power s _ b _
@[simp] theorem State.blkFlag_ticks (s : State) (b : Nat) : (s.blkFlag b).ticks = s.ticks := State.raise_ticks s _ b _
@[simp] theorem State.blkFlag_clk (s : State) (b : Nat) : (s.blkFlag b).clk = s.clk := State.raise_clk s _ b _
@[simp] theorem State.blkFlag_pins (s : State) (b : Nat) : (s.blkFlag b).pins = s.pins := State.raise_pins s _ b _
@[simp] theorem State.blkFlag_fuses (s : State) (b : Nat) : (s.blkFlag b).fuses = s.fuses := State.raise_fuses s _ b _
@[simp] theorem State.blkFlag_odv (s : State) (b : Nat) : (s.blkFlag b).odv = s.odv := State.raise_odv s _ b _
@[simp] theorem State.blkFlag_odb (s : State) (b : Nat) : (s.blkFlag b).odb = s.odb := State.raise_odb s _ b _
@[simp] theorem State.blkFlag_tags (s : State) (b : Nat) : (s.blkFlag b).tags = s.tags := State.raise_tags s _ b _
@[simp] theorem State.blkFlag_wear (s : State) (b : Nat) : (s.blkFlag b).wear = s.wear := State.raise_wear s _ b _
@[simp] theorem State.blkFlag_led (s : State) (b : Nat) : (s.blkFlag b).led = s.led := State.raise_led s _ b _
@[simp] theorem State.blkFlag_gw (s : State) (b : Nat) : (s.blkFlag b).gw = s.gw := State.raise_gw s _ b _
@[simp] theorem State.blkFlag_nodes (s : State) (b : Nat) : (s.blkFlag b).nodes = s.nodes := State.raise_nodes s _ b _
@[simp] theorem State.blkFlag_mgmt (s : State) (b : Nat) : (s.blkFlag b).mgmt = s.mgmt := State.raise_mgmt s _ b _
@[simp] theorem State.blkFlag_bu (s : State) (b : Nat) : (s.blkFlag b).bu = s.bu := State.raise_bu s _ b _
@[simp] theorem State.blkFlag_d2d (s : State) (b : Nat) : (s.blkFlag b).d2d = s.d2d := State.raise_d2d s _ b _
@[simp] theorem State.blkFlag_bkl (s : State) (b : Nat) : (s.blkFlag b).bkl = s.bkl := State.raise_bkl s _ b _
@[simp] theorem State.blkFlag_rcv (s : State) (b : Nat) : (s.blkFlag b).rcv = s.rcv := State.raise_rcv s _ b _
@[simp] theorem State.blkFlag_roll (s : State) (b : Nat) : (s.blkFlag b).roll = s.roll := State.raise_roll s _ b _
@[simp] theorem State.blkFlag_dev (s : State) (b : Nat) : (s.blkFlag b).dev = s.dev := State.raise_dev s _ b _
@[simp] theorem State.blkFlag_host (s : State) (b : Nat) : (s.blkFlag b).host = s.host := State.raise_host s _ b _
@[simp] theorem State.blkFlag_own (s : State) (b : Nat) : (s.blkFlag b).own = s.own := State.raise_own s _ b _
@[simp] theorem State.blkFlag_cs (s : State) (b : Nat) : (s.blkFlag b).cs = s.cs := State.raise_cs s _ b _
@[simp] theorem State.blkFlag_qs (s : State) (b : Nat) : (s.blkFlag b).qs = s.qs := State.raise_qs s _ b _
@[simp] theorem State.blkFlag_x (s : State) (b : Nat) : (s.blkFlag b).x = s.x := State.raise_x s _ b _
@[simp] theorem State.blkFlag_acc (s : State) (b : Nat) : (s.blkFlag b).acc = s.acc := State.raise_acc s _ b _
@[simp] theorem State.blkFlag_flt (s : State) (b : Nat) : (s.blkFlag b).flt = s.flt := State.raise_flt s _ b _
@[simp] theorem State.blkFlag_res (s : State) (b : Nat) : (s.blkFlag b).res = s.res := State.raise_res s _ b _
@[simp] theorem State.blkFlag_dma (s : State) (b : Nat) : (s.blkFlag b).dma = s.dma := State.raise_dma s _ b _
@[simp] theorem State.blkFlag_cw (s : State) (b : Nat) : (s.blkFlag b).cw = s.cw := State.raise_cw s _ b _
@[simp] theorem State.blkFlag_ep (s : State) (b : Nat) : (s.blkFlag b).ep = s.ep := State.raise_ep s _ b _
@[simp] theorem State.blkFlag_peer (s : State) (b : Nat) : (s.blkFlag b).peer = s.peer := State.raise_peer s _ b _
@[simp] theorem State.blkFlag_sec (s : State) (b : Nat) : (s.blkFlag b).sec = s.sec := State.raise_sec s _ b _
@[simp] theorem State.blkFlag_orph (s : State) (b : Nat) : (s.blkFlag b).orph = s.orph := State.raise_orph s _ b _
@[simp] theorem State.blkFlag_tel (s : State) (b : Nat) : (s.blkFlag b).tel = s.tel := State.raise_tel s _ b _

/-! ### State.stnFlag -/

@[simp] theorem State.stnFlag_pending (s : State) (n b : Nat) : (s.stnFlag n b).pending = s.pending := State.raise_pending s _ b _
@[simp] theorem State.stnFlag_freeSeq (s : State) (n b : Nat) : (s.stnFlag n b).freeSeq = s.freeSeq := State.raise_freeSeq s _ b _
@[simp] theorem State.stnFlag_out (s : State) (n b : Nat) : (s.stnFlag n b).out = s.out := State.raise_out s _ b _
@[simp] theorem State.stnFlag_power (s : State) (n b : Nat) : (s.stnFlag n b).power = s.power := State.raise_power s _ b _
@[simp] theorem State.stnFlag_ticks (s : State) (n b : Nat) : (s.stnFlag n b).ticks = s.ticks := State.raise_ticks s _ b _
@[simp] theorem State.stnFlag_clk (s : State) (n b : Nat) : (s.stnFlag n b).clk = s.clk := State.raise_clk s _ b _
@[simp] theorem State.stnFlag_pins (s : State) (n b : Nat) : (s.stnFlag n b).pins = s.pins := State.raise_pins s _ b _
@[simp] theorem State.stnFlag_fuses (s : State) (n b : Nat) : (s.stnFlag n b).fuses = s.fuses := State.raise_fuses s _ b _
@[simp] theorem State.stnFlag_odv (s : State) (n b : Nat) : (s.stnFlag n b).odv = s.odv := State.raise_odv s _ b _
@[simp] theorem State.stnFlag_odb (s : State) (n b : Nat) : (s.stnFlag n b).odb = s.odb := State.raise_odb s _ b _
@[simp] theorem State.stnFlag_tags (s : State) (n b : Nat) : (s.stnFlag n b).tags = s.tags := State.raise_tags s _ b _
@[simp] theorem State.stnFlag_wear (s : State) (n b : Nat) : (s.stnFlag n b).wear = s.wear := State.raise_wear s _ b _
@[simp] theorem State.stnFlag_led (s : State) (n b : Nat) : (s.stnFlag n b).led = s.led := State.raise_led s _ b _
@[simp] theorem State.stnFlag_gw (s : State) (n b : Nat) : (s.stnFlag n b).gw = s.gw := State.raise_gw s _ b _
@[simp] theorem State.stnFlag_nodes (s : State) (n b : Nat) : (s.stnFlag n b).nodes = s.nodes := State.raise_nodes s _ b _
@[simp] theorem State.stnFlag_mgmt (s : State) (n b : Nat) : (s.stnFlag n b).mgmt = s.mgmt := State.raise_mgmt s _ b _
@[simp] theorem State.stnFlag_bu (s : State) (n b : Nat) : (s.stnFlag n b).bu = s.bu := State.raise_bu s _ b _
@[simp] theorem State.stnFlag_d2d (s : State) (n b : Nat) : (s.stnFlag n b).d2d = s.d2d := State.raise_d2d s _ b _
@[simp] theorem State.stnFlag_bkl (s : State) (n b : Nat) : (s.stnFlag n b).bkl = s.bkl := State.raise_bkl s _ b _
@[simp] theorem State.stnFlag_rcv (s : State) (n b : Nat) : (s.stnFlag n b).rcv = s.rcv := State.raise_rcv s _ b _
@[simp] theorem State.stnFlag_roll (s : State) (n b : Nat) : (s.stnFlag n b).roll = s.roll := State.raise_roll s _ b _
@[simp] theorem State.stnFlag_dev (s : State) (n b : Nat) : (s.stnFlag n b).dev = s.dev := State.raise_dev s _ b _
@[simp] theorem State.stnFlag_host (s : State) (n b : Nat) : (s.stnFlag n b).host = s.host := State.raise_host s _ b _
@[simp] theorem State.stnFlag_own (s : State) (n b : Nat) : (s.stnFlag n b).own = s.own := State.raise_own s _ b _
@[simp] theorem State.stnFlag_cs (s : State) (n b : Nat) : (s.stnFlag n b).cs = s.cs := State.raise_cs s _ b _
@[simp] theorem State.stnFlag_qs (s : State) (n b : Nat) : (s.stnFlag n b).qs = s.qs := State.raise_qs s _ b _
@[simp] theorem State.stnFlag_x (s : State) (n b : Nat) : (s.stnFlag n b).x = s.x := State.raise_x s _ b _
@[simp] theorem State.stnFlag_acc (s : State) (n b : Nat) : (s.stnFlag n b).acc = s.acc := State.raise_acc s _ b _
@[simp] theorem State.stnFlag_flt (s : State) (n b : Nat) : (s.stnFlag n b).flt = s.flt := State.raise_flt s _ b _
@[simp] theorem State.stnFlag_res (s : State) (n b : Nat) : (s.stnFlag n b).res = s.res := State.raise_res s _ b _
@[simp] theorem State.stnFlag_dma (s : State) (n b : Nat) : (s.stnFlag n b).dma = s.dma := State.raise_dma s _ b _
@[simp] theorem State.stnFlag_cw (s : State) (n b : Nat) : (s.stnFlag n b).cw = s.cw := State.raise_cw s _ b _
@[simp] theorem State.stnFlag_ep (s : State) (n b : Nat) : (s.stnFlag n b).ep = s.ep := State.raise_ep s _ b _
@[simp] theorem State.stnFlag_peer (s : State) (n b : Nat) : (s.stnFlag n b).peer = s.peer := State.raise_peer s _ b _
@[simp] theorem State.stnFlag_sec (s : State) (n b : Nat) : (s.stnFlag n b).sec = s.sec := State.raise_sec s _ b _
@[simp] theorem State.stnFlag_orph (s : State) (n b : Nat) : (s.stnFlag n b).orph = s.orph := State.raise_orph s _ b _
@[simp] theorem State.stnFlag_tel (s : State) (n b : Nat) : (s.stnFlag n b).tel = s.tel := State.raise_tel s _ b _

/-! ### State.setPort -/

@[simp] theorem State.setPort_pending (s : State) (k : Nat) (d : D2d) : (s.setPort k d).pending = s.pending := rfl
@[simp] theorem State.setPort_freeSeq (s : State) (k : Nat) (d : D2d) : (s.setPort k d).freeSeq = s.freeSeq := rfl
@[simp] theorem State.setPort_out (s : State) (k : Nat) (d : D2d) : (s.setPort k d).out = s.out := rfl
@[simp] theorem State.setPort_power (s : State) (k : Nat) (d : D2d) : (s.setPort k d).power = s.power := rfl
@[simp] theorem State.setPort_ticks (s : State) (k : Nat) (d : D2d) : (s.setPort k d).ticks = s.ticks := rfl
@[simp] theorem State.setPort_clk (s : State) (k : Nat) (d : D2d) : (s.setPort k d).clk = s.clk := rfl
@[simp] theorem State.setPort_pins (s : State) (k : Nat) (d : D2d) : (s.setPort k d).pins = s.pins := rfl
@[simp] theorem State.setPort_fuses (s : State) (k : Nat) (d : D2d) : (s.setPort k d).fuses = s.fuses := rfl
@[simp] theorem State.setPort_regs (s : State) (k : Nat) (d : D2d) : (s.setPort k d).regs = s.regs := rfl
@[simp] theorem State.setPort_odv (s : State) (k : Nat) (d : D2d) : (s.setPort k d).odv = s.odv := rfl
@[simp] theorem State.setPort_odb (s : State) (k : Nat) (d : D2d) : (s.setPort k d).odb = s.odb := rfl
@[simp] theorem State.setPort_tags (s : State) (k : Nat) (d : D2d) : (s.setPort k d).tags = s.tags := rfl
@[simp] theorem State.setPort_wear (s : State) (k : Nat) (d : D2d) : (s.setPort k d).wear = s.wear := rfl
@[simp] theorem State.setPort_led (s : State) (k : Nat) (d : D2d) : (s.setPort k d).led = s.led := rfl
@[simp] theorem State.setPort_gw (s : State) (k : Nat) (d : D2d) : (s.setPort k d).gw = s.gw := rfl
@[simp] theorem State.setPort_nodes (s : State) (k : Nat) (d : D2d) : (s.setPort k d).nodes = s.nodes := rfl
@[simp] theorem State.setPort_mgmt (s : State) (k : Nat) (d : D2d) : (s.setPort k d).mgmt = s.mgmt := rfl
@[simp] theorem State.setPort_bu (s : State) (k : Nat) (d : D2d) : (s.setPort k d).bu = s.bu := rfl
@[simp] theorem State.setPort_bkl (s : State) (k : Nat) (d : D2d) : (s.setPort k d).bkl = s.bkl := rfl
@[simp] theorem State.setPort_rcv (s : State) (k : Nat) (d : D2d) : (s.setPort k d).rcv = s.rcv := rfl
@[simp] theorem State.setPort_roll (s : State) (k : Nat) (d : D2d) : (s.setPort k d).roll = s.roll := rfl
@[simp] theorem State.setPort_dev (s : State) (k : Nat) (d : D2d) : (s.setPort k d).dev = s.dev := rfl
@[simp] theorem State.setPort_host (s : State) (k : Nat) (d : D2d) : (s.setPort k d).host = s.host := rfl
@[simp] theorem State.setPort_own (s : State) (k : Nat) (d : D2d) : (s.setPort k d).own = s.own := rfl
@[simp] theorem State.setPort_cs (s : State) (k : Nat) (d : D2d) : (s.setPort k d).cs = s.cs := rfl
@[simp] theorem State.setPort_qs (s : State) (k : Nat) (d : D2d) : (s.setPort k d).qs = s.qs := rfl
@[simp] theorem State.setPort_x (s : State) (k : Nat) (d : D2d) : (s.setPort k d).x = s.x := rfl
@[simp] theorem State.setPort_acc (s : State) (k : Nat) (d : D2d) : (s.setPort k d).acc = s.acc := rfl
@[simp] theorem State.setPort_flt (s : State) (k : Nat) (d : D2d) : (s.setPort k d).flt = s.flt := rfl
@[simp] theorem State.setPort_res (s : State) (k : Nat) (d : D2d) : (s.setPort k d).res = s.res := rfl
@[simp] theorem State.setPort_dma (s : State) (k : Nat) (d : D2d) : (s.setPort k d).dma = s.dma := rfl
@[simp] theorem State.setPort_cw (s : State) (k : Nat) (d : D2d) : (s.setPort k d).cw = s.cw := rfl
@[simp] theorem State.setPort_ep (s : State) (k : Nat) (d : D2d) : (s.setPort k d).ep = s.ep := rfl
@[simp] theorem State.setPort_peer (s : State) (k : Nat) (d : D2d) : (s.setPort k d).peer = s.peer := rfl
@[simp] theorem State.setPort_sec (s : State) (k : Nat) (d : D2d) : (s.setPort k d).sec = s.sec := rfl
@[simp] theorem State.setPort_orph (s : State) (k : Nat) (d : D2d) : (s.setPort k d).orph = s.orph := rfl
@[simp] theorem State.setPort_tel (s : State) (k : Nat) (d : D2d) : (s.setPort k d).tel = s.tel := rfl

/-! ### State.setCtx -/

@[simp] theorem State.setCtx_pending (s : State) (c : Nat) (r : CtxRec) : (s.setCtx c r).pending = s.pending := rfl
@[simp] theorem State.setCtx_freeSeq (s : State) (c : Nat) (r : CtxRec) : (s.setCtx c r).freeSeq = s.freeSeq := rfl
@[simp] theorem State.setCtx_out (s : State) (c : Nat) (r : CtxRec) : (s.setCtx c r).out = s.out := rfl
@[simp] theorem State.setCtx_power (s : State) (c : Nat) (r : CtxRec) : (s.setCtx c r).power = s.power := rfl
@[simp] theorem State.setCtx_ticks (s : State) (c : Nat) (r : CtxRec) : (s.setCtx c r).ticks = s.ticks := rfl
@[simp] theorem State.setCtx_clk (s : State) (c : Nat) (r : CtxRec) : (s.setCtx c r).clk = s.clk := rfl
@[simp] theorem State.setCtx_pins (s : State) (c : Nat) (r : CtxRec) : (s.setCtx c r).pins = s.pins := rfl
@[simp] theorem State.setCtx_fuses (s : State) (c : Nat) (r : CtxRec) : (s.setCtx c r).fuses = s.fuses := rfl
@[simp] theorem State.setCtx_regs (s : State) (c : Nat) (r : CtxRec) : (s.setCtx c r).regs = s.regs := rfl
@[simp] theorem State.setCtx_odv (s : State) (c : Nat) (r : CtxRec) : (s.setCtx c r).odv = s.odv := rfl
@[simp] theorem State.setCtx_odb (s : State) (c : Nat) (r : CtxRec) : (s.setCtx c r).odb = s.odb := rfl
@[simp] theorem State.setCtx_tags (s : State) (c : Nat) (r : CtxRec) : (s.setCtx c r).tags = s.tags := rfl
@[simp] theorem State.setCtx_wear (s : State) (c : Nat) (r : CtxRec) : (s.setCtx c r).wear = s.wear := rfl
@[simp] theorem State.setCtx_led (s : State) (c : Nat) (r : CtxRec) : (s.setCtx c r).led = s.led := rfl
@[simp] theorem State.setCtx_gw (s : State) (c : Nat) (r : CtxRec) : (s.setCtx c r).gw = s.gw := rfl
@[simp] theorem State.setCtx_nodes (s : State) (c : Nat) (r : CtxRec) : (s.setCtx c r).nodes = s.nodes := rfl
@[simp] theorem State.setCtx_mgmt (s : State) (c : Nat) (r : CtxRec) : (s.setCtx c r).mgmt = s.mgmt := rfl
@[simp] theorem State.setCtx_bu (s : State) (c : Nat) (r : CtxRec) : (s.setCtx c r).bu = s.bu := rfl
@[simp] theorem State.setCtx_d2d (s : State) (c : Nat) (r : CtxRec) : (s.setCtx c r).d2d = s.d2d := rfl
@[simp] theorem State.setCtx_bkl (s : State) (c : Nat) (r : CtxRec) : (s.setCtx c r).bkl = s.bkl := rfl
@[simp] theorem State.setCtx_rcv (s : State) (c : Nat) (r : CtxRec) : (s.setCtx c r).rcv = s.rcv := rfl
@[simp] theorem State.setCtx_roll (s : State) (c : Nat) (r : CtxRec) : (s.setCtx c r).roll = s.roll := rfl
@[simp] theorem State.setCtx_dev (s : State) (c : Nat) (r : CtxRec) : (s.setCtx c r).dev = s.dev := rfl
@[simp] theorem State.setCtx_host (s : State) (c : Nat) (r : CtxRec) : (s.setCtx c r).host = s.host := rfl
@[simp] theorem State.setCtx_own (s : State) (c : Nat) (r : CtxRec) : (s.setCtx c r).own = s.own := rfl
@[simp] theorem State.setCtx_qs (s : State) (c : Nat) (r : CtxRec) : (s.setCtx c r).qs = s.qs := rfl
@[simp] theorem State.setCtx_x (s : State) (c : Nat) (r : CtxRec) : (s.setCtx c r).x = s.x := rfl
@[simp] theorem State.setCtx_acc (s : State) (c : Nat) (r : CtxRec) : (s.setCtx c r).acc = s.acc := rfl
@[simp] theorem State.setCtx_flt (s : State) (c : Nat) (r : CtxRec) : (s.setCtx c r).flt = s.flt := rfl
@[simp] theorem State.setCtx_res (s : State) (c : Nat) (r : CtxRec) : (s.setCtx c r).res = s.res := rfl
@[simp] theorem State.setCtx_dma (s : State) (c : Nat) (r : CtxRec) : (s.setCtx c r).dma = s.dma := rfl
@[simp] theorem State.setCtx_cw (s : State) (c : Nat) (r : CtxRec) : (s.setCtx c r).cw = s.cw := rfl
@[simp] theorem State.setCtx_ep (s : State) (c : Nat) (r : CtxRec) : (s.setCtx c r).ep = s.ep := rfl
@[simp] theorem State.setCtx_peer (s : State) (c : Nat) (r : CtxRec) : (s.setCtx c r).peer = s.peer := rfl
@[simp] theorem State.setCtx_sec (s : State) (c : Nat) (r : CtxRec) : (s.setCtx c r).sec = s.sec := rfl
@[simp] theorem State.setCtx_orph (s : State) (c : Nat) (r : CtxRec) : (s.setCtx c r).orph = s.orph := rfl
@[simp] theorem State.setCtx_tel (s : State) (c : Nat) (r : CtxRec) : (s.setCtx c r).tel = s.tel := rfl

/-! ### State.setQue -/

@[simp] theorem State.setQue_pending (s : State) (q : Nat) (r : QueueRec) : (s.setQue q r).pending = s.pending := rfl
@[simp] theorem State.setQue_freeSeq (s : State) (q : Nat) (r : QueueRec) : (s.setQue q r).freeSeq = s.freeSeq := rfl
@[simp] theorem State.setQue_out (s : State) (q : Nat) (r : QueueRec) : (s.setQue q r).out = s.out := rfl
@[simp] theorem State.setQue_power (s : State) (q : Nat) (r : QueueRec) : (s.setQue q r).power = s.power := rfl
@[simp] theorem State.setQue_ticks (s : State) (q : Nat) (r : QueueRec) : (s.setQue q r).ticks = s.ticks := rfl
@[simp] theorem State.setQue_clk (s : State) (q : Nat) (r : QueueRec) : (s.setQue q r).clk = s.clk := rfl
@[simp] theorem State.setQue_pins (s : State) (q : Nat) (r : QueueRec) : (s.setQue q r).pins = s.pins := rfl
@[simp] theorem State.setQue_fuses (s : State) (q : Nat) (r : QueueRec) : (s.setQue q r).fuses = s.fuses := rfl
@[simp] theorem State.setQue_regs (s : State) (q : Nat) (r : QueueRec) : (s.setQue q r).regs = s.regs := rfl
@[simp] theorem State.setQue_odv (s : State) (q : Nat) (r : QueueRec) : (s.setQue q r).odv = s.odv := rfl
@[simp] theorem State.setQue_odb (s : State) (q : Nat) (r : QueueRec) : (s.setQue q r).odb = s.odb := rfl
@[simp] theorem State.setQue_tags (s : State) (q : Nat) (r : QueueRec) : (s.setQue q r).tags = s.tags := rfl
@[simp] theorem State.setQue_wear (s : State) (q : Nat) (r : QueueRec) : (s.setQue q r).wear = s.wear := rfl
@[simp] theorem State.setQue_led (s : State) (q : Nat) (r : QueueRec) : (s.setQue q r).led = s.led := rfl
@[simp] theorem State.setQue_gw (s : State) (q : Nat) (r : QueueRec) : (s.setQue q r).gw = s.gw := rfl
@[simp] theorem State.setQue_nodes (s : State) (q : Nat) (r : QueueRec) : (s.setQue q r).nodes = s.nodes := rfl
@[simp] theorem State.setQue_mgmt (s : State) (q : Nat) (r : QueueRec) : (s.setQue q r).mgmt = s.mgmt := rfl
@[simp] theorem State.setQue_bu (s : State) (q : Nat) (r : QueueRec) : (s.setQue q r).bu = s.bu := rfl
@[simp] theorem State.setQue_d2d (s : State) (q : Nat) (r : QueueRec) : (s.setQue q r).d2d = s.d2d := rfl
@[simp] theorem State.setQue_bkl (s : State) (q : Nat) (r : QueueRec) : (s.setQue q r).bkl = s.bkl := rfl
@[simp] theorem State.setQue_rcv (s : State) (q : Nat) (r : QueueRec) : (s.setQue q r).rcv = s.rcv := rfl
@[simp] theorem State.setQue_roll (s : State) (q : Nat) (r : QueueRec) : (s.setQue q r).roll = s.roll := rfl
@[simp] theorem State.setQue_dev (s : State) (q : Nat) (r : QueueRec) : (s.setQue q r).dev = s.dev := rfl
@[simp] theorem State.setQue_host (s : State) (q : Nat) (r : QueueRec) : (s.setQue q r).host = s.host := rfl
@[simp] theorem State.setQue_own (s : State) (q : Nat) (r : QueueRec) : (s.setQue q r).own = s.own := rfl
@[simp] theorem State.setQue_cs (s : State) (q : Nat) (r : QueueRec) : (s.setQue q r).cs = s.cs := rfl
@[simp] theorem State.setQue_x (s : State) (q : Nat) (r : QueueRec) : (s.setQue q r).x = s.x := rfl
@[simp] theorem State.setQue_acc (s : State) (q : Nat) (r : QueueRec) : (s.setQue q r).acc = s.acc := rfl
@[simp] theorem State.setQue_flt (s : State) (q : Nat) (r : QueueRec) : (s.setQue q r).flt = s.flt := rfl
@[simp] theorem State.setQue_res (s : State) (q : Nat) (r : QueueRec) : (s.setQue q r).res = s.res := rfl
@[simp] theorem State.setQue_dma (s : State) (q : Nat) (r : QueueRec) : (s.setQue q r).dma = s.dma := rfl
@[simp] theorem State.setQue_cw (s : State) (q : Nat) (r : QueueRec) : (s.setQue q r).cw = s.cw := rfl
@[simp] theorem State.setQue_ep (s : State) (q : Nat) (r : QueueRec) : (s.setQue q r).ep = s.ep := rfl
@[simp] theorem State.setQue_peer (s : State) (q : Nat) (r : QueueRec) : (s.setQue q r).peer = s.peer := rfl
@[simp] theorem State.setQue_sec (s : State) (q : Nat) (r : QueueRec) : (s.setQue q r).sec = s.sec := rfl
@[simp] theorem State.setQue_orph (s : State) (q : Nat) (r : QueueRec) : (s.setQue q r).orph = s.orph := rfl
@[simp] theorem State.setQue_tel (s : State) (q : Nat) (r : QueueRec) : (s.setQue q r).tel = s.tel := rfl

/-! ### State.setCmd -/

@[simp] theorem State.setCmd_pending (s : State) (ss : Nat) (c : CmdRec) : (s.setCmd ss c).pending = s.pending := rfl
@[simp] theorem State.setCmd_freeSeq (s : State) (ss : Nat) (c : CmdRec) : (s.setCmd ss c).freeSeq = s.freeSeq := rfl
@[simp] theorem State.setCmd_out (s : State) (ss : Nat) (c : CmdRec) : (s.setCmd ss c).out = s.out := rfl
@[simp] theorem State.setCmd_power (s : State) (ss : Nat) (c : CmdRec) : (s.setCmd ss c).power = s.power := rfl
@[simp] theorem State.setCmd_ticks (s : State) (ss : Nat) (c : CmdRec) : (s.setCmd ss c).ticks = s.ticks := rfl
@[simp] theorem State.setCmd_clk (s : State) (ss : Nat) (c : CmdRec) : (s.setCmd ss c).clk = s.clk := rfl
@[simp] theorem State.setCmd_pins (s : State) (ss : Nat) (c : CmdRec) : (s.setCmd ss c).pins = s.pins := rfl
@[simp] theorem State.setCmd_fuses (s : State) (ss : Nat) (c : CmdRec) : (s.setCmd ss c).fuses = s.fuses := rfl
@[simp] theorem State.setCmd_regs (s : State) (ss : Nat) (c : CmdRec) : (s.setCmd ss c).regs = s.regs := rfl
@[simp] theorem State.setCmd_odv (s : State) (ss : Nat) (c : CmdRec) : (s.setCmd ss c).odv = s.odv := rfl
@[simp] theorem State.setCmd_odb (s : State) (ss : Nat) (c : CmdRec) : (s.setCmd ss c).odb = s.odb := rfl
@[simp] theorem State.setCmd_tags (s : State) (ss : Nat) (c : CmdRec) : (s.setCmd ss c).tags = s.tags := rfl
@[simp] theorem State.setCmd_wear (s : State) (ss : Nat) (c : CmdRec) : (s.setCmd ss c).wear = s.wear := rfl
@[simp] theorem State.setCmd_led (s : State) (ss : Nat) (c : CmdRec) : (s.setCmd ss c).led = s.led := rfl
@[simp] theorem State.setCmd_nodes (s : State) (ss : Nat) (c : CmdRec) : (s.setCmd ss c).nodes = s.nodes := rfl
@[simp] theorem State.setCmd_mgmt (s : State) (ss : Nat) (c : CmdRec) : (s.setCmd ss c).mgmt = s.mgmt := rfl
@[simp] theorem State.setCmd_bu (s : State) (ss : Nat) (c : CmdRec) : (s.setCmd ss c).bu = s.bu := rfl
@[simp] theorem State.setCmd_d2d (s : State) (ss : Nat) (c : CmdRec) : (s.setCmd ss c).d2d = s.d2d := rfl
@[simp] theorem State.setCmd_bkl (s : State) (ss : Nat) (c : CmdRec) : (s.setCmd ss c).bkl = s.bkl := rfl
@[simp] theorem State.setCmd_rcv (s : State) (ss : Nat) (c : CmdRec) : (s.setCmd ss c).rcv = s.rcv := rfl
@[simp] theorem State.setCmd_roll (s : State) (ss : Nat) (c : CmdRec) : (s.setCmd ss c).roll = s.roll := rfl
@[simp] theorem State.setCmd_dev (s : State) (ss : Nat) (c : CmdRec) : (s.setCmd ss c).dev = s.dev := rfl
@[simp] theorem State.setCmd_host (s : State) (ss : Nat) (c : CmdRec) : (s.setCmd ss c).host = s.host := rfl
@[simp] theorem State.setCmd_own (s : State) (ss : Nat) (c : CmdRec) : (s.setCmd ss c).own = s.own := rfl
@[simp] theorem State.setCmd_cs (s : State) (ss : Nat) (c : CmdRec) : (s.setCmd ss c).cs = s.cs := rfl
@[simp] theorem State.setCmd_qs (s : State) (ss : Nat) (c : CmdRec) : (s.setCmd ss c).qs = s.qs := rfl
@[simp] theorem State.setCmd_x (s : State) (ss : Nat) (c : CmdRec) : (s.setCmd ss c).x = s.x := rfl
@[simp] theorem State.setCmd_acc (s : State) (ss : Nat) (c : CmdRec) : (s.setCmd ss c).acc = s.acc := rfl
@[simp] theorem State.setCmd_flt (s : State) (ss : Nat) (c : CmdRec) : (s.setCmd ss c).flt = s.flt := rfl
@[simp] theorem State.setCmd_res (s : State) (ss : Nat) (c : CmdRec) : (s.setCmd ss c).res = s.res := rfl
@[simp] theorem State.setCmd_dma (s : State) (ss : Nat) (c : CmdRec) : (s.setCmd ss c).dma = s.dma := rfl
@[simp] theorem State.setCmd_cw (s : State) (ss : Nat) (c : CmdRec) : (s.setCmd ss c).cw = s.cw := rfl
@[simp] theorem State.setCmd_ep (s : State) (ss : Nat) (c : CmdRec) : (s.setCmd ss c).ep = s.ep := rfl
@[simp] theorem State.setCmd_peer (s : State) (ss : Nat) (c : CmdRec) : (s.setCmd ss c).peer = s.peer := rfl
@[simp] theorem State.setCmd_sec (s : State) (ss : Nat) (c : CmdRec) : (s.setCmd ss c).sec = s.sec := rfl
@[simp] theorem State.setCmd_orph (s : State) (ss : Nat) (c : CmdRec) : (s.setCmd ss c).orph = s.orph := rfl
@[simp] theorem State.setCmd_tel (s : State) (ss : Nat) (c : CmdRec) : (s.setCmd ss c).tel = s.tel := rfl

/-! ### State.after -/

@[simp] theorem State.after_pending (s u : State) : (s.after u).pending = s.pending := rfl
@[simp] theorem State.after_freeSeq (s u : State) : (s.after u).freeSeq = u.freeSeq := rfl
@[simp] theorem State.after_out (s u : State) : (s.after u).out = u.out := rfl
@[simp] theorem State.after_power (s u : State) : (s.after u).power = s.power := rfl
@[simp] theorem State.after_ticks (s u : State) : (s.after u).ticks = s.ticks := rfl
@[simp] theorem State.after_clk (s u : State) : (s.after u).clk = { u.clk with drift := s.clk.drift } := rfl
@[simp] theorem State.after_pins (s u : State) : (s.after u).pins = s.pins := rfl
@[simp] theorem State.after_fuses (s u : State) : (s.after u).fuses = u.fuses := rfl
@[simp] theorem State.after_regs (s u : State) : (s.after u).regs = u.regs := rfl
@[simp] theorem State.after_odv (s u : State) : (s.after u).odv = u.odv := rfl
@[simp] theorem State.after_odb (s u : State) : (s.after u).odb = u.odb := rfl
@[simp] theorem State.after_tags (s u : State) : (s.after u).tags = u.tags := rfl
@[simp] theorem State.after_wear (s u : State) : (s.after u).wear = u.wear := rfl
@[simp] theorem State.after_led (s u : State) : (s.after u).led = u.led := rfl
@[simp] theorem State.after_gw (s u : State) : (s.after u).gw = u.gw := rfl
@[simp] theorem State.after_nodes (s u : State) : (s.after u).nodes = u.nodes := rfl
@[simp] theorem State.after_mgmt (s u : State) : (s.after u).mgmt = u.mgmt := rfl
@[simp] theorem State.after_bu (s u : State) : (s.after u).bu = u.bu := rfl
@[simp] theorem State.after_d2d (s u : State) : (s.after u).d2d = u.d2d := rfl
@[simp] theorem State.after_bkl (s u : State) : (s.after u).bkl = u.bkl := rfl
@[simp] theorem State.after_rcv (s u : State) : (s.after u).rcv = u.rcv := rfl
@[simp] theorem State.after_roll (s u : State) : (s.after u).roll = u.roll := rfl
@[simp] theorem State.after_dev (s u : State) : (s.after u).dev = u.dev := rfl
@[simp] theorem State.after_host (s u : State) : (s.after u).host = u.host := rfl
@[simp] theorem State.after_own (s u : State) : (s.after u).own = u.own := rfl
@[simp] theorem State.after_cs (s u : State) : (s.after u).cs = u.cs := rfl
@[simp] theorem State.after_qs (s u : State) : (s.after u).qs = u.qs := rfl
@[simp] theorem State.after_x (s u : State) : (s.after u).x = u.x := rfl
@[simp] theorem State.after_acc (s u : State) : (s.after u).acc = u.acc := rfl
@[simp] theorem State.after_flt (s u : State) : (s.after u).flt = u.flt := rfl
@[simp] theorem State.after_res (s u : State) : (s.after u).res = u.res := rfl
@[simp] theorem State.after_dma (s u : State) : (s.after u).dma = u.dma := rfl
@[simp] theorem State.after_cw (s u : State) : (s.after u).cw = u.cw := rfl
@[simp] theorem State.after_ep (s u : State) : (s.after u).ep = u.ep := rfl
@[simp] theorem State.after_peer (s u : State) : (s.after u).peer = u.peer := rfl
@[simp] theorem State.after_sec (s u : State) : (s.after u).sec = u.sec := rfl
@[simp] theorem State.after_orph (s u : State) : (s.after u).orph = u.orph := rfl
@[simp] theorem State.after_tel (s u : State) : (s.after u).tel = u.tel := rfl

/-! ### Answers -/

/-- A block that is up answers the next state that the command gives. -/
@[simp] theorem up_of_up {s : State} (f : State → State) (h : s.power = .up) : up s f = .next (s.after (f s)) := by
  simp [up, State.whenUp, h]

/-- A block that is not up takes no such command. -/
@[simp] theorem up_of_not {s : State} (f : State → State) (h : s.power ≠ .up) : up s f = .next s := by
  simp [up, State.whenUp, h]

end Sys2Proof.Machine
end

