-- ==== Sys2Proof/Laws/Ops.lean ====
section
/-! SUPPORT. What the shared operations do, once for each: registers and their fields, the vote, memories, Buckle's events,
error records, the end of a command. -/

namespace Sys2Proof.Machine

/-! ### Bits -/

theorem getLsbD_putBits (v : W32) (lo w x i : Nat) (hi : i < 32) :
    (putBits v lo w x).getLsbD i = if lo ≤ i ∧ i < lo + w then x.testBit (i - lo) else v.getLsbD i := by
  have h1 : ((2 ^ w - 1) * 2 ^ lo).testBit i = (decide (lo ≤ i) && decide (i - lo < w)) := by
    rw [Nat.testBit_mul_two_pow, Nat.testBit_two_pow_sub_one]
  have h2 : (x * 2 ^ lo).testBit i = (decide (lo ≤ i) && x.testBit (i - lo)) := by
    rw [Nat.testBit_mul_two_pow]
  simp only [putBits, BitVec.getLsbD_or, BitVec.getLsbD_and, BitVec.getLsbD_not, BitVec.getLsbD_ofNat, h1, h2, hi,
    decide_true, Bool.true_and]
  by_cases h : lo ≤ i
  · by_cases h' : i < lo + w
    · have : i - lo < w := by omega
      simp [h, h', this]
    · have : ¬ i - lo < w := by omega
      simp [h, h', this]
  · simp [h]

theorem testBit_getBits (v : W32) (lo w i : Nat) :
    (getBits v lo w).testBit i = (decide (i < w) && v.getLsbD (lo + i)) := by
  simp only [getBits, Nat.testBit_mod_two_pow, Nat.testBit_div_two_pow, BitVec.getLsbD]
  rw [Nat.add_comm]

/-- A field reads what was put into it. -/
theorem getBits_putBits_self (v : W32) (lo w x : Nat) (h : lo + w ≤ 32) :
    getBits (putBits v lo w x) lo w = x % 2 ^ w := by
  apply Nat.eq_of_testBit_eq
  intro i
  rw [testBit_getBits, Nat.testBit_mod_two_pow]
  by_cases hi : i < w
  · rw [getLsbD_putBits _ _ _ _ _ (by omega)]
    simp [hi]
  · simp [hi]

/-- Putting a field leaves a field apart from it as it was. -/
theorem getBits_putBits_ne (v : W32) (lo w x lo' w' : Nat) (h : lo' + w' ≤ 32) (hd : lo' + w' ≤ lo ∨ lo + w ≤ lo') :
    getBits (putBits v lo w x) lo' w' = getBits v lo' w' := by
  apply Nat.eq_of_testBit_eq
  intro i
  rw [testBit_getBits, testBit_getBits]
  by_cases hi : i < w'
  · rw [getLsbD_putBits _ _ _ _ _ (by omega)]
    have : ¬ (lo ≤ lo' + i ∧ lo' + i < lo + w) := by omega
    simp [hi, this]
  · simp [hi]

/-! ### Register words -/

@[simp] theorem maj_same (v : W32) : maj ⟨v, v, v⟩ = v := by simp [maj]

theorem State.trip_eq (s : State) (off : Nat) :
    s.trip off = sGet ⟨regReset off, regReset off, regReset off⟩ s.regs off := rfl

@[simp] theorem State.trip_putTrip_self (s : State) (off : Nat) (t : Trip) : (s.putTrip off t).trip off = t := by
  simp [State.trip_eq, State.putTrip]

theorem State.trip_putTrip_ne (s : State) {off o : Nat} (t : Trip) (h : o ≠ off) : (s.putTrip off t).trip o = s.trip o := by
  rw [State.trip_eq, State.trip_eq]
  exact sGet_sPut_ne _ _ _ _ h

@[simp] theorem State.rd_wr_self (s : State) (off : Nat) (v : W32) : (s.wr off v).rd off = v := by
  simp [State.rd, State.wr]

theorem State.rd_wr_ne (s : State) {off o : Nat} (v : W32) (h : o ≠ off) : (s.wr off v).rd o = s.rd o := by
  simp [State.rd, State.wr, State.trip_putTrip_ne s _ h]

/-- What a register word reads after one was written. -/
theorem State.rd_wr (s : State) (off o : Nat) (v : W32) : (s.wr off v).rd o = if o = off then v else s.rd o := by
  split
  · subst_vars; simp
  · exact s.rd_wr_ne v ‹_›

/-- A field put into every copy of a word is put into their majority. -/
theorem maj_putBits (t : Trip) (lo w x : Nat) :
    maj ⟨putBits t.a lo w x, putBits t.b lo w x, putBits t.c lo w x⟩ = putBits (maj t) lo w x := by
  apply BitVec.eq_of_getLsbD_eq
  intro i hi
  simp only [maj, BitVec.getLsbD_or, BitVec.getLsbD_and, getLsbD_putBits _ _ _ _ _ hi]
  by_cases h : lo ≤ i ∧ i < lo + w <;> simp [h]

theorem State.rd_setFld (s : State) (off lo w x o : Nat) :
    (s.setFld off lo w x).rd o = if o = off then putBits (s.rd off) lo w x else s.rd o := by
  by_cases h : o = off
  · subst h
    rw [if_pos rfl, State.setFld, State.rd, State.trip_putTrip_self, maj_putBits]
    rfl
  · rw [if_neg h, State.setFld, State.rd, State.trip_putTrip_ne s _ h, State.rd]

theorem State.rd_setBit (s : State) (off b o : Nat) (v : Bool) :
    (s.setBit off b v).rd o = if o = off then putBits (s.rd off) b 1 (b2n v) else s.rd o := by
  rw [State.setBit, State.rd_setFld]

theorem State.rd_inc (s : State) (off n o : Nat) :
    (s.inc off n).rd o = if o = off then s.rd off + BitVec.ofNat 32 n else s.rd o := by
  rw [State.inc, State.rd_wr]

theorem State.fld_setFld_self (s : State) (off lo w x : Nat) (h : lo + w ≤ 32) :
    (s.setFld off lo w x).fld off lo w = x % 2 ^ w := by
  simp only [State.fld, State.rd_setFld, if_true]
  exact getBits_putBits_self _ _ _ _ h

theorem State.fld_setFld_ne (s : State) (off lo w x lo' w' : Nat) (h : lo' + w' ≤ 32)
    (hd : lo' + w' ≤ lo ∨ lo + w ≤ lo') : (s.setFld off lo w x).fld off lo' w' = s.fld off lo' w' := by
  simp only [State.fld, State.rd_setFld, if_true]
  exact getBits_putBits_ne _ _ _ _ _ _ h hd

/-- Another state with the same register words reads the same. -/
theorem State.rd_congr {s t : State} (h : t.regs = s.regs) (o : Nat) : t.rd o = s.rd o := by
  simp [State.rd, State.trip, h]

/-! ### Memories -/

/-- A memory in canonical form. -/
abbrev Mem.wf (m : Mem) : Bool := sWf 0 m.bytes && sWf false m.poison

theorem sWf_markLines {m : Smap Bool} (h : sWf false m = true) (a e : Nat) (pz : Bool) (l n : Nat) :
    sWf false (markLines m a e pz l n) = true := by
  induction n generalizing m l with
  | zero => exact h
  | succ n ih =>
    simp only [markLines]
    apply ih
    split
    · exact sWf_sPut h _ _
    · split
      · exact sWf_sPut h _ _
      · exact h

/-- A write keeps the canonical form of a memory. -/
theorem Mem.wf_write {m : Mem} (h : m.wf = true) (a : Nat) (bs : Bytes) (pz : Bool) : (m.write a bs pz).wf = true := by
  unfold Mem.write
  split
  · exact h
  · simp only [Mem.wf, Bool.and_eq_true] at h ⊢
    exact ⟨sWf_wrBytes h.1 a bs, sWf_markLines h.2 _ _ _ _ _⟩

theorem Mem.write_bytes (m : Mem) (a : Nat) (bs : Bytes) (pz : Bool) : (m.write a bs pz).bytes = wrBytes m.bytes a bs := by
  unfold Mem.write
  split
  · cases bs with
    | nil => rfl
    | cons b bs => simp at *
  · rfl

/-- A read where bytes were written gives those bytes. -/
theorem Mem.read_write (m : Mem) (a : Nat) (bs : Bytes) (pz : Bool) : (m.write a bs pz).read a bs.length = bs := by
  rw [Mem.read, Mem.write_bytes, rdBytes_wrBytes]

/-- The two memories of the block are in canonical form right after reset. -/
theorem reset_mem_wf : State.reset.dev.wf = true ∧ State.reset.host.wf = true := by decide

/-! ### Buckle, messages, records -/

/-- States that differ in no more than Buckle's sources and targets, the side streams and what was sent. -/
theorem State.sendLevels_eq (s : State) :
    ∃ b d o, s.sendLevels = { s with bkl := b, d2d := d, out := o } := by
  unfold State.sendLevels
  generalize s.bkl.tgts.map Prod.fst ++ s.bkl.sent.map Prod.fst = l
  induction l generalizing s with
  | nil => exact ⟨s.bkl, s.d2d, s.out, rfl⟩
  | cons t l ih =>
    simp only [List.foldl_cons]
    split
    · exact ih s
    · split
      · exact ih s
      · obtain ⟨b, d, o, h⟩ := ih _
        exact ⟨b, d, o, h⟩

theorem State.irq_eq (s : State) (n : Nat) : ∃ b d o, s.irq n = { s with bkl := b, d2d := d, out := o } := by
  unfold State.irq State.onBkl
  obtain ⟨b, d, o, h⟩ := ({ s with bkl := s.bkl.event n } : State).sendLevels_eq
  exact ⟨b, d, o, h⟩

theorem State.onBkl_eq (s : State) (f : Buckle → Buckle) : ∃ b d o, s.onBkl f = { s with bkl := b, d2d := d, out := o } := by
  unfold State.onBkl
  obtain ⟨b, d, o, h⟩ := ({ s with bkl := f s.bkl } : State).sendLevels_eq
  exact ⟨b, d, o, h⟩

@[simp] theorem State.irq_pending (s : State) (n : Nat) : (s.irq n).pending = s.pending := by
  obtain ⟨_, _, _, h⟩ := s.irq_eq n; rw [h]
@[simp] theorem State.irq_freeSeq (s : State) (n : Nat) : (s.irq n).freeSeq = s.freeSeq := by
  obtain ⟨_, _, _, h⟩ := s.irq_eq n; rw [h]
@[simp] theorem State.irq_power (s : State) (n : Nat) : (s.irq n).power = s.power := by
  obtain ⟨_, _, _, h⟩ := s.irq_eq n; rw [h]
@[simp] theorem State.irq_ticks (s : State) (n : Nat) : (s.irq n).ticks = s.ticks := by
  obtain ⟨_, _, _, h⟩ := s.irq_eq n; rw [h]
@[simp] theorem State.irq_clk (s : State) (n : Nat) : (s.irq n).clk = s.clk := by
  obtain ⟨_, _, _, h⟩ := s.irq_eq n; rw [h]
@[simp] theorem State.irq_pins (s : State) (n : Nat) : (s.irq n).pins = s.pins := by
  obtain ⟨_, _, _, h⟩ := s.irq_eq n; rw [h]
@[simp] theorem State.irq_fuses (s : State) (n : Nat) : (s.irq n).fuses = s.fuses := by
  obtain ⟨_, _, _, h⟩ := s.irq_eq n; rw [h]
@[simp] theorem State.irq_regs (s : State) (n : Nat) : (s.irq n).regs = s.regs := by
  obtain ⟨_, _, _, h⟩ := s.irq_eq n; rw [h]
@[simp] theorem State.irq_odv (s : State) (n : Nat) : (s.irq n).odv = s.odv := by
  obtain ⟨_, _, _, h⟩ := s.irq_eq n; rw [h]
@[simp] theorem State.irq_odb (s : State) (n : Nat) : (s.irq n).odb = s.odb := by
  obtain ⟨_, _, _, h⟩ := s.irq_eq n; rw [h]
@[simp] theorem State.irq_tags (s : State) (n : Nat) : (s.irq n).tags = s.tags := by
  obtain ⟨_, _, _, h⟩ := s.irq_eq n; rw [h]
@[simp] theorem State.irq_wear (s : State) (n : Nat) : (s.irq n).wear = s.wear := by
  obtain ⟨_, _, _, h⟩ := s.irq_eq n; rw [h]
@[simp] theorem State.irq_led (s : State) (n : Nat) : (s.irq n).led = s.led := by
  obtain ⟨_, _, _, h⟩ := s.irq_eq n; rw [h]
@[simp] theorem State.irq_gw (s : State) (n : Nat) : (s.irq n).gw = s.gw := by
  obtain ⟨_, _, _, h⟩ := s.irq_eq n; rw [h]
@[simp] theorem State.irq_nodes (s : State) (n : Nat) : (s.irq n).nodes = s.nodes := by
  obtain ⟨_, _, _, h⟩ := s.irq_eq n; rw [h]
@[simp] theorem State.irq_mgmt (s : State) (n : Nat) : (s.irq n).mgmt = s.mgmt := by
  obtain ⟨_, _, _, h⟩ := s.irq_eq n; rw [h]
@[simp] theorem State.irq_bu (s : State) (n : Nat) : (s.irq n).bu = s.bu := by
  obtain ⟨_, _, _, h⟩ := s.irq_eq n; rw [h]
@[simp] theorem State.irq_rcv (s : State) (n : Nat) : (s.irq n).rcv = s.rcv := by
  obtain ⟨_, _, _, h⟩ := s.irq_eq n; rw [h]
@[simp] theorem State.irq_roll (s : State) (n : Nat) : (s.irq n).roll = s.roll := by
  obtain ⟨_, _, _, h⟩ := s.irq_eq n; rw [h]
@[simp] theorem State.irq_dev (s : State) (n : Nat) : (s.irq n).dev = s.dev := by
  obtain ⟨_, _, _, h⟩ := s.irq_eq n; rw [h]
@[simp] theorem State.irq_host (s : State) (n : Nat) : (s.irq n).host = s.host := by
  obtain ⟨_, _, _, h⟩ := s.irq_eq n; rw [h]
@[simp] theorem State.irq_own (s : State) (n : Nat) : (s.irq n).own = s.own := by
  obtain ⟨_, _, _, h⟩ := s.irq_eq n; rw [h]
@[simp] theorem State.irq_cs (s : State) (n : Nat) : (s.irq n).cs = s.cs := by
  obtain ⟨_, _, _, h⟩ := s.irq_eq n; rw [h]
@[simp] theorem State.irq_qs (s : State) (n : Nat) : (s.irq n).qs = s.qs := by
  obtain ⟨_, _, _, h⟩ := s.irq_eq n; rw [h]
@[simp] theorem State.irq_x (s : State) (n : Nat) : (s.irq n).x = s.x := by
  obtain ⟨_, _, _, h⟩ := s.irq_eq n; rw [h]
@[simp] theorem State.irq_acc (s : State) (n : Nat) : (s.irq n).acc = s.acc := by
  obtain ⟨_, _, _, h⟩ := s.irq_eq n; rw [h]
@[simp] theorem State.irq_flt (s : State) (n : Nat) : (s.irq n).flt = s.flt := by
  obtain ⟨_, _, _, h⟩ := s.irq_eq n; rw [h]
@[simp] theorem State.irq_res (s : State) (n : Nat) : (s.irq n).res = s.res := by
  obtain ⟨_, _, _, h⟩ := s.irq_eq n; rw [h]
@[simp] theorem State.irq_dma (s : State) (n : Nat) : (s.irq n).dma = s.dma := by
  obtain ⟨_, _, _, h⟩ := s.irq_eq n; rw [h]
@[simp] theorem State.irq_cw (s : State) (n : Nat) : (s.irq n).cw = s.cw := by
  obtain ⟨_, _, _, h⟩ := s.irq_eq n; rw [h]
@[simp] theorem State.irq_ep (s : State) (n : Nat) : (s.irq n).ep = s.ep := by
  obtain ⟨_, _, _, h⟩ := s.irq_eq n; rw [h]
@[simp] theorem State.irq_peer (s : State) (n : Nat) : (s.irq n).peer = s.peer := by
  obtain ⟨_, _, _, h⟩ := s.irq_eq n; rw [h]
@[simp] theorem State.irq_sec (s : State) (n : Nat) : (s.irq n).sec = s.sec := by
  obtain ⟨_, _, _, h⟩ := s.irq_eq n; rw [h]
@[simp] theorem State.irq_orph (s : State) (n : Nat) : (s.irq n).orph = s.orph := by
  obtain ⟨_, _, _, h⟩ := s.irq_eq n; rw [h]
@[simp] theorem State.irq_tel (s : State) (n : Nat) : (s.irq n).tel = s.tel := by
  obtain ⟨_, _, _, h⟩ := s.irq_eq n; rw [h]
@[simp] theorem State.onBkl_pending (s : State) (f : Buckle → Buckle) : (s.onBkl f).pending = s.pending := by
  obtain ⟨_, _, _, h⟩ := s.onBkl_eq f; rw [h]
@[simp] theorem State.onBkl_freeSeq (s : State) (f : Buckle → Buckle) : (s.onBkl f).freeSeq = s.freeSeq := by
  obtain ⟨_, _, _, h⟩ := s.onBkl_eq f; rw [h]
@[simp] theorem State.onBkl_power (s : State) (f : Buckle → Buckle) : (s.onBkl f).power = s.power := by
  obtain ⟨_, _, _, h⟩ := s.onBkl_eq f; rw [h]
@[simp] theorem State.onBkl_ticks (s : State) (f : Buckle → Buckle) : (s.onBkl f).ticks = s.ticks := by
  obtain ⟨_, _, _, h⟩ := s.onBkl_eq f; rw [h]
@[simp] theorem State.onBkl_clk (s : State) (f : Buckle → Buckle) : (s.onBkl f).clk = s.clk := by
  obtain ⟨_, _, _, h⟩ := s.onBkl_eq f; rw [h]
@[simp] theorem State.onBkl_pins (s : State) (f : Buckle → Buckle) : (s.onBkl f).pins = s.pins := by
  obtain ⟨_, _, _, h⟩ := s.onBkl_eq f; rw [h]
@[simp] theorem State.onBkl_fuses (s : State) (f : Buckle → Buckle) : (s.onBkl f).fuses = s.fuses := by
  obtain ⟨_, _, _, h⟩ := s.onBkl_eq f; rw [h]
@[simp] theorem State.onBkl_regs (s : State) (f : Buckle → Buckle) : (s.onBkl f).regs = s.regs := by
  obtain ⟨_, _, _, h⟩ := s.onBkl_eq f; rw [h]
@[simp] theorem State.onBkl_odv (s : State) (f : Buckle → Buckle) : (s.onBkl f).odv = s.odv := by
  obtain ⟨_, _, _, h⟩ := s.onBkl_eq f; rw [h]
@[simp] theorem State.onBkl_odb (s : State) (f : Buckle → Buckle) : (s.onBkl f).odb = s.odb := by
  obtain ⟨_, _, _, h⟩ := s.onBkl_eq f; rw [h]
@[simp] theorem State.onBkl_tags (s : State) (f : Buckle → Buckle) : (s.onBkl f).tags = s.tags := by
  obtain ⟨_, _, _, h⟩ := s.onBkl_eq f; rw [h]
@[simp] theorem State.onBkl_wear (s : State) (f : Buckle → Buckle) : (s.onBkl f).wear = s.wear := by
  obtain ⟨_, _, _, h⟩ := s.onBkl_eq f; rw [h]
@[simp] theorem State.onBkl_led (s : State) (f : Buckle → Buckle) : (s.onBkl f).led = s.led := by
  obtain ⟨_, _, _, h⟩ := s.onBkl_eq f; rw [h]
@[simp] theorem State.onBkl_gw (s : State) (f : Buckle → Buckle) : (s.onBkl f).gw = s.gw := by
  obtain ⟨_, _, _, h⟩ := s.onBkl_eq f; rw [h]
@[simp] theorem State.onBkl_nodes (s : State) (f : Buckle → Buckle) : (s.onBkl f).nodes = s.nodes := by
  obtain ⟨_, _, _, h⟩ := s.onBkl_eq f; rw [h]
@[simp] theorem State.onBkl_mgmt (s : State) (f : Buckle → Buckle) : (s.onBkl f).mgmt = s.mgmt := by
  obtain ⟨_, _, _, h⟩ := s.onBkl_eq f; rw [h]
@[simp] theorem State.onBkl_bu (s : State) (f : Buckle → Buckle) : (s.onBkl f).bu = s.bu := by
  obtain ⟨_, _, _, h⟩ := s.onBkl_eq f; rw [h]
@[simp] theorem State.onBkl_rcv (s : State) (f : Buckle → Buckle) : (s.onBkl f).rcv = s.rcv := by
  obtain ⟨_, _, _, h⟩ := s.onBkl_eq f; rw [h]
@[simp] theorem State.onBkl_roll (s : State) (f : Buckle → Buckle) : (s.onBkl f).roll = s.roll := by
  obtain ⟨_, _, _, h⟩ := s.onBkl_eq f; rw [h]
@[simp] theorem State.onBkl_dev (s : State) (f : Buckle → Buckle) : (s.onBkl f).dev = s.dev := by
  obtain ⟨_, _, _, h⟩ := s.onBkl_eq f; rw [h]
@[simp] theorem State.onBkl_host (s : State) (f : Buckle → Buckle) : (s.onBkl f).host = s.host := by
  obtain ⟨_, _, _, h⟩ := s.onBkl_eq f; rw [h]
@[simp] theorem State.onBkl_own (s : State) (f : Buckle → Buckle) : (s.onBkl f).own = s.own := by
  obtain ⟨_, _, _, h⟩ := s.onBkl_eq f; rw [h]
@[simp] theorem State.onBkl_cs (s : State) (f : Buckle → Buckle) : (s.onBkl f).cs = s.cs := by
  obtain ⟨_, _, _, h⟩ := s.onBkl_eq f; rw [h]
@[simp] theorem State.onBkl_qs (s : State) (f : Buckle → Buckle) : (s.onBkl f).qs = s.qs := by
  obtain ⟨_, _, _, h⟩ := s.onBkl_eq f; rw [h]
@[simp] theorem State.onBkl_x (s : State) (f : Buckle → Buckle) : (s.onBkl f).x = s.x := by
  obtain ⟨_, _, _, h⟩ := s.onBkl_eq f; rw [h]
@[simp] theorem State.onBkl_acc (s : State) (f : Buckle → Buckle) : (s.onBkl f).acc = s.acc := by
  obtain ⟨_, _, _, h⟩ := s.onBkl_eq f; rw [h]
@[simp] theorem State.onBkl_flt (s : State) (f : Buckle → Buckle) : (s.onBkl f).flt = s.flt := by
  obtain ⟨_, _, _, h⟩ := s.onBkl_eq f; rw [h]
@[simp] theorem State.onBkl_res (s : State) (f : Buckle → Buckle) : (s.onBkl f).res = s.res := by
  obtain ⟨_, _, _, h⟩ := s.onBkl_eq f; rw [h]
@[simp] theorem State.onBkl_dma (s : State) (f : Buckle → Buckle) : (s.onBkl f).dma = s.dma := by
  obtain ⟨_, _, _, h⟩ := s.onBkl_eq f; rw [h]
@[simp] theorem State.onBkl_cw (s : State) (f : Buckle → Buckle) : (s.onBkl f).cw = s.cw := by
  obtain ⟨_, _, _, h⟩ := s.onBkl_eq f; rw [h]
@[simp] theorem State.onBkl_ep (s : State) (f : Buckle → Buckle) : (s.onBkl f).ep = s.ep := by
  obtain ⟨_, _, _, h⟩ := s.onBkl_eq f; rw [h]
@[simp] theorem State.onBkl_peer (s : State) (f : Buckle → Buckle) : (s.onBkl f).peer = s.peer := by
  obtain ⟨_, _, _, h⟩ := s.onBkl_eq f; rw [h]
@[simp] theorem State.onBkl_sec (s : State) (f : Buckle → Buckle) : (s.onBkl f).sec = s.sec := by
  obtain ⟨_, _, _, h⟩ := s.onBkl_eq f; rw [h]
@[simp] theorem State.onBkl_orph (s : State) (f : Buckle → Buckle) : (s.onBkl f).orph = s.orph := by
  obtain ⟨_, _, _, h⟩ := s.onBkl_eq f; rw [h]
@[simp] theorem State.onBkl_tel (s : State) (f : Buckle → Buckle) : (s.onBkl f).tel = s.tel := by
  obtain ⟨_, _, _, h⟩ := s.onBkl_eq f; rw [h]

@[simp] theorem State.rd_irq (s : State) (n o : Nat) : (s.irq n).rd o = s.rd o := State.rd_congr (s.irq_regs n) o

/-! ### The end of a command record (R103) -/

theorem State.cmdEnd_eq (s : State) (ss status state : Nat) :
    s.cmdEnd ss status state = (s.setCmd ss { s.cmd ss with
      phase := if status = 0 then 2 else 3, status := status, state := state }).irq (0xC87 + ss) := rfl

@[simp] theorem State.cmdEnd_pending (s : State) (ss status state : Nat) : (s.cmdEnd ss status state).pending = s.pending := by
  rw [State.cmdEnd_eq, State.irq_pending, State.setCmd_pending]
@[simp] theorem State.cmdEnd_freeSeq (s : State) (ss status state : Nat) : (s.cmdEnd ss status state).freeSeq = s.freeSeq := by
  rw [State.cmdEnd_eq, State.irq_freeSeq, State.setCmd_freeSeq]
@[simp] theorem State.cmdEnd_power (s : State) (ss status state : Nat) : (s.cmdEnd ss status state).power = s.power := by
  rw [State.cmdEnd_eq, State.irq_power, State.setCmd_power]
@[simp] theorem State.cmdEnd_ticks (s : State) (ss status state : Nat) : (s.cmdEnd ss status state).ticks = s.ticks := by
  rw [State.cmdEnd_eq, State.irq_ticks, State.setCmd_ticks]
@[simp] theorem State.cmdEnd_clk (s : State) (ss status state : Nat) : (s.cmdEnd ss status state).clk = s.clk := by
  rw [State.cmdEnd_eq, State.irq_clk, State.setCmd_clk]
@[simp] theorem State.cmdEnd_pins (s : State) (ss status state : Nat) : (s.cmdEnd ss status state).pins = s.pins := by
  rw [State.cmdEnd_eq, State.irq_pins, State.setCmd_pins]
@[simp] theorem State.cmdEnd_fuses (s : State) (ss status state : Nat) : (s.cmdEnd ss status state).fuses = s.fuses := by
  rw [State.cmdEnd_eq, State.irq_fuses, State.setCmd_fuses]
@[simp] theorem State.cmdEnd_regs (s : State) (ss status state : Nat) : (s.cmdEnd ss status state).regs = s.regs := by
  rw [State.cmdEnd_eq, State.irq_regs, State.setCmd_regs]
@[simp] theorem State.cmdEnd_odv (s : State) (ss status state : Nat) : (s.cmdEnd ss status state).odv = s.odv := by
  rw [State.cmdEnd_eq, State.irq_odv, State.setCmd_odv]
@[simp] theorem State.cmdEnd_odb (s : State) (ss status state : Nat) : (s.cmdEnd ss status state).odb = s.odb := by
  rw [State.cmdEnd_eq, State.irq_odb, State.setCmd_odb]
@[simp] theorem State.cmdEnd_tags (s : State) (ss status state : Nat) : (s.cmdEnd ss status state).tags = s.tags := by
  rw [State.cmdEnd_eq, State.irq_tags, State.setCmd_tags]
@[simp] theorem State.cmdEnd_wear (s : State) (ss status state : Nat) : (s.cmdEnd ss status state).wear = s.wear := by
  rw [State.cmdEnd_eq, State.irq_wear, State.setCmd_wear]
@[simp] theorem State.cmdEnd_led (s : State) (ss status state : Nat) : (s.cmdEnd ss status state).led = s.led := by
  rw [State.cmdEnd_eq, State.irq_led, State.setCmd_led]
@[simp] theorem State.cmdEnd_nodes (s : State) (ss status state : Nat) : (s.cmdEnd ss status state).nodes = s.nodes := by
  rw [State.cmdEnd_eq, State.irq_nodes, State.setCmd_nodes]
@[simp] theorem State.cmdEnd_mgmt (s : State) (ss status state : Nat) : (s.cmdEnd ss status state).mgmt = s.mgmt := by
  rw [State.cmdEnd_eq, State.irq_mgmt, State.setCmd_mgmt]
@[simp] theorem State.cmdEnd_bu (s : State) (ss status state : Nat) : (s.cmdEnd ss status state).bu = s.bu := by
  rw [State.cmdEnd_eq, State.irq_bu, State.setCmd_bu]
@[simp] theorem State.cmdEnd_rcv (s : State) (ss status state : Nat) : (s.cmdEnd ss status state).rcv = s.rcv := by
  rw [State.cmdEnd_eq, State.irq_rcv, State.setCmd_rcv]
@[simp] theorem State.cmdEnd_roll (s : State) (ss status state : Nat) : (s.cmdEnd ss status state).roll = s.roll := by
  rw [State.cmdEnd_eq, State.irq_roll, State.setCmd_roll]
@[simp] theorem State.cmdEnd_dev (s : State) (ss status state : Nat) : (s.cmdEnd ss status state).dev = s.dev := by
  rw [State.cmdEnd_eq, State.irq_dev, State.setCmd_dev]
@[simp] theorem State.cmdEnd_host (s : State) (ss status state : Nat) : (s.cmdEnd ss status state).host = s.host := by
  rw [State.cmdEnd_eq, State.irq_host, State.setCmd_host]
@[simp] theorem State.cmdEnd_own (s : State) (ss status state : Nat) : (s.cmdEnd ss status state).own = s.own := by
  rw [State.cmdEnd_eq, State.irq_own, State.setCmd_own]
@[simp] theorem State.cmdEnd_cs (s : State) (ss status state : Nat) : (s.cmdEnd ss status state).cs = s.cs := by
  rw [State.cmdEnd_eq, State.irq_cs, State.setCmd_cs]
@[simp] theorem State.cmdEnd_qs (s : State) (ss status state : Nat) : (s.cmdEnd ss status state).qs = s.qs := by
  rw [State.cmdEnd_eq, State.irq_qs, State.setCmd_qs]
@[simp] theorem State.cmdEnd_x (s : State) (ss status state : Nat) : (s.cmdEnd ss status state).x = s.x := by
  rw [State.cmdEnd_eq, State.irq_x, State.setCmd_x]
@[simp] theorem State.cmdEnd_acc (s : State) (ss status state : Nat) : (s.cmdEnd ss status state).acc = s.acc := by
  rw [State.cmdEnd_eq, State.irq_acc, State.setCmd_acc]
@[simp] theorem State.cmdEnd_flt (s : State) (ss status state : Nat) : (s.cmdEnd ss status state).flt = s.flt := by
  rw [State.cmdEnd_eq, State.irq_flt, State.setCmd_flt]
@[simp] theorem State.cmdEnd_res (s : State) (ss status state : Nat) : (s.cmdEnd ss status state).res = s.res := by
  rw [State.cmdEnd_eq, State.irq_res, State.setCmd_res]
@[simp] theorem State.cmdEnd_dma (s : State) (ss status state : Nat) : (s.cmdEnd ss status state).dma = s.dma := by
  rw [State.cmdEnd_eq, State.irq_dma, State.setCmd_dma]
@[simp] theorem State.cmdEnd_cw (s : State) (ss status state : Nat) : (s.cmdEnd ss status state).cw = s.cw := by
  rw [State.cmdEnd_eq, State.irq_cw, State.setCmd_cw]
@[simp] theorem State.cmdEnd_ep (s : State) (ss status state : Nat) : (s.cmdEnd ss status state).ep = s.ep := by
  rw [State.cmdEnd_eq, State.irq_ep, State.setCmd_ep]
@[simp] theorem State.cmdEnd_peer (s : State) (ss status state : Nat) : (s.cmdEnd ss status state).peer = s.peer := by
  rw [State.cmdEnd_eq, State.irq_peer, State.setCmd_peer]
@[simp] theorem State.cmdEnd_sec (s : State) (ss status state : Nat) : (s.cmdEnd ss status state).sec = s.sec := by
  rw [State.cmdEnd_eq, State.irq_sec, State.setCmd_sec]
@[simp] theorem State.cmdEnd_orph (s : State) (ss status state : Nat) : (s.cmdEnd ss status state).orph = s.orph := by
  rw [State.cmdEnd_eq, State.irq_orph, State.setCmd_orph]
@[simp] theorem State.cmdEnd_tel (s : State) (ss status state : Nat) : (s.cmdEnd ss status state).tel = s.tel := by
  rw [State.cmdEnd_eq, State.irq_tel, State.setCmd_tel]

@[simp] theorem State.rd_cmdEnd (s : State) (ss status state o : Nat) : (s.cmdEnd ss status state).rd o = s.rd o :=
  State.rd_congr (s.cmdEnd_regs ss status state) o

/-- The record of a command that ended. -/
theorem State.cmd_cmdEnd (s : State) (ss status state : Nat) :
    (s.cmdEnd ss status state).cmd ss =
      { s.cmd ss with phase := if status = 0 then 2 else 3, status := status, state := state } := by
  unfold State.cmd
  rw [State.cmdEnd_eq, State.irq_gw]
  simp [State.setCmd, State.cmd]

/-! ### Error records (R128, R420, R422) -/

/-- States that differ in no more than registers, host memory, time tags, context error counts, the records dropped,
Buckle, the side streams and what was sent. -/
def SameButErr (s t : State) : Prop :=
  ∃ r h g c v b d o, t = { s with regs := r, host := h, tags := g, cs := { s.cs with recs := c },
                                  rcv := { s.rcv with drops := v }, bkl := b, d2d := d, out := o }

theorem SameButErr.refl (s : State) : SameButErr s s :=
  ⟨s.regs, s.host, s.tags, s.cs.recs, s.rcv.drops, s.bkl, s.d2d, s.out, rfl⟩

theorem SameButErr.trans {s t u : State} (h : SameButErr s t) (h' : SameButErr t u) : SameButErr s u := by
  obtain ⟨r, h, g, c, v, b, d, o, rfl⟩ := h
  obtain ⟨r, h, g, c, v, b, d, o, rfl⟩ := h'
  exact ⟨r, h, g, c, v, b, d, o, rfl⟩

theorem SameButErr.irq (s : State) (n : Nat) : SameButErr s (s.irq n) := by
  obtain ⟨b, d, o, h⟩ := s.irq_eq n
  rw [h]
  exact ⟨s.regs, s.host, s.tags, s.cs.recs, s.rcv.drops, b, d, o, rfl⟩

theorem SameButErr.inc (s : State) (off n : Nat) : SameButErr s (s.inc off n) :=
  ⟨_, s.host, s.tags, s.cs.recs, s.rcv.drops, s.bkl, s.d2d, s.out, rfl⟩

theorem SameButErr.raise (s : State) (off b cnt : Nat) : SameButErr s (s.raise off b cnt) :=
  ⟨_, s.host, s.tags, s.cs.recs, s.rcv.drops, s.bkl, s.d2d, s.out, rfl⟩

theorem SameButErr.hostCtlWrite (s : State) (k a : Nat) (bs : Bytes) : SameButErr s (s.hostCtlWrite k a bs) := by
  have host (t : State) (m : Mem) : SameButErr t { t with host := m } :=
    ⟨t.regs, m, t.tags, t.cs.recs, t.rcv.drops, t.bkl, t.d2d, t.out, rfl⟩
  unfold State.hostCtlWrite
  split
  · exact .refl s
  · split
    · exact .refl s
    · rename_i p _
      split
      · exact (SameButErr.raise s _ _ _).trans (.inc _ _ _)
      · exact ((SameButErr.inc s _ _).trans (.inc (s.countWrite p 1 (lineCount a bs.length)) _ _)).trans (host _ _)

theorem SameButErr.tag (s : State) (st : Nat) : SameButErr s (s.tag st).2 :=
  ⟨s.regs, s.host, _, s.cs.recs, s.rcv.drops, s.bkl, s.d2d, s.out, rfl⟩

theorem SameButErr.errPut (s : State) (b0 fl : Nat) (rest : Bytes) : SameButErr s (s.errPut b0 fl rest) := by
  unfold State.errPut
  simp only []
  exact ((SameButErr.hostCtlWrite _ _ _ _).trans (.inc _ 0x110 1)).trans (.irq _ 0xCE1)

theorem SameButErr.drops (s : State) (v : Smap Nat) : SameButErr s { s with rcv := { s.rcv with drops := v } } :=
  ⟨s.regs, s.host, s.tags, s.cs.recs, v, s.bkl, s.d2d, s.out, rfl⟩

theorem SameButErr.errSummary (s : State) : SameButErr s s.errSummary := by
  have put (t : State) (m : Bytes) : SameButErr s t → SameButErr s { t.errPut 7 0 m with
      rcv := { (t.errPut 7 0 m).rcv with drops := [] } } := fun h => (h.trans (.errPut t 7 0 m)).trans (.drops _ [])
  unfold State.errSummary
  split
  · exact .refl s
  · exact put _ _ (.tag s 0x80)

theorem SameButErr.errDrop (s : State) (c : Nat) : SameButErr s (s.errDrop c) := by
  have h : SameButErr s { (s.inc (0x120 + 4 * c)).raise 0x114 0 0x118 with
      rcv := { ((s.inc (0x120 + 4 * c)).raise 0x114 0 0x118).rcv with
        drops := sMod 0 ((s.inc (0x120 + 4 * c)).raise 0x114 0 0x118).rcv.drops c (· + 1) } } :=
    ((SameButErr.inc s _ 1).trans (.raise _ 0x114 0 0x118)).trans (.drops _ _)
  unfold State.errDrop
  simp only []
  split
  · exact h
  · exact h.trans (.irq _ _)

/-- What an error record can change. -/
theorem SameButErr.err (s : State) (e : ErrInfo) : SameButErr s (s.err e) := by
  have h : SameButErr s (s.errCount e.ctx) := by
    unfold State.errCount
    split
    · exact ⟨s.regs, s.host, s.tags, _, s.rcv.drops, s.bkl, s.d2d, s.out, rfl⟩
    · exact .refl s
  refine h.trans ?_
  unfold State.err State.errWrite
  simp only []
  split
  · exact (SameButErr.errSummary _).trans (.errDrop _ _)
  · exact ((SameButErr.errSummary _).trans (.tag _ _)).trans (.errPut _ _ _ _)

@[simp] theorem State.err_pending (s : State) (e : ErrInfo) : (s.err e).pending = s.pending := by
  obtain ⟨_, _, _, _, _, _, _, _, h⟩ := SameButErr.err s e; rw [h]
@[simp] theorem State.err_freeSeq (s : State) (e : ErrInfo) : (s.err e).freeSeq = s.freeSeq := by
  obtain ⟨_, _, _, _, _, _, _, _, h⟩ := SameButErr.err s e; rw [h]
@[simp] theorem State.err_power (s : State) (e : ErrInfo) : (s.err e).power = s.power := by
  obtain ⟨_, _, _, _, _, _, _, _, h⟩ := SameButErr.err s e; rw [h]
@[simp] theorem State.err_ticks (s : State) (e : ErrInfo) : (s.err e).ticks = s.ticks := by
  obtain ⟨_, _, _, _, _, _, _, _, h⟩ := SameButErr.err s e; rw [h]
@[simp] theorem State.err_clk (s : State) (e : ErrInfo) : (s.err e).clk = s.clk := by
  obtain ⟨_, _, _, _, _, _, _, _, h⟩ := SameButErr.err s e; rw [h]
@[simp] theorem State.err_pins (s : State) (e : ErrInfo) : (s.err e).pins = s.pins := by
  obtain ⟨_, _, _, _, _, _, _, _, h⟩ := SameButErr.err s e; rw [h]
@[simp] theorem State.err_fuses (s : State) (e : ErrInfo) : (s.err e).fuses = s.fuses := by
  obtain ⟨_, _, _, _, _, _, _, _, h⟩ := SameButErr.err s e; rw [h]
@[simp] theorem State.err_odv (s : State) (e : ErrInfo) : (s.err e).odv = s.odv := by
  obtain ⟨_, _, _, _, _, _, _, _, h⟩ := SameButErr.err s e; rw [h]
@[simp] theorem State.err_odb (s : State) (e : ErrInfo) : (s.err e).odb = s.odb := by
  obtain ⟨_, _, _, _, _, _, _, _, h⟩ := SameButErr.err s e; rw [h]
@[simp] theorem State.err_wear (s : State) (e : ErrInfo) : (s.err e).wear = s.wear := by
  obtain ⟨_, _, _, _, _, _, _, _, h⟩ := SameButErr.err s e; rw [h]
@[simp] theorem State.err_led (s : State) (e : ErrInfo) : (s.err e).led = s.led := by
  obtain ⟨_, _, _, _, _, _, _, _, h⟩ := SameButErr.err s e; rw [h]
@[simp] theorem State.err_gw (s : State) (e : ErrInfo) : (s.err e).gw = s.gw := by
  obtain ⟨_, _, _, _, _, _, _, _, h⟩ := SameButErr.err s e; rw [h]
@[simp] theorem State.err_nodes (s : State) (e : ErrInfo) : (s.err e).nodes = s.nodes := by
  obtain ⟨_, _, _, _, _, _, _, _, h⟩ := SameButErr.err s e; rw [h]
@[simp] theorem State.err_mgmt (s : State) (e : ErrInfo) : (s.err e).mgmt = s.mgmt := by
  obtain ⟨_, _, _, _, _, _, _, _, h⟩ := SameButErr.err s e; rw [h]
@[simp] theorem State.err_bu (s : State) (e : ErrInfo) : (s.err e).bu = s.bu := by
  obtain ⟨_, _, _, _, _, _, _, _, h⟩ := SameButErr.err s e; rw [h]
@[simp] theorem State.err_roll (s : State) (e : ErrInfo) : (s.err e).roll = s.roll := by
  obtain ⟨_, _, _, _, _, _, _, _, h⟩ := SameButErr.err s e; rw [h]
@[simp] theorem State.err_dev (s : State) (e : ErrInfo) : (s.err e).dev = s.dev := by
  obtain ⟨_, _, _, _, _, _, _, _, h⟩ := SameButErr.err s e; rw [h]
@[simp] theorem State.err_own (s : State) (e : ErrInfo) : (s.err e).own = s.own := by
  obtain ⟨_, _, _, _, _, _, _, _, h⟩ := SameButErr.err s e; rw [h]
@[simp] theorem State.err_qs (s : State) (e : ErrInfo) : (s.err e).qs = s.qs := by
  obtain ⟨_, _, _, _, _, _, _, _, h⟩ := SameButErr.err s e; rw [h]
@[simp] theorem State.err_x (s : State) (e : ErrInfo) : (s.err e).x = s.x := by
  obtain ⟨_, _, _, _, _, _, _, _, h⟩ := SameButErr.err s e; rw [h]
@[simp] theorem State.err_acc (s : State) (e : ErrInfo) : (s.err e).acc = s.acc := by
  obtain ⟨_, _, _, _, _, _, _, _, h⟩ := SameButErr.err s e; rw [h]
@[simp] theorem State.err_flt (s : State) (e : ErrInfo) : (s.err e).flt = s.flt := by
  obtain ⟨_, _, _, _, _, _, _, _, h⟩ := SameButErr.err s e; rw [h]
@[simp] theorem State.err_res (s : State) (e : ErrInfo) : (s.err e).res = s.res := by
  obtain ⟨_, _, _, _, _, _, _, _, h⟩ := SameButErr.err s e; rw [h]
@[simp] theorem State.err_dma (s : State) (e : ErrInfo) : (s.err e).dma = s.dma := by
  obtain ⟨_, _, _, _, _, _, _, _, h⟩ := SameButErr.err s e; rw [h]
@[simp] theorem State.err_cw (s : State) (e : ErrInfo) : (s.err e).cw = s.cw := by
  obtain ⟨_, _, _, _, _, _, _, _, h⟩ := SameButErr.err s e; rw [h]
@[simp] theorem State.err_ep (s : State) (e : ErrInfo) : (s.err e).ep = s.ep := by
  obtain ⟨_, _, _, _, _, _, _, _, h⟩ := SameButErr.err s e; rw [h]
@[simp] theorem State.err_peer (s : State) (e : ErrInfo) : (s.err e).peer = s.peer := by
  obtain ⟨_, _, _, _, _, _, _, _, h⟩ := SameButErr.err s e; rw [h]
@[simp] theorem State.err_sec (s : State) (e : ErrInfo) : (s.err e).sec = s.sec := by
  obtain ⟨_, _, _, _, _, _, _, _, h⟩ := SameButErr.err s e; rw [h]
@[simp] theorem State.err_orph (s : State) (e : ErrInfo) : (s.err e).orph = s.orph := by
  obtain ⟨_, _, _, _, _, _, _, _, h⟩ := SameButErr.err s e; rw [h]
@[simp] theorem State.err_tel (s : State) (e : ErrInfo) : (s.err e).tel = s.tel := by
  obtain ⟨_, _, _, _, _, _, _, _, h⟩ := SameButErr.err s e; rw [h]

end Sys2Proof.Machine
end

