-- ==== Sys2Proof/Laws/Answers.lean ====
section
/-! SUPPORT. How a clause about one command is reached: from what the command's own effect is on the state. -/

namespace Sys2Proof.Machine

/-- A command of a block that is up gives what its effect gives. -/
theorem gives_of {i : Instr} {s u : State} (f : State → State) (h : s.power = .up) (e : exec i s = up s f) (hu : f s = u) :
    Gives i s u := by
  rw [Gives, e, up_of_up f h, hu]

/-- A command that the engines take gives what its effect gives, settled. -/
theorem givesSettled_of {i : Instr} {s u : State} (f : State → State) (h : s.power = .up) (e : exec i s = upS s f)
    (hu : f s = u) : GivesSettled i s u := by
  rw [GivesSettled, e, upS, up_of_up _ h, hu]

/-- A command that the engines take answers a next state. -/
theorem givesSettled_next {i : Instr} {s u : State} (h : GivesSettled i s u) : ∃ t, exec i s = .next t := ⟨_, h⟩

/-- A command that gives something answers a next state. -/
theorem gives_next {i : Instr} {s u : State} (h : Gives i s u) : ∃ t, exec i s = .next t := ⟨_, h⟩

/-- A descriptor that its queue starts goes on to its own effect. -/
theorem beginOp_of_starts {s t : State} {q op : Nat} {d : Desc} {ri : W32} (f : W32 → State → State) (ho : dOp d = op)
    (h : Starts s q d ri t) : s.beginOp op q d f = f ri t := by
  obtain ⟨h1, h2, h3⟩ := h
  unfold State.beginOp State.begin
  rw [h1]
  simp only [ho, ite_true]
  rw [ho] at h3
  simp only [h2, h3]
  simp

/-- A descriptor row gives, settled, what its effect gives on the state in which its queue started it. -/
theorem givesSettled_of_starts {i : Instr} {s t u : State} {q op : Nat} {d : Desc} {ri : W32} (f : W32 → State → State)
    (h : s.power = .up) (ho : dOp d = op) (hs : Starts s q d ri t) (e : exec i s = upS s fun s => s.beginOp op q d f)
    (hu : f ri t = u) : GivesSettled i s u :=
  givesSettled_of _ h e ((beginOp_of_starts f ho hs).trans hu)

end Sys2Proof.Machine
end

