-- ==== Sys2Proof/WellFormed.lean ====
section
/-! DEFINITION. Which commands are well formed: the operands that name a station, a port, a slot, a core or a register
lie in the ranges that the spec gives. The block takes any command; one that names nothing the block has changes
nothing. -/

namespace Sys2Proof

/-- A requester that exists (R82, R91). -/
def Requester.wf : Requester → Bool
  | .op k => k < 4
  | .part p k => p < 64 && k < 2
  | .mgmt => true

/-- A command of the management endpoint, a firmware report or a timer for one station (R17). -/
def stOk (st : Nat) : Bool := st < 100

/-- An awl route that exists (R523). -/
def AwlRoute.wf : AwlRoute → Bool
  | .side pm tag => pm < 4 && tag < 65536
  | .mgmt => true

/-- A DMA channel (R266). -/
def chOk (st ch : Nat) : Bool := st < 100 && ch < 16

/-- A pommel's slot (R201, R224, R243). -/
def slotOk (pm slot : Nat) : Bool := pm < 4 && slot < 4

/-- A queue (R135). -/
def qOk (q : Nat) : Bool := q < 65536

/-- A context (R107). -/
def ctxOk (c : Nat) : Bool := c < 1048576

/-- A function of the endpoint: PF0 or a VF (R329). -/
def fnOk (fn : Nat) : Bool := fn ≤ 64

/-- A virtual function. -/
def vfOk (vf : Nat) : Bool := 1 ≤ vf && vf ≤ 64

/-- Whether a command is well formed. -/
def Instr.wf : Instr → Bool
  | .fundamentalReset _ _ | .powerRemoved | .hotReset _ | .flrPf0 | .trainHostPorts _ | .readIdentityFuses _
  | .floorPlanSelfTest _ | .firmwareLoad | .startStreamsAndPmd | .stackTraining | .stackTrainResult _ | .girthGate
  | .stationEnable _ | .setReady | .snapshotRequest | .snapshotPublish | .gatewayServe | .latigoHeartbeatTimer
  | .ringBroken | .getEndpointId | .getMessageTypeSupport | .hostEpochWrite | .ledgerRestore | .ledgerExport
  | .hourStep | .snapshot | .resetCore | .resetStation | .resetPartition | .resetBlock | .resetDrainDone _
  | .drainBoundExpiry | .rollStart | .bootFrameSet | .retrainHostPort _ | .retrainCantlePort _ | .retrainStack
  | .q0EnableBuild | .q0Disable | .keysRetire | .reportSign | .priControlReset | .priDisable | .getVersion
  | .getCapabilities | .errqHeadWrite _ | .hbRenew _ | .hbExpired | .orphanDrained | .ctxRest | .ctxResume
  | .traceHeadWrite _ | .awlIdleDetach | .powerApplied | .fundamentalResetAssert
  | .strapChange _ | .storageScrubVisit _ | .storageUpset _ | .latigoFrameReturn _ | .latigoReply _
  | .latigoEvent _ | .heartbeatReturn _ | .rdmaWrite _ | .rdmaReadRequest _ | .send _
  | .walkTableReadDone _ | .hostTranslationAnswer _ _ | .atsRequestTimeout _ | .invalidationComplete _
  | .guardRequest _ _ | .guardCommit _ | .guardAbort _ | .faultStall _ | .dmaAccessDone _ _ | .ixciaSend _
  | .ixcRemoteTimeout _ | .tileAccessComplete _ _ | .spdmHeartbeat _ | .keyUpdate _ | .endSession _
  | .finish _ _ | .getReport _ _ | .ideKm _ _ | .probeTimeout _ | .fencedExecute _ _ | .ixciaRto _ _ | .ackTimer _
  | .keyExchange _ | .challenge _ _ | .getMeasurements _ _ | .getCertificate _ _ _ | .getDigests
  | .negotiateAlgorithms _ _ => true
  | .hotResetNonBoot pm _ | .doorbellForward pm | .resIntervalEnd pm | .l1Entry pm | .l1Exit pm
  | .ideIntegrityFail pm _ | .flitCrcFail pm | .flitReplayReceived pm _ _ | .retrainDone pm _ | .linkDownEvent pm
  | .hostHeartbeat pm _ | .pommelHeartbeat pm => pm < 4
  | .flrVf k => vfOk k
  | .powerStateChange fn _ => fnOk fn
  | .thermalTrip st _ _ | .railOverDetect st _ | .railOverEnd st _ | .eventResendTimer st | .skipHopSwitch st
  | .tempSample st _ | .rollStationQuiesced st | .rollQuiesceTimeout st | .dmaEnable st | .dmaDisable st
  | .dmaQuiesced st | .rateShareWindow st | .powerEstimate st _ _ _ | .traceRateWindow st | .latigoEmpty st _
  | .latigoEventAck st _ | .latigoBroadcast st _ | .latigoHeartbeat st _ => stOk st
  | .latigoRead f _ | .latigoWrite f _ => 1 ≤ f.dst && f.dst ≤ 100
  | .latigoEnumeration ms _ => ms.all stOk
  | .coreDigestAck st c _ => stOk st && c < 8
  | .pcsAligned cn | .pcsAlignTimeout cn | .winSet cn _ | .winClear cn _ | .winClearDone cn | .qpSet cn _ | .qpClear cn _
  | .write cn _ | .readReq cn _ | .readRsp cn _ | .atomic cn _ | .nak cn _ | .ack cn _ | .probe cn _ | .probeRsp cn _
  | .portDown cn _ | .portUp cn | .priorityFlowControl cn _ _ => cn < 16
  | .girthDwellEnd k _ => k < 20
  | .registerWrite fn bar _ _ _ _ | .sizeFaultRead fn bar _ _ => fnOk fn && (bar = 0 || bar = 2 || bar = 4)
  | .bitAliasWrite off _ _ => 0x2000000 ≤ off && off < 0x4000000
  | .tvScrubVisit off => off % 4 = 0
  | .dictRead r i b _ _ | .dictWrite r i b _ _ _ _ | .dictInfo r i b _ => r.wf && i < 65536 && b < 256
  | .domainImageDiscard r => r.wf
  | .latigoResendTimeout tag => tag < 256
  | .setEndpointId eid => eid < 256
  | .getMctpVersionSupport t => t < 256
  | .getVendorDefinedMsgSupport v => v < 256
  | .entdaa addr => 1 ≤ addr && addr < 128
  | .doorbell fn pm q _ _ => fnOk fn && pm < 4 && qOk q
  | .snoopDoorbell q | .tailLineReread q _ _ | .queueRecordLoad q | .programCheck q _ | .queueCreate q _
  | .queueStart q _ _ _ | .queueStop q _ | .queueStopped q | .queueDestroy q _ | .wait q _ | .waitWake q | .waitPoll q
  | .waitTimeout q | .signal q _ | .branch q _ | .loop q _ | .reduce q _ | .stamp q _ | .frameSet q _
  | .frameReclaim q _ | .reclaimDrainDone q _ | .reclaimScrubDone q _ | .pteWrite q _ _ | .ctxCreate q _
  | .ctxRegions q _ | .ctxShare q _ | .ctxRevoke q _ | .ctxDestroy q _ | .fenceAbandon q _ | .refAck q _
  | .ctxQuery q _ | .stampService q _ _ _ => qOk q
  | .copy q _ st ch | .accumSum q _ st ch | .accumMax q _ st ch | .accumMin q _ st ch | .cksumAppend q _ st ch
  | .cksumVerify q _ st ch | .fill q _ st ch | .gatherReduce q _ st ch => qOk q && chOk st ch
  | .vbufSlotGranted st ch | .handshakeTimeout st ch => chOk st ch
  | .dmaReadbackDone st ch _ _ => st < 100 && ch < 2 ^ 20
  | .ctxRecordLoad c | .ctxRevoked c | .faultRingHead c _ | .resSample c _ _ | .restDrainDone c | .restHoldExpiry c
  | .restImageWritten c _ => ctxOk c
  | .tileLoad st _ c _ _ | .tileStore st _ c _ _ | .tileFenceAtomic st _ c _ _ => st < 80 && ctxOk c
  | .stampReady k _ => k < 4
  | .tlbInvalidate pm k _ | .retry pm k _ | .fail pm k _ | .failAll pm k _ | .resume pm k _ | .give pm k _ | .take pm k _
  | .flush pm k _ | .evict pm k _ | .drop pm k _ | .setAttr pm k _ => slotOk pm k
  | .atsInvalidateRequest fn _ _ _ _ => fnOk fn
  | .straddleCheckResult st e => st < 80 && e < 32
  | .prgResponse i _ _ => i < 512
  | .faultResponseTimeout pm e => pm < 4 && e < 2048
  | .promotionCopyDone pm i | .evictionWritebackDone pm i _ => pm < 4 && i < 256
  | .hostSnoop pm line _ _ => pm < 4 && line % 64 = 0
  | .configRequest pm fn off _ => pm < 4 && fnOk fn && off < 4096
  | .bklClaim fn t | .bklTgtCtrlWrite fn t _ => fnOk fn && t < 256
  | .bklDone fn t n => fnOk fn && t < 256 && n < 4096
  | .bklSet fn n | .bklSrcWrite fn n _ => fnOk fn && n < 4096
  | .bklTsetWrite m w _ => m < 64 && w < 8
  | .levelSnapshotTimer die => die < 2
  | .windowOpen w | .windowClose w | .windowTargetTimeout w => w < 32
  | .windowAccess off _ _ _ => off < 32 * 0x400000
  | .lockInterface vf | .startInterface vf | .stopInterface vf | .interfaceReport vf => vfOk vf
  | .bind _ p => p < 64
  | .peerShareGet _ n p => n < 16384 && p < 64
  | .peerShareSet _ k _ _ | .peerKeyCommit _ k _ | .peerKeyRetire _ k _ => k < 512
  | .pathExclusionEnd _ l r => l < 16 && r < 16
  | .leaseRenew k _ => k < 8
  | .leaseScan k => k < 5
  | .leaseSelfCheckDone k _ _ => k < 8
  | .tenureTokenWrite size _ | .reattach size _ => size = 4 || size = 8
  | .attach r | .detach r => r.wf
  | .halt r st c | .awlResume r st c | .step r st c => r.wf && stOk st && c < 8
  | .awlRead r st c _ | .awlWrite r st c _ _ => r.wf && stOk st && c < 8

end Sys2Proof
end

