-- ==== Sys2Proof/Laws/PerInstr.lean ====
section
/-! SUPPORT. Per command: the operand checks shut no row of the operation table out. -/

namespace Sys2Proof.Laws.WellFormed

/-- Some command of the same row is well formed; the operands that no check reads may stay as they are. -/
def Statement (i : Instr) : Prop := ∃ j : Instr, j.ctorIdx = i.ctorIdx ∧ j.wf = true

theorem fundamentalReset (pins : Byte) (boot : PortMeas) : Statement (.fundamentalReset pins boot) :=
  ⟨.fundamentalReset pins boot, rfl, rfl⟩
theorem powerRemoved : Statement .powerRemoved := ⟨.powerRemoved, rfl, rfl⟩
theorem hotReset (t : PortTrain) : Statement (.hotReset t) := ⟨.hotReset t, rfl, rfl⟩
theorem hotResetNonBoot (pm : Nat) (t : PortTrain) : Statement (.hotResetNonBoot pm t) := ⟨.hotResetNonBoot 0 t, rfl, rfl⟩
theorem flrPf0 : Statement .flrPf0 := ⟨.flrPf0, rfl, rfl⟩
theorem flrVf (k : Nat) : Statement (.flrVf k) := ⟨.flrVf 1, rfl, rfl⟩
theorem powerStateChange (fn : Nat) (d3 : Bool) : Statement (.powerStateChange fn d3) := ⟨.powerStateChange 0 d3, rfl, rfl⟩
theorem thermalTrip (st : Nat) (temp : Int) (blown : Bool) : Statement (.thermalTrip st temp blown) :=
  ⟨.thermalTrip 0 temp blown, rfl, rfl⟩
theorem railOverDetect (st : Nat) (mv : Nat) : Statement (.railOverDetect st mv) := ⟨.railOverDetect 0 mv, rfl, rfl⟩
theorem trainHostPorts (ts : List (Nat × PortTrain)) : Statement (.trainHostPorts ts) := ⟨.trainHostPorts ts, rfl, rfl⟩
theorem readIdentityFuses (readable : Bool) : Statement (.readIdentityFuses readable) := ⟨.readIdentityFuses readable, rfl, rfl⟩
theorem floorPlanSelfTest (r : SelfTest) : Statement (.floorPlanSelfTest r) := ⟨.floorPlanSelfTest r, rfl, rfl⟩
theorem latigoEnumeration (marked : List Nat) (returned : Bool) : Statement (.latigoEnumeration marked returned) :=
  ⟨.latigoEnumeration [] returned, rfl, rfl⟩
theorem firmwareLoad : Statement .firmwareLoad := ⟨.firmwareLoad, rfl, rfl⟩
theorem coreDigestAck (st : Nat) (c : Nat) (digest : BitVec 384) : Statement (.coreDigestAck st c digest) :=
  ⟨.coreDigestAck 0 0 digest, rfl, rfl⟩
theorem startStreamsAndPmd : Statement .startStreamsAndPmd := ⟨.startStreamsAndPmd, rfl, rfl⟩
theorem pcsAligned (cn : Nat) : Statement (.pcsAligned cn) := ⟨.pcsAligned 0, rfl, rfl⟩
theorem pcsAlignTimeout (cn : Nat) : Statement (.pcsAlignTimeout cn) := ⟨.pcsAlignTimeout 0, rfl, rfl⟩
theorem stackTraining : Statement .stackTraining := ⟨.stackTraining, rfl, rfl⟩
theorem stackTrainResult (rs : List Nat) : Statement (.stackTrainResult rs) := ⟨.stackTrainResult rs, rfl, rfl⟩
theorem girthGate : Statement .girthGate := ⟨.girthGate, rfl, rfl⟩
theorem girthDwellEnd (k : Nat) (m : PortMeas) : Statement (.girthDwellEnd k m) := ⟨.girthDwellEnd 0 m, rfl, rfl⟩
theorem stationEnable (bootEnabled : Bool) : Statement (.stationEnable bootEnabled) := ⟨.stationEnable bootEnabled, rfl, rfl⟩
theorem setReady : Statement .setReady := ⟨.setReady, rfl, rfl⟩
theorem registerWrite (fn : Nat) (bar : Nat) (off : Nat) (size : Nat) (v : W64) (poisoned : Bool) :
    Statement (.registerWrite fn bar off size v poisoned) :=
  ⟨.registerWrite 0 0 off size v poisoned, rfl, rfl⟩
theorem bitAliasWrite (off : Nat) (size : Nat) (v : W64) : Statement (.bitAliasWrite off size v) :=
  ⟨.bitAliasWrite 0x2000000 size v, rfl, rfl⟩
theorem tvScrubVisit (off : Nat) : Statement (.tvScrubVisit off) := ⟨.tvScrubVisit 0, rfl, rfl⟩
theorem snapshotRequest : Statement .snapshotRequest := ⟨.snapshotRequest, rfl, rfl⟩
theorem snapshotPublish : Statement .snapshotPublish := ⟨.snapshotPublish, rfl, rfl⟩
theorem dictRead (r : Requester) (index : Nat) (sub : Nat) (offset : Nat) (irq : Bool) :
    Statement (.dictRead r index sub offset irq) :=
  ⟨.dictRead .mgmt 0 0 offset irq, rfl, rfl⟩
theorem dictWrite (r : Requester) (index : Nat) (sub : Nat) (offset : Nat) (data : Bytes) (last : Bool) (irq : Bool) :
    Statement (.dictWrite r index sub offset data last irq) :=
  ⟨.dictWrite .mgmt 0 0 offset data last irq, rfl, rfl⟩
theorem dictInfo (r : Requester) (index : Nat) (sub : Nat) (irq : Bool) : Statement (.dictInfo r index sub irq) :=
  ⟨.dictInfo .mgmt 0 0 irq, rfl, rfl⟩
theorem gatewayServe : Statement .gatewayServe := ⟨.gatewayServe, rfl, rfl⟩
theorem domainImageDiscard (r : Requester) : Statement (.domainImageDiscard r) := ⟨.domainImageDiscard .mgmt, rfl, rfl⟩
theorem latigoRead (f : Frame) (free : Bool) : Statement (.latigoRead f free) := ⟨.latigoRead { f with dst := 1 } free, rfl, rfl⟩
theorem latigoWrite (f : Frame) (free : Bool) : Statement (.latigoWrite f free) :=
  ⟨.latigoWrite { f with dst := 1 } free, rfl, rfl⟩
theorem latigoFrameReturn (f : Frame) : Statement (.latigoFrameReturn f) := ⟨.latigoFrameReturn f, rfl, rfl⟩
theorem latigoReply (f : Frame) : Statement (.latigoReply f) := ⟨.latigoReply f, rfl, rfl⟩
theorem latigoResendTimeout (tag : Nat) : Statement (.latigoResendTimeout tag) := ⟨.latigoResendTimeout 0, rfl, rfl⟩
theorem latigoEmpty (st : Nat) (f : Frame) : Statement (.latigoEmpty st f) := ⟨.latigoEmpty 0 f, rfl, rfl⟩
theorem latigoEvent (f : Frame) : Statement (.latigoEvent f) := ⟨.latigoEvent f, rfl, rfl⟩
theorem latigoEventAck (st : Nat) (f : Frame) : Statement (.latigoEventAck st f) := ⟨.latigoEventAck 0 f, rfl, rfl⟩
theorem eventResendTimer (st : Nat) : Statement (.eventResendTimer st) := ⟨.eventResendTimer 0, rfl, rfl⟩
theorem latigoBroadcast (st : Nat) (f : Frame) : Statement (.latigoBroadcast st f) := ⟨.latigoBroadcast 0 f, rfl, rfl⟩
theorem latigoHeartbeatTimer : Statement .latigoHeartbeatTimer := ⟨.latigoHeartbeatTimer, rfl, rfl⟩
theorem latigoHeartbeat (st : Nat) (f : Frame) : Statement (.latigoHeartbeat st f) := ⟨.latigoHeartbeat 0 f, rfl, rfl⟩
theorem heartbeatReturn (h : HeartbeatBack) : Statement (.heartbeatReturn h) := ⟨.heartbeatReturn h, rfl, rfl⟩
theorem skipHopSwitch (st : Nat) : Statement (.skipHopSwitch st) := ⟨.skipHopSwitch 0, rfl, rfl⟩
theorem ringBroken : Statement .ringBroken := ⟨.ringBroken, rfl, rfl⟩
theorem setEndpointId (eid : Nat) : Statement (.setEndpointId eid) := ⟨.setEndpointId 0, rfl, rfl⟩
theorem getEndpointId : Statement .getEndpointId := ⟨.getEndpointId, rfl, rfl⟩
theorem getMctpVersionSupport (msgType : Nat) : Statement (.getMctpVersionSupport msgType) := ⟨.getMctpVersionSupport 0, rfl, rfl⟩
theorem getMessageTypeSupport : Statement .getMessageTypeSupport := ⟨.getMessageTypeSupport, rfl, rfl⟩
theorem getVendorDefinedMsgSupport (selector : Nat) : Statement (.getVendorDefinedMsgSupport selector) :=
  ⟨.getVendorDefinedMsgSupport 0, rfl, rfl⟩
theorem entdaa (addr : Nat) : Statement (.entdaa addr) := ⟨.entdaa 1, rfl, rfl⟩
theorem hostEpochWrite : Statement .hostEpochWrite := ⟨.hostEpochWrite, rfl, rfl⟩
theorem ledgerRestore : Statement .ledgerRestore := ⟨.ledgerRestore, rfl, rfl⟩
theorem ledgerExport : Statement .ledgerExport := ⟨.ledgerExport, rfl, rfl⟩
theorem tempSample (st : Nat) (temp : Int) : Statement (.tempSample st temp) := ⟨.tempSample 0 temp, rfl, rfl⟩
theorem hourStep : Statement .hourStep := ⟨.hourStep, rfl, rfl⟩
theorem snapshot : Statement .snapshot := ⟨.snapshot, rfl, rfl⟩
theorem resetCore : Statement .resetCore := ⟨.resetCore, rfl, rfl⟩
theorem resetStation : Statement .resetStation := ⟨.resetStation, rfl, rfl⟩
theorem resetPartition : Statement .resetPartition := ⟨.resetPartition, rfl, rfl⟩
theorem resetBlock : Statement .resetBlock := ⟨.resetBlock, rfl, rfl⟩
theorem resetDrainDone (selfCheckOk : Bool) : Statement (.resetDrainDone selfCheckOk) := ⟨.resetDrainDone selfCheckOk, rfl, rfl⟩
theorem drainBoundExpiry : Statement .drainBoundExpiry := ⟨.drainBoundExpiry, rfl, rfl⟩
theorem rollStart : Statement .rollStart := ⟨.rollStart, rfl, rfl⟩
theorem rollStationQuiesced (st : Nat) : Statement (.rollStationQuiesced st) := ⟨.rollStationQuiesced 0, rfl, rfl⟩
theorem rollQuiesceTimeout (st : Nat) : Statement (.rollQuiesceTimeout st) := ⟨.rollQuiesceTimeout 0, rfl, rfl⟩
theorem bootFrameSet : Statement .bootFrameSet := ⟨.bootFrameSet, rfl, rfl⟩
theorem retrainHostPort (m : PortMeas) : Statement (.retrainHostPort m) := ⟨.retrainHostPort m, rfl, rfl⟩
theorem retrainCantlePort (m : PortMeas) : Statement (.retrainCantlePort m) := ⟨.retrainCantlePort m, rfl, rfl⟩
theorem retrainStack : Statement .retrainStack := ⟨.retrainStack, rfl, rfl⟩
theorem q0EnableBuild : Statement .q0EnableBuild := ⟨.q0EnableBuild, rfl, rfl⟩
theorem q0Disable : Statement .q0Disable := ⟨.q0Disable, rfl, rfl⟩
theorem keysRetire : Statement .keysRetire := ⟨.keysRetire, rfl, rfl⟩
theorem reportSign : Statement .reportSign := ⟨.reportSign, rfl, rfl⟩
theorem doorbell (fn : Nat) (pm : Nat) (q : Nat) (tail : Option W32) (head : Option W32) :
    Statement (.doorbell fn pm q tail head) :=
  ⟨.doorbell 0 0 0 tail head, rfl, rfl⟩
theorem doorbellForward (pm : Nat) : Statement (.doorbellForward pm) := ⟨.doorbellForward 0, rfl, rfl⟩
theorem snoopDoorbell (q : Nat) : Statement (.snoopDoorbell q) := ⟨.snoopDoorbell 0, rfl, rfl⟩
theorem tailLineReread (q : Nat) (tail : W32) (head : W32) : Statement (.tailLineReread q tail head) :=
  ⟨.tailLineReread 0 tail head, rfl, rfl⟩
theorem queueRecordLoad (q : Nat) : Statement (.queueRecordLoad q) := ⟨.queueRecordLoad 0, rfl, rfl⟩
theorem ctxRecordLoad (c : Nat) : Statement (.ctxRecordLoad c) := ⟨.ctxRecordLoad 0, rfl, rfl⟩
theorem programCheck (q : Nat) (ds : List Desc) : Statement (.programCheck q ds) := ⟨.programCheck 0 ds, rfl, rfl⟩
theorem queueCreate (q : Nat) (d : Desc) : Statement (.queueCreate q d) := ⟨.queueCreate 0 d, rfl, rfl⟩
theorem queueStart (q : Nat) (d : Desc) (tail : W32) (head : W32) : Statement (.queueStart q d tail head) :=
  ⟨.queueStart 0 d tail head, rfl, rfl⟩
theorem queueStop (q : Nat) (d : Desc) : Statement (.queueStop q d) := ⟨.queueStop 0 d, rfl, rfl⟩
theorem queueStopped (target : Nat) : Statement (.queueStopped target) := ⟨.queueStopped 0, rfl, rfl⟩
theorem queueDestroy (q : Nat) (d : Desc) : Statement (.queueDestroy q d) := ⟨.queueDestroy 0 d, rfl, rfl⟩
theorem copy (q : Nat) (d : Desc) (st : Nat) (ch : Nat) : Statement (.copy q d st ch) := ⟨.copy 0 d 0 0, rfl, rfl⟩
theorem accumSum (q : Nat) (d : Desc) (st : Nat) (ch : Nat) : Statement (.accumSum q d st ch) := ⟨.accumSum 0 d 0 0, rfl, rfl⟩
theorem accumMax (q : Nat) (d : Desc) (st : Nat) (ch : Nat) : Statement (.accumMax q d st ch) := ⟨.accumMax 0 d 0 0, rfl, rfl⟩
theorem accumMin (q : Nat) (d : Desc) (st : Nat) (ch : Nat) : Statement (.accumMin q d st ch) := ⟨.accumMin 0 d 0 0, rfl, rfl⟩
theorem cksumAppend (q : Nat) (d : Desc) (st : Nat) (ch : Nat) : Statement (.cksumAppend q d st ch) :=
  ⟨.cksumAppend 0 d 0 0, rfl, rfl⟩
theorem cksumVerify (q : Nat) (d : Desc) (st : Nat) (ch : Nat) : Statement (.cksumVerify q d st ch) :=
  ⟨.cksumVerify 0 d 0 0, rfl, rfl⟩
theorem vbufSlotGranted (st : Nat) (ch : Nat) : Statement (.vbufSlotGranted st ch) := ⟨.vbufSlotGranted 0 0, rfl, rfl⟩
theorem fill (q : Nat) (d : Desc) (st : Nat) (ch : Nat) : Statement (.fill q d st ch) := ⟨.fill 0 d 0 0, rfl, rfl⟩
theorem gatherReduce (q : Nat) (d : Desc) (st : Nat) (ch : Nat) : Statement (.gatherReduce q d st ch) :=
  ⟨.gatherReduce 0 d 0 0, rfl, rfl⟩
theorem wait (q : Nat) (d : Desc) : Statement (.wait q d) := ⟨.wait 0 d, rfl, rfl⟩
theorem waitWake (q : Nat) : Statement (.waitWake q) := ⟨.waitWake 0, rfl, rfl⟩
theorem waitPoll (q : Nat) : Statement (.waitPoll q) := ⟨.waitPoll 0, rfl, rfl⟩
theorem waitTimeout (q : Nat) : Statement (.waitTimeout q) := ⟨.waitTimeout 0, rfl, rfl⟩
theorem signal (q : Nat) (d : Desc) : Statement (.signal q d) := ⟨.signal 0 d, rfl, rfl⟩
theorem branch (q : Nat) (d : Desc) : Statement (.branch q d) := ⟨.branch 0 d, rfl, rfl⟩
theorem loop (q : Nat) (d : Desc) : Statement (.loop q d) := ⟨.loop 0 d, rfl, rfl⟩
theorem reduce (q : Nat) (d : Desc) : Statement (.reduce q d) := ⟨.reduce 0 d, rfl, rfl⟩
theorem stamp (q : Nat) (d : Desc) : Statement (.stamp q d) := ⟨.stamp 0 d, rfl, rfl⟩
theorem dmaAccessDone (a : Nat) (r : Ack) : Statement (.dmaAccessDone a r) := ⟨.dmaAccessDone a r, rfl, rfl⟩
theorem dmaReadbackDone (st : Nat) (ch : Nat) (path : Nat) (r : Ack) : Statement (.dmaReadbackDone st ch path r) :=
  ⟨.dmaReadbackDone 0 0 path r, rfl, rfl⟩
theorem dmaEnable (st : Nat) : Statement (.dmaEnable st) := ⟨.dmaEnable 0, rfl, rfl⟩
theorem dmaDisable (st : Nat) : Statement (.dmaDisable st) := ⟨.dmaDisable 0, rfl, rfl⟩
theorem dmaQuiesced (st : Nat) : Statement (.dmaQuiesced st) := ⟨.dmaQuiesced 0, rfl, rfl⟩
theorem handshakeTimeout (st : Nat) (ch : Nat) : Statement (.handshakeTimeout st ch) := ⟨.handshakeTimeout 0 0, rfl, rfl⟩
theorem frameSet (q : Nat) (d : Desc) : Statement (.frameSet q d) := ⟨.frameSet 0 d, rfl, rfl⟩
theorem frameReclaim (q : Nat) (d : Desc) : Statement (.frameReclaim q d) := ⟨.frameReclaim 0 d, rfl, rfl⟩
theorem reclaimDrainDone (q : Nat) (ri : W32) : Statement (.reclaimDrainDone q ri) := ⟨.reclaimDrainDone 0 ri, rfl, rfl⟩
theorem reclaimScrubDone (q : Nat) (ri : W32) : Statement (.reclaimScrubDone q ri) := ⟨.reclaimScrubDone 0 ri, rfl, rfl⟩
theorem pteWrite (q : Nat) (d : Desc) (r : Ack) : Statement (.pteWrite q d r) := ⟨.pteWrite 0 d r, rfl, rfl⟩
theorem ctxCreate (q : Nat) (d : Desc) : Statement (.ctxCreate q d) := ⟨.ctxCreate 0 d, rfl, rfl⟩
theorem ctxRegions (q : Nat) (d : Desc) : Statement (.ctxRegions q d) := ⟨.ctxRegions 0 d, rfl, rfl⟩
theorem ctxShare (q : Nat) (d : Desc) : Statement (.ctxShare q d) := ⟨.ctxShare 0 d, rfl, rfl⟩
theorem ctxRevoke (q : Nat) (d : Desc) : Statement (.ctxRevoke q d) := ⟨.ctxRevoke 0 d, rfl, rfl⟩
theorem ctxRevoked (c : Nat) : Statement (.ctxRevoked c) := ⟨.ctxRevoked 0, rfl, rfl⟩
theorem ctxDestroy (q : Nat) (d : Desc) : Statement (.ctxDestroy q d) := ⟨.ctxDestroy 0 d, rfl, rfl⟩
theorem fenceAbandon (q : Nat) (d : Desc) : Statement (.fenceAbandon q d) := ⟨.fenceAbandon 0 d, rfl, rfl⟩
theorem refAck (q : Nat) (d : Desc) : Statement (.refAck q d) := ⟨.refAck 0 d, rfl, rfl⟩
theorem ctxQuery (q : Nat) (d : Desc) : Statement (.ctxQuery q d) := ⟨.ctxQuery 0 d, rfl, rfl⟩
theorem tileLoad (st : Nat) (tag : Nat) (ctx : Nat) (va : W64) (len : Nat) : Statement (.tileLoad st tag ctx va len) :=
  ⟨.tileLoad 0 tag 0 va len, rfl, rfl⟩
theorem tileStore (st : Nat) (tag : Nat) (ctx : Nat) (va : W64) (data : Bytes) : Statement (.tileStore st tag ctx va data) :=
  ⟨.tileStore 0 tag 0 va data, rfl, rfl⟩
theorem tileFenceAtomic (st : Nat) (tag : Nat) (ctx : Nat) (va : W64) (v : W64) : Statement (.tileFenceAtomic st tag ctx va v) :=
  ⟨.tileFenceAtomic 0 tag 0 va v, rfl, rfl⟩
theorem walkTableReadDone (w : Nat) : Statement (.walkTableReadDone w) := ⟨.walkTableReadDone w, rfl, rfl⟩
theorem hostTranslationAnswer (w : Nat) (ans : HostAnswer) : Statement (.hostTranslationAnswer w ans) :=
  ⟨.hostTranslationAnswer w ans, rfl, rfl⟩
theorem atsRequestTimeout (w : Nat) : Statement (.atsRequestTimeout w) := ⟨.atsRequestTimeout w, rfl, rfl⟩
theorem stampService (q : Nat) (ri : W32) (d : Desc) (slot : Nat) : Statement (.stampService q ri d slot) :=
  ⟨.stampService 0 ri d slot, rfl, rfl⟩
theorem stampReady (skirt : Nat) (slot : Nat) : Statement (.stampReady skirt slot) := ⟨.stampReady 0 slot, rfl, rfl⟩
theorem tlbInvalidate (pm : Nat) (slot : Nat) (irq : Bool) : Statement (.tlbInvalidate pm slot irq) :=
  ⟨.tlbInvalidate 0 0 irq, rfl, rfl⟩
theorem invalidationComplete (k : Nat) : Statement (.invalidationComplete k) := ⟨.invalidationComplete k, rfl, rfl⟩
theorem atsInvalidateRequest (fn : Nat) (pasid : Option Nat) (va : W64) (pages : Nat) (global : Bool) :
    Statement (.atsInvalidateRequest fn pasid va pages global) :=
  ⟨.atsInvalidateRequest 0 pasid va pages global, rfl, rfl⟩
theorem guardRequest (a : Nat) (uncorrectable : Bool) : Statement (.guardRequest a uncorrectable) :=
  ⟨.guardRequest a uncorrectable, rfl, rfl⟩
theorem guardCommit (a : Nat) : Statement (.guardCommit a) := ⟨.guardCommit a, rfl, rfl⟩
theorem guardAbort (a : Nat) : Statement (.guardAbort a) := ⟨.guardAbort a, rfl, rfl⟩
theorem straddleCheckResult (st : Nat) (e : Nat) : Statement (.straddleCheckResult st e) := ⟨.straddleCheckResult 0 0, rfl, rfl⟩
theorem prgResponse (index : Nat) (pasid : Nat) (code : PrgCode) : Statement (.prgResponse index pasid code) :=
  ⟨.prgResponse 0 pasid code, rfl, rfl⟩
theorem retry (pm : Nat) (slot : Nat) (irq : Bool) : Statement (.retry pm slot irq) := ⟨.retry 0 0 irq, rfl, rfl⟩
theorem fail (pm : Nat) (slot : Nat) (irq : Bool) : Statement (.fail pm slot irq) := ⟨.fail 0 0 irq, rfl, rfl⟩
theorem failAll (pm : Nat) (slot : Nat) (irq : Bool) : Statement (.failAll pm slot irq) := ⟨.failAll 0 0 irq, rfl, rfl⟩
theorem resume (pm : Nat) (slot : Nat) (irq : Bool) : Statement (.resume pm slot irq) := ⟨.resume 0 0 irq, rfl, rfl⟩
theorem faultResponseTimeout (pm : Nat) (entry : Nat) : Statement (.faultResponseTimeout pm entry) :=
  ⟨.faultResponseTimeout 0 0, rfl, rfl⟩
theorem faultRingHead (c : Nat) (head : W32) : Statement (.faultRingHead c head) := ⟨.faultRingHead 0 head, rfl, rfl⟩
theorem faultStall (a : Nat) : Statement (.faultStall a) := ⟨.faultStall a, rfl, rfl⟩
theorem priControlReset : Statement .priControlReset := ⟨.priControlReset, rfl, rfl⟩
theorem priDisable : Statement .priDisable := ⟨.priDisable, rfl, rfl⟩
theorem give (pm : Nat) (slot : Nat) (irq : Bool) : Statement (.give pm slot irq) := ⟨.give 0 0 irq, rfl, rfl⟩
theorem take (pm : Nat) (slot : Nat) (irq : Bool) : Statement (.take pm slot irq) := ⟨.take 0 0 irq, rfl, rfl⟩
theorem flush (pm : Nat) (slot : Nat) (irq : Bool) : Statement (.flush pm slot irq) := ⟨.flush 0 0 irq, rfl, rfl⟩
theorem evict (pm : Nat) (slot : Nat) (irq : Bool) : Statement (.evict pm slot irq) := ⟨.evict 0 0 irq, rfl, rfl⟩
theorem drop (pm : Nat) (slot : Nat) (irq : Bool) : Statement (.drop pm slot irq) := ⟨.drop 0 0 irq, rfl, rfl⟩
theorem setAttr (pm : Nat) (slot : Nat) (irq : Bool) : Statement (.setAttr pm slot irq) := ⟨.setAttr 0 0 irq, rfl, rfl⟩
theorem resSample (c : Nat) (vaPage : Nat) (hostTicks : Option Nat) : Statement (.resSample c vaPage hostTicks) :=
  ⟨.resSample 0 vaPage hostTicks, rfl, rfl⟩
theorem resIntervalEnd (pm : Nat) : Statement (.resIntervalEnd pm) := ⟨.resIntervalEnd 0, rfl, rfl⟩
theorem promotionCopyDone (pm : Nat) (e : Nat) : Statement (.promotionCopyDone pm e) := ⟨.promotionCopyDone 0 0, rfl, rfl⟩
theorem evictionWritebackDone (pm : Nat) (e : Nat) (r : Ack) : Statement (.evictionWritebackDone pm e r) :=
  ⟨.evictionWritebackDone 0 0 r, rfl, rfl⟩
theorem hostSnoop (pm : Nat) (line : Nat) (inval : Bool) (store : Option (Nat × Bytes)) :
    Statement (.hostSnoop pm line inval store) :=
  ⟨.hostSnoop 0 0 inval store, rfl, rfl⟩
theorem configRequest (pm : Nat) (fn : Nat) (off : Nat) (w : Option W32) : Statement (.configRequest pm fn off w) :=
  ⟨.configRequest 0 0 0 w, rfl, rfl⟩
theorem bklClaim (fn : Nat) (t : Nat) : Statement (.bklClaim fn t) := ⟨.bklClaim 0 0, rfl, rfl⟩
theorem bklDone (fn : Nat) (t : Nat) (src : Nat) : Statement (.bklDone fn t src) := ⟨.bklDone 0 0 0, rfl, rfl⟩
theorem bklSet (fn : Nat) (src : Nat) : Statement (.bklSet fn src) := ⟨.bklSet 0 0, rfl, rfl⟩
theorem bklTgtCtrlWrite (fn : Nat) (t : Nat) (v : W32) : Statement (.bklTgtCtrlWrite fn t v) := ⟨.bklTgtCtrlWrite 0 0 v, rfl, rfl⟩
theorem bklTsetWrite (m : Nat) (w : Nat) (v : W32) : Statement (.bklTsetWrite m w v) := ⟨.bklTsetWrite 0 0 v, rfl, rfl⟩
theorem bklSrcWrite (fn : Nat) (n : Nat) (v : W32) : Statement (.bklSrcWrite fn n v) := ⟨.bklSrcWrite 0 0 v, rfl, rfl⟩
theorem levelSnapshotTimer (die : Nat) : Statement (.levelSnapshotTimer die) := ⟨.levelSnapshotTimer 0, rfl, rfl⟩
theorem windowOpen (w : Nat) : Statement (.windowOpen w) := ⟨.windowOpen 0, rfl, rfl⟩
theorem windowClose (w : Nat) : Statement (.windowClose w) := ⟨.windowClose 0, rfl, rfl⟩
theorem windowAccess (off : Nat) (size : Nat) (w : Option W32) (answer : W32) : Statement (.windowAccess off size w answer) :=
  ⟨.windowAccess 0 size w answer, rfl, rfl⟩
theorem windowTargetTimeout (w : Nat) : Statement (.windowTargetTimeout w) := ⟨.windowTargetTimeout 0, rfl, rfl⟩
theorem l1Entry (pm : Nat) : Statement (.l1Entry pm) := ⟨.l1Entry 0, rfl, rfl⟩
theorem l1Exit (pm : Nat) : Statement (.l1Exit pm) := ⟨.l1Exit 0, rfl, rfl⟩
theorem ideIntegrityFail (pm : Nat) (cache : Bool) : Statement (.ideIntegrityFail pm cache) :=
  ⟨.ideIntegrityFail 0 cache, rfl, rfl⟩
theorem ideKm (sid : Nat) (m : IdeKm) : Statement (.ideKm sid m) := ⟨.ideKm sid m, rfl, rfl⟩
theorem lockInterface (vf : Nat) : Statement (.lockInterface vf) := ⟨.lockInterface 1, rfl, rfl⟩
theorem startInterface (vf : Nat) : Statement (.startInterface vf) := ⟨.startInterface 1, rfl, rfl⟩
theorem stopInterface (vf : Nat) : Statement (.stopInterface vf) := ⟨.stopInterface 1, rfl, rfl⟩
theorem getVersion : Statement .getVersion := ⟨.getVersion, rfl, rfl⟩
theorem getCapabilities : Statement .getCapabilities := ⟨.getCapabilities, rfl, rfl⟩
theorem negotiateAlgorithms (version : Nat) (supported : Bool) : Statement (.negotiateAlgorithms version supported) :=
  ⟨.negotiateAlgorithms version supported, rfl, rfl⟩
theorem getDigests : Statement .getDigests := ⟨.getDigests, rfl, rfl⟩
theorem getCertificate (slot : Nat) (offset : Nat) (len : Nat) : Statement (.getCertificate slot offset len) :=
  ⟨.getCertificate slot offset len, rfl, rfl⟩
theorem challenge (slot : Nat) (nonce : BitVec 256) : Statement (.challenge slot nonce) := ⟨.challenge slot nonce, rfl, rfl⟩
theorem getMeasurements (block : Nat) (nonce : BitVec 256) : Statement (.getMeasurements block nonce) :=
  ⟨.getMeasurements block nonce, rfl, rfl⟩
theorem keyExchange (share : BitVec 768) : Statement (.keyExchange share) := ⟨.keyExchange share, rfl, rfl⟩
theorem finish (sid : Nat) (macOk : Bool) : Statement (.finish sid macOk) := ⟨.finish sid macOk, rfl, rfl⟩
theorem spdmHeartbeat (sid : Nat) : Statement (.spdmHeartbeat sid) := ⟨.spdmHeartbeat sid, rfl, rfl⟩
theorem keyUpdate (sid : Nat) : Statement (.keyUpdate sid) := ⟨.keyUpdate sid, rfl, rfl⟩
theorem endSession (sid : Nat) : Statement (.endSession sid) := ⟨.endSession sid, rfl, rfl⟩
theorem bind (sid : Nat) (p : Nat) : Statement (.bind sid p) := ⟨.bind sid 0, rfl, rfl⟩
theorem getReport (sid : Nat) (nonce : BitVec 256) : Statement (.getReport sid nonce) := ⟨.getReport sid nonce, rfl, rfl⟩
theorem peerShareGet (sid : Nat) (node : Nat) (remotePart : Nat) : Statement (.peerShareGet sid node remotePart) :=
  ⟨.peerShareGet sid 0 0, rfl, rfl⟩
theorem peerShareSet (sid : Nat) (slot : Nat) (gen : Nat) (share : BitVec 768) : Statement (.peerShareSet sid slot gen share) :=
  ⟨.peerShareSet sid 0 gen share, rfl, rfl⟩
theorem peerKeyCommit (sid : Nat) (slot : Nat) (gen : Nat) : Statement (.peerKeyCommit sid slot gen) :=
  ⟨.peerKeyCommit sid 0 gen, rfl, rfl⟩
theorem peerKeyRetire (sid : Nat) (slot : Nat) (gen : Nat) : Statement (.peerKeyRetire sid slot gen) :=
  ⟨.peerKeyRetire sid 0 gen, rfl, rfl⟩
theorem flitCrcFail (pm : Nat) : Statement (.flitCrcFail pm) := ⟨.flitCrcFail 0, rfl, rfl⟩
theorem flitReplayReceived (pm : Nat) (diffs : List (Nat × Nat)) (good : Bool) : Statement (.flitReplayReceived pm diffs good) :=
  ⟨.flitReplayReceived 0 diffs good, rfl, rfl⟩
theorem retrainDone (pm : Nat) (t : PortTrain) : Statement (.retrainDone pm t) := ⟨.retrainDone 0 t, rfl, rfl⟩
theorem linkDownEvent (pm : Nat) : Statement (.linkDownEvent pm) := ⟨.linkDownEvent 0, rfl, rfl⟩
theorem hostHeartbeat (pm : Nat) (seq : BitVec 16) : Statement (.hostHeartbeat pm seq) := ⟨.hostHeartbeat 0 seq, rfl, rfl⟩
theorem pommelHeartbeat (pm : Nat) : Statement (.pommelHeartbeat pm) := ⟨.pommelHeartbeat 0, rfl, rfl⟩
theorem ixciaSend (a : Nat) : Statement (.ixciaSend a) := ⟨.ixciaSend a, rfl, rfl⟩
theorem write (cn : Nat) (p : Packet) : Statement (.write cn p) := ⟨.write 0 p, rfl, rfl⟩
theorem readReq (cn : Nat) (p : Packet) : Statement (.readReq cn p) := ⟨.readReq 0 p, rfl, rfl⟩
theorem readRsp (cn : Nat) (p : Packet) : Statement (.readRsp cn p) := ⟨.readRsp 0 p, rfl, rfl⟩
theorem atomic (cn : Nat) (p : Packet) : Statement (.atomic cn p) := ⟨.atomic 0 p, rfl, rfl⟩
theorem nak (cn : Nat) (p : Packet) : Statement (.nak cn p) := ⟨.nak 0 p, rfl, rfl⟩
theorem ack (cn : Nat) (p : Packet) : Statement (.ack cn p) := ⟨.ack 0 p, rfl, rfl⟩
theorem probe (cn : Nat) (p : Packet) : Statement (.probe cn p) := ⟨.probe 0 p, rfl, rfl⟩
theorem probeRsp (cn : Nat) (p : Packet) : Statement (.probeRsp cn p) := ⟨.probeRsp 0 p, rfl, rfl⟩
theorem probeTimeout (node : Nat) : Statement (.probeTimeout node) := ⟨.probeTimeout node, rfl, rfl⟩
theorem fencedExecute (node : Nat) (psn : W32) : Statement (.fencedExecute node psn) := ⟨.fencedExecute node psn, rfl, rfl⟩
theorem ixciaRto (node : Nat) (psn : W32) : Statement (.ixciaRto node psn) := ⟨.ixciaRto node psn, rfl, rfl⟩
theorem ackTimer (node : Nat) : Statement (.ackTimer node) := ⟨.ackTimer node, rfl, rfl⟩
theorem ixcRemoteTimeout (a : Nat) : Statement (.ixcRemoteTimeout a) := ⟨.ixcRemoteTimeout a, rfl, rfl⟩
theorem portDown (cn : Nat) (remote : Bool) : Statement (.portDown cn remote) := ⟨.portDown 0 remote, rfl, rfl⟩
theorem pathExclusionEnd (node : Nat) (lport : Nat) (rport : Nat) : Statement (.pathExclusionEnd node lport rport) :=
  ⟨.pathExclusionEnd node 0 0, rfl, rfl⟩
theorem winSet (cn : Nat) (irq : Bool) : Statement (.winSet cn irq) := ⟨.winSet 0 irq, rfl, rfl⟩
theorem winClear (cn : Nat) (irq : Bool) : Statement (.winClear cn irq) := ⟨.winClear 0 irq, rfl, rfl⟩
theorem winClearDone (cn : Nat) : Statement (.winClearDone cn) := ⟨.winClearDone 0, rfl, rfl⟩
theorem qpSet (cn : Nat) (irq : Bool) : Statement (.qpSet cn irq) := ⟨.qpSet 0 irq, rfl, rfl⟩
theorem qpClear (cn : Nat) (irq : Bool) : Statement (.qpClear cn irq) := ⟨.qpClear 0 irq, rfl, rfl⟩
theorem rdmaWrite (p : RocePkt) : Statement (.rdmaWrite p) := ⟨.rdmaWrite p, rfl, rfl⟩
theorem rdmaReadRequest (p : RocePkt) : Statement (.rdmaReadRequest p) := ⟨.rdmaReadRequest p, rfl, rfl⟩
theorem send (p : RocePkt) : Statement (.send p) := ⟨.send p, rfl, rfl⟩
theorem storageScrubVisit (w : StoreWord) : Statement (.storageScrubVisit w) := ⟨.storageScrubVisit w, rfl, rfl⟩
theorem errqHeadWrite (v : W32) : Statement (.errqHeadWrite v) := ⟨.errqHeadWrite v, rfl, rfl⟩
theorem leaseRenew (kind : Nat) (res : Nat) : Statement (.leaseRenew kind res) := ⟨.leaseRenew 0 res, rfl, rfl⟩
theorem leaseScan (k : Nat) : Statement (.leaseScan k) := ⟨.leaseScan 0, rfl, rfl⟩
theorem leaseSelfCheckDone (kind : Nat) (res : Nat) (ok : Bool) : Statement (.leaseSelfCheckDone kind res ok) :=
  ⟨.leaseSelfCheckDone 0 res ok, rfl, rfl⟩
theorem hbRenew (seq : W32) : Statement (.hbRenew seq) := ⟨.hbRenew seq, rfl, rfl⟩
theorem hbExpired : Statement .hbExpired := ⟨.hbExpired, rfl, rfl⟩
theorem orphanDrained : Statement .orphanDrained := ⟨.orphanDrained, rfl, rfl⟩
theorem tenureTokenWrite (size : Nat) (v : W64) : Statement (.tenureTokenWrite size v) := ⟨.tenureTokenWrite 4 v, rfl, rfl⟩
theorem reattach (size : Nat) (v : W64) : Statement (.reattach size v) := ⟨.reattach 4 v, rfl, rfl⟩
theorem ctxRest : Statement .ctxRest := ⟨.ctxRest, rfl, rfl⟩
theorem restDrainDone (c : Nat) : Statement (.restDrainDone c) := ⟨.restDrainDone 0, rfl, rfl⟩
theorem restHoldExpiry (c : Nat) : Statement (.restHoldExpiry c) := ⟨.restHoldExpiry 0, rfl, rfl⟩
theorem restImageWritten (c : Nat) (r : Ack) : Statement (.restImageWritten c r) := ⟨.restImageWritten 0 r, rfl, rfl⟩
theorem ctxResume : Statement .ctxResume := ⟨.ctxResume, rfl, rfl⟩
theorem rateShareWindow (st : Nat) : Statement (.rateShareWindow st) := ⟨.rateShareWindow 0, rfl, rfl⟩
theorem powerEstimate (st : Nat) (mw : Nat) (temp : Int) (mv : Nat) : Statement (.powerEstimate st mw temp mv) :=
  ⟨.powerEstimate 0 mw temp mv, rfl, rfl⟩
theorem traceRateWindow (st : Nat) : Statement (.traceRateWindow st) := ⟨.traceRateWindow 0, rfl, rfl⟩
theorem traceHeadWrite (v : W32) : Statement (.traceHeadWrite v) := ⟨.traceHeadWrite v, rfl, rfl⟩
theorem attach (r : AwlRoute) : Statement (.attach r) := ⟨.attach .mgmt, rfl, rfl⟩
theorem detach (r : AwlRoute) : Statement (.detach r) := ⟨.detach .mgmt, rfl, rfl⟩
theorem halt (r : AwlRoute) (st : Nat) (core : Nat) : Statement (.halt r st core) := ⟨.halt .mgmt 0 0, rfl, rfl⟩
theorem awlResume (r : AwlRoute) (st : Nat) (core : Nat) : Statement (.awlResume r st core) := ⟨.awlResume .mgmt 0 0, rfl, rfl⟩
theorem step (r : AwlRoute) (st : Nat) (core : Nat) : Statement (.step r st core) := ⟨.step .mgmt 0 0, rfl, rfl⟩
theorem awlRead (r : AwlRoute) (st : Nat) (core : Nat) (addr : W32) : Statement (.awlRead r st core addr) :=
  ⟨.awlRead .mgmt 0 0 addr, rfl, rfl⟩
theorem awlWrite (r : AwlRoute) (st : Nat) (core : Nat) (addr : W32) (data : W32) : Statement (.awlWrite r st core addr data) :=
  ⟨.awlWrite .mgmt 0 0 addr data, rfl, rfl⟩
theorem awlIdleDetach : Statement .awlIdleDetach := ⟨.awlIdleDetach, rfl, rfl⟩
theorem powerApplied : Statement .powerApplied := ⟨.powerApplied, rfl, rfl⟩
theorem fundamentalResetAssert : Statement .fundamentalResetAssert := ⟨.fundamentalResetAssert, rfl, rfl⟩
theorem portUp (cn : Nat) : Statement (.portUp cn) := ⟨.portUp 0, rfl, rfl⟩
theorem tileAccessComplete (a : Nat) (r : Ack) : Statement (.tileAccessComplete a r) := ⟨.tileAccessComplete a r, rfl, rfl⟩
theorem priorityFlowControl (cn : Nat) (mask : Byte) (pause : Bool) : Statement (.priorityFlowControl cn mask pause) :=
  ⟨.priorityFlowControl 0 mask pause, rfl, rfl⟩
theorem storageUpset (u : Upset) : Statement (.storageUpset u) := ⟨.storageUpset u, rfl, rfl⟩
theorem strapChange (pins : Byte) : Statement (.strapChange pins) := ⟨.strapChange pins, rfl, rfl⟩
theorem interfaceReport (vf : Nat) : Statement (.interfaceReport vf) := ⟨.interfaceReport 1, rfl, rfl⟩
theorem railOverEnd (st : Nat) (mv : Nat) : Statement (.railOverEnd st mv) := ⟨.railOverEnd 0 mv, rfl, rfl⟩
theorem sizeFaultRead (fn : Nat) (bar : Nat) (off : Nat) (size : Nat) : Statement (.sizeFaultRead fn bar off size) :=
  ⟨.sizeFaultRead 0 0 off size, rfl, rfl⟩

end Sys2Proof.Laws.WellFormed
end

