-- ==== Sys2Proof/Tests/Slice0.lean ====
section
/-! SUPPORT. Small checks of the model: terms that the operand checks refuse, states that meet the hypotheses of the statements,
and single values that the spec's tables give. -/

namespace Sys2Proof.Tests

set_option Elab.async false

open Sys2Proof.Machine

/-! ### Terms that the operand checks refuse -/

theorem test_wf_refuses_requesters :
    [Instr.dictRead (.op 4) 0 0 0 false, .dictRead (.part 64 0) 0 0 0 false, .dictWrite (.part 0 2) 0 0 0 [] false false,
      .dictInfo .mgmt 65536 0 false, .dictRead .mgmt 0 256 0 false, .domainImageDiscard (.op 4)].all (!·.wf) = true := by decide

theorem test_wf_refuses_stations :
    [Instr.thermalTrip 100 0 false, .railOverDetect 100 0, .railOverEnd 100 0, .eventResendTimer 100, .skipHopSwitch 100,
      .tempSample 100 0, .rollStationQuiesced 100, .rollQuiesceTimeout 100, .dmaEnable 100, .dmaDisable 100, .dmaQuiesced 100,
      .rateShareWindow 100, .powerEstimate 100 0 0 0, .traceRateWindow 100, .coreDigestAck 100 0 0, .coreDigestAck 0 8 0,
      .latigoEnumeration [100] true].all (!·.wf) = true := by decide

/-- A Latigo frame for the tests. -/
def frame (type dst : Nat) : Frame :=
  sealFrame { type := type, accepted := false, corrupt := false, nack := false, dst := dst, src := 0, tag := 3, index := 0x3000,
              sub := 0x20, offset := 0, status := 0, state := 0, payload := [], crc := 0 }

theorem test_wf_refuses_frames :
    [Instr.latigoRead (frame 1 0) true, .latigoRead (frame 1 101) true, .latigoWrite (frame 2 101) true,
      .latigoEmpty 100 (frame 0 1), .latigoEventAck 100 (frame 7 1), .latigoBroadcast 100 (frame 5 1),
      .latigoHeartbeat 100 (frame 6 1), .latigoResendTimeout 256, .setEndpointId 256, .getMctpVersionSupport 256,
      .getVendorDefinedMsgSupport 256, .entdaa 0, .entdaa 128].all (!·.wf) = true := by decide

theorem test_wf_refuses_ports :
    [Instr.doorbellForward 4, .resIntervalEnd 4, .l1Entry 4, .l1Exit 4, .ideIntegrityFail 4 false, .flitCrcFail 4,
      .flitReplayReceived 4 [] true, .retrainDone 4 ⟨false, 0, []⟩, .linkDownEvent 4, .hostHeartbeat 4 0, .pommelHeartbeat 4,
      .hotResetNonBoot 4 ⟨false, 0, []⟩, .pcsAligned 16, .pcsAlignTimeout 16, .winSet 16 false, .winClear 16 false,
      .winClearDone 16, .qpSet 16 false, .qpClear 16 false, .portDown 16 false, .portUp 16, .priorityFlowControl 16 0 false,
      .girthDwellEnd 20 ⟨false, [], 0⟩].all (!·.wf) = true := by decide

/-- An Ixcia packet for the tests. -/
def packet : Packet :=
  { version := 1, secure := false, fenced := false, retx := false, ecnEcho := false, srcNode := 7, dstNode := 0, psn := 0,
    ackPsn := 0, addr := 0, tag := 0, partition := 0, status := 0, incarnation := 5, lineMap := 0, payload := [], sealOk := true,
    ecn := false }

theorem test_wf_refuses_packets :
    [Instr.write 16 packet, .readReq 16 packet, .readRsp 16 packet, .atomic 16 packet, .nak 16 packet, .ack 16 packet,
      .probe 16 packet, .probeRsp 16 packet].all (!·.wf) = true := by decide

theorem test_wf_refuses_functions_and_offsets :
    [Instr.flrVf 0, .flrVf 65, .lockInterface 0, .startInterface 65, .stopInterface 0, .interfaceReport 65,
      .powerStateChange 65 false, .registerWrite 65 0 0 4 0 false, .registerWrite 0 1 0 4 0 false, .sizeFaultRead 0 3 0 4,
      .bitAliasWrite 0x1FFFFFF 4 0, .bitAliasWrite 0x4000000 4 0, .tvScrubVisit 2, .atsInvalidateRequest 65 none 0 0 false,
      .configRequest 4 0 0 none, .configRequest 0 65 0 none, .configRequest 0 0 4096 none, .windowOpen 32, .windowClose 32,
      .windowTargetTimeout 32, .windowAccess 0x8000000 4 none 0].all (!·.wf) = true := by decide

theorem test_wf_refuses_queues :
    [Instr.doorbell 65 0 0 none none, .doorbell 0 4 0 none none, .doorbell 0 0 65536 none none, .snoopDoorbell 65536,
      .tailLineReread 65536 0 0, .queueRecordLoad 65536, .programCheck 65536 [], .queueCreate 65536 0, .queueStart 65536 0 0 0,
      .queueStop 65536 0, .queueStopped 65536, .queueDestroy 65536 0, .wait 65536 0, .waitWake 65536, .waitPoll 65536,
      .waitTimeout 65536, .signal 65536 0, .branch 65536 0, .loop 65536 0, .reduce 65536 0, .stamp 65536 0,
      .frameSet 65536 0, .frameReclaim 65536 0, .reclaimDrainDone 65536 0, .reclaimScrubDone 65536 0, .pteWrite 65536 0 .ok,
      .ctxCreate 65536 0, .ctxRegions 65536 0, .ctxShare 65536 0, .ctxRevoke 65536 0, .ctxDestroy 65536 0,
      .fenceAbandon 65536 0, .refAck 65536 0, .ctxQuery 65536 0, .stampService 65536 0 0 0].all (!·.wf) = true := by decide

theorem test_wf_refuses_channels_and_contexts :
    [Instr.copy 65536 0 0 0, .copy 0 0 100 0, .copy 0 0 0 16, .accumSum 65536 0 0 0, .accumMax 0 0 100 0, .accumMin 0 0 0 16,
      .cksumAppend 0 0 0 16, .cksumVerify 0 0 100 0, .fill 65536 0 0 0, .gatherReduce 0 0 0 16, .vbufSlotGranted 100 0,
      .vbufSlotGranted 0 16, .handshakeTimeout 0 16, .dmaReadbackDone 100 0 0 .ok, .dmaReadbackDone 0 1048576 0 .ok,
      .ctxRecordLoad 1048576, .ctxRevoked 1048576, .faultRingHead 1048576 0, .resSample 1048576 0 none, .restDrainDone 1048576,
      .restHoldExpiry 1048576, .restImageWritten 1048576 .ok, .tileLoad 80 0 0 0 1, .tileLoad 0 0 1048576 0 1,
      .tileStore 80 0 0 0 [], .tileFenceAtomic 0 0 1048576 0 0, .stampReady 4 0].all (!·.wf) = true := by decide

theorem test_wf_refuses_slots :
    [Instr.tlbInvalidate 4 0 false, .tlbInvalidate 0 4 false, .retry 4 0 false, .fail 0 4 false, .failAll 4 0 false,
      .resume 0 4 false, .give 4 0 false, .take 0 4 false, .flush 4 0 false, .evict 0 4 false, .drop 4 0 false,
      .setAttr 0 4 false, .straddleCheckResult 80 0, .straddleCheckResult 0 32, .prgResponse 512 0 .success,
      .faultResponseTimeout 4 0, .faultResponseTimeout 0 2048, .promotionCopyDone 4 0, .promotionCopyDone 0 256,
      .evictionWritebackDone 0 256 .ok, .hostSnoop 4 0 false none, .hostSnoop 0 1 false none].all (!·.wf) = true := by decide

theorem test_wf_refuses_buckle :
    [Instr.bklClaim 65 0, .bklClaim 0 256, .bklTgtCtrlWrite 0 256 0, .bklDone 0 256 0, .bklDone 0 0 4096, .bklSet 65 0,
      .bklSet 0 4096, .bklSrcWrite 0 4096 0, .bklTsetWrite 64 0 0, .bklTsetWrite 0 8 0, .levelSnapshotTimer 2].all (!·.wf) =
      true := by decide

theorem test_wf_refuses_keys_and_leases :
    [Instr.bind 0 64, .peerShareGet 0 16384 0, .peerShareGet 0 0 64, .peerShareSet 0 512 0 0, .peerKeyCommit 0 512 0,
      .peerKeyRetire 0 512 0, .pathExclusionEnd 0 16 0, .pathExclusionEnd 0 0 16, .leaseRenew 8 0, .leaseScan 5,
      .leaseSelfCheckDone 8 0 true, .tenureTokenWrite 2 0, .reattach 2 0].all (!·.wf) = true := by decide

theorem test_wf_refuses_awl :
    [Instr.attach (.side 4 0), .detach (.side 0 65536), .halt .mgmt 100 0, .awlResume .mgmt 0 8, .step (.side 4 0) 0 0,
      .awlRead .mgmt 100 0 0, .awlWrite .mgmt 0 8 0 0].all (!·.wf) = true := by decide

/-! ### States in which the tests stand -/

/-- A block that is up, with every register at its reset value. -/
def tUp : State := { State.reset with power := .up }

/-- The same state a hundred seconds later: every interval of a timer has passed. -/
def tLate (s : State) : State := { s with ticks := 100000000 }

/-- Station `n` in service with eight cores. -/
def tLive (s : State) (n : Nat) : State := s.wr (pageOf n) 0x00FF1000#32

/-- The link of pommel `k` runs. -/
def tLink (s : State) (k : Nat) : State := (s.setFld (pmReg k 0x3080) 0 2 2).setPort k { s.port k with streams := true }

/-- A READY block with the four pommels, stirrup 0 and cantle 0 in service, its boot link running and host work enabled. -/
def tReady : State :=
  let s := [0, 80, 81, 82, 83, 84].foldl tLive (tUp.wr 0x08 2)
  (tLink s 0).setBit 0x0C 0 true

/-- Command `ss` runs with an argument. -/
def tCmd (s : State) (ss : Nat) (arg : Bytes) : State := s.setCmd ss { phase := 1, arg := arg }

/-- Bring-up step `n` runs. -/
def tStep (n : Nat) : State := tCmd (tLive tUp 80) 1 (leBytes 1 n)

/-- The first requester's accepted request on entry `i`.`sub` waits for its operation (`op` 0 a read, 1 a write). -/
def tOwn (s : State) (i sub op : Nat) (data : Bytes) : State :=
  s.setReqr 0 { phase := .own, op := op, index := i, sub := sub, data := data }

/-- A descriptor with the fields given as byte offset and value. -/
def dsc (fs : List (Nat × Nat)) : Desc := BitVec.ofNat 1024 (fs.foldl (fun v f => v + f.2 * 2 ^ (8 * f.1)) 0)

/-- A READY block in which queue 1, of context 5 or privileged, runs a program of the descriptor `d` alone. -/
def tQue (priv : Bool) (d : Desc) : State :=
  let s := tReady.setCtx 5 { state := 1, gen := 1, part := 0 }
  let r : QueueRec := { state := 2, priv := priv, gen := 1, ctx := if priv then 0 else 5, ctxGen := if priv then 0 else 1,
                        depth := 1, ringLog2 := 4, cqLog2 := 4, tailSeen := 1, checked := true, prog := [d] }
  let s := (s.setQue 1 r).setFld (partReg 0 0) 0 2 3
  { s with qs := { s.qs with resident := [1] } }

/-- What starting `d` on queue `q` answers, or the state before where it does not start. -/
def tStart (s : State) (q : Nat) (d : Desc) : W32 × State := ((s.wordsMet (s.queWords q)).start q d).getD (0, s)

/-- Whether `d` starts on queue `q`. -/
def tStarts (s : State) (q : Nat) (d : Desc) : Bool :=
  ((s.wordsMet (s.queWords q)).start q d).isSome &&
    !(tStart s q d).2.host.poisoned (((tStart s q d).2.que q).ringBase + (tStart s q d).1.toNat %
      2 ^ ((tStart s q d).2.que q).ringLog2 * 128) 128 && opAllowed ((tStart s q d).2.que q).priv (dOp d)

/-- A descriptor found to start does start, and `tStart` is where. -/
theorem starts_of {s : State} {q : Nat} {d : Desc} (h : tStarts s q d = true) :
    Starts s q d (tStart s q d).1 (tStart s q d).2 := by
  unfold tStarts at h
  simp only [Bool.and_eq_true, Bool.not_eq_true'] at h
  obtain ⟨⟨h1, h2⟩, h3⟩ := h
  refine ⟨?_, h2, h3⟩
  obtain ⟨p, hp⟩ := Option.isSome_iff_exists.mp h1
  simp [tStart, hp]

/-! ### States that meet the hypotheses of the statements -/

/-- Meets the hypotheses of `StepRunsTheFrontCommand`, `EmptyQueueTicks` and `EveryCommandAnswers`. -/
theorem test_met_step : ofSupply (.bklClaim 0 0) = false ∧ State.reset.pending = [] ∧
    ({ State.reset with power := .off } : State).power = .off ∧ State.reset.power = .held ∧
    ({ State.reset with pending := [.powerRemoved] } : State).pending = .powerRemoved :: [] ∧
    (let s : State := { tUp with led := { hourPs := hourPs - tUp.tickPs 80 - 1 } }
     s.power = .up ∧ s.led.hourPs + (s.clockTick.tk 80 - s.tk 80) * s.tickPs 80 < hourPs) := by decide +kernel

/-- Meets the hypotheses of `NotUpHoldsOnlyResetValues` and `SupplyAndReset`. -/
theorem test_met_held : State.reset.heldOnly ∧ tUp.heldOnly ∧ State.reset.power = .held := by
  refine ⟨.inr rfl, .inl rfl, rfl⟩

/-- Meets the hypotheses of `SettledWhenAtRest`. -/
theorem test_met_at_rest : tUp.atRest := by unfold State.atRest; decide +kernel

/-- A self-test that finds everything good. -/
def goodTest : SelfTest :=
  { fusesReadable := true, blockPartsOk := true, badStations := [], badCores := [], tilesAnswering := [], badGuards := [],
    badSkiving := [] }

/-- Meets the hypotheses of `BringUpTrainsAndTests`. -/
theorem test_met_bring_up :
    (tStep 1).stepRunning 1 ∧ (tStep 2).stepRunning 2 ∧ bitsOf (tStep 2).straps 4 1 = (tStep 2).fuses.pkgVariant ∧
    (let s : State := { tStep 2 with fuses := { fusesReset with pkgVariant := 3 } }
     s.stepRunning 2 ∧ bitsOf s.straps 4 1 ≠ s.fuses.pkgVariant) ∧
    (let s : State := { tStep 3 with fuses := { fusesReset with stations := 2 ^ 80, guards := 0 } }
     s.stepRunning 3 ∧ s.bu.firstRun3 = false ∧ (s.firstPlan goodTest).coresOk (80 + s.bootPm) ≠ 0) ∧
    (let s : State := { tStep 3 with bu := { firstRun3 := true } }
     s.bu.firstRun3 = true ∧ (s.againPlan goodTest).coresOk (80 + s.bootPm) ≠ 0) ∧
    (tStep 4).stepRunning 4 ∧ (tStep 4).ringBrokenBit = false ∧
    ((List.range 100).all fun n => !(tStep 4).present n || (tStep 4).lame n || n = 80) = true := by decide +kernel

/-- A bundle laid out as R475 says: four images of 16 bytes. -/
def bundle : Bytes :=
  leBytes 4 0x57464B43 ++ leBytes 2 1 ++ leBytes 2 4 ++ leBytes 4 0 ++ leBytes 4 432 ++
    ((List.range 4).flatMap fun i => leBytes 4 (i + 1) ++ leBytes 4 (272 + 16 * i) ++ leBytes 4 16 ++ leBytes 52 0) ++
    leBytes 64 0 ++ leBytes 96 0

/-- Meets the hypotheses of `BringUpFirmware`. -/
theorem test_met_firmware :
    (let s := (tStep 5).odPutBytes 0x2000 0x80 bundle
     s.stepRunning 5 ∧ fwOk (s.odBytes 0x2000 0x80) ∧ s.coresOk (80 + s.bootPm) ≠ 0) ∧
    (let s : State := { tStep 5 with bu := { loads := [(640, 2)], imageDigests := [0, 1, 2, 3] } }
     s.stepRunning 5 ∧ sGet 0 s.bu.loads (80 * 8 + 0) ≠ 0 ∧ s.present 80 ∧ (s.coresOk 80).testBit 0 ∧ 80 * 8 + 0 ∉ s.bu.acked ∧
       s.bu.imageDigests[kindCode (kindOf 80)]? = some 1 ∧ s.bu.imageDigests[kindCode (kindOf 80)]? ≠ some 7 ∧
       sGet 0 s.bu.loads (80 * 8 + 0) < 3) := by decide +kernel

/-- A host port's lanes, all good. -/
def goodLanes : PortMeas := { rotated := false, lanes := List.replicate 272 ⟨2 ^ 40, 0, true⟩, uncorrectable := 0 }

/-- Meets the hypotheses of `BringUpPortsStacksAndGirth`. -/
theorem test_met_ports_stacks_girth :
    (tStep 6).stepRunning 6 ∧ (tStep 7).stepRunning 7 ∧ (tStep 8).stepRunning 8 ∧ (tStep 9).stepRunning 9 ∧
    (tStep 10).stepRunning 10 ∧ (let s := tLate { tStep 6 with bu := { pcs := [(15, 1)] } }
     s.stepRunning 6 ∧ sGet 0 s.bu.pcs 15 = 1 ∧ s.timerDue .pcsAlign 15 (84 + 15) 50000 = true) ∧
    ({ tStep 7 with bu := { training := true } } : State).bu.training ∧
    ({ tUp with rcv := { stackBusy := some 7 } } : State).rcv.stackBusy = some 7 ∧ tUp.bu.training = false ∧
    (let s := tLate { tStep 8 with bu := { girthRun := true, dwell := some 3, pcs := [(15, 2)] } }
     s.stepRunning 8 ∧ s.bu.girthRun ∧ s.bu.dwell = some 3 ∧ (judgeHost (s.odNum 0x2000 0x94) goodLanes).width ≠ 0 ∧
       s.timerDue .dwell 3 (80 + 3) (s.odNum 0x2000 0x92) = true ∧ sGet 0 s.bu.pcs (19 - 4) = 2 ∧ sFind s.bu.girth 19 = none ∧
       s.timerDue .dwell 19 (80 + 19) (s.odNum 0x2000 0x93) = true) := by decide +kernel

/-- Meets the hypotheses of `RegisterWritesByAccessCode`. -/
theorem test_met_registers :
    (100000 ≤ (BitVec.setWidth 32 (100000 : W64)).toNat ∧ (BitVec.setWidth 32 (100000000 : W64)).toNat ≤ 100000000) ∧
    (BitVec.setWidth 32 (99999 : W64)).toNat < 100000 ∧ 100000000 < (BitVec.setWidth 32 (100000001 : W64)).toNat ∧
    tUp.bit 0x108 1 = false ∧
    (let s := tUp.setBit 0x108 1 true
     s.bit 0x108 1 = true ∧ (BitVec.setWidth 32 (0x1000 : W64) ^^^ s.rd 0x100) &&& 0xFFFFF000 ≠ 0) := by decide +kernel

/-- Meets the hypotheses of `AliasScrubAndWindows`. -/
theorem test_met_scrub_and_windows :
    (let s := tUp.setBit 0x0C 2 true
     s.bit 0x0C 2 = true ∧ (s.trip 0x204).a = s.rd 0x204 ∧ (s.trip 0x204).b = s.rd 0x204 ∧ (s.trip 0x204).c = s.rd 0x204) ∧
    sizeBad 2 0x204 = true ∧
    (let s := (tUp.setFld (winReg 31 0) 8 8 1).setBit (winReg 31 0) 0 true
     s.bit (winReg 31 0) 1 = false ∧ s.winValid (s.winTarget 31).1 (s.winTarget 31).2 = true) ∧
    (let s := tUp.setBit (winReg 0 0) 0 true
     s.bit (winReg 0 0) 1 = false ∧ s.winValid (s.winTarget 0).1 (s.winTarget 0).2 = false) ∧
    (let s := (((tUp.setFld (winReg 31 0) 8 8 1).setBit (winReg 31 0) 0 true).setBit (winReg 31 0) 1 true).setBit (winReg 31 0) 2 true
     s.bit (winReg 31 0) 1 = true ∧ s.fld (winReg 31 8) 12 20 * 4096 + 0x3FFFFC < winSpace (s.winTarget 31).1 ∧
       s.bit (winReg 31 0) 2 = true ∧ (s.winTarget 31).1 ≠ 5) ∧
    tUp.bit (winReg 31 0) 1 = false := by decide +kernel

/-- Meets the hypotheses of `VoteIsTheMajority`. -/
theorem test_met_vote :
    (let s := tUp.putTrip 0x204 ⟨1, 0, 0⟩
     s.trip 0x204 = ⟨1, 0, 0⟩) ∧
    (tUp.putTrip 0x204 ⟨0, 1, 0⟩).trip 0x204 = ⟨0, 1, 0⟩ ∧ (tUp.putTrip 0x204 ⟨0, 0, 1⟩).trip 0x204 = ⟨0, 0, 1⟩ := by
  decide +kernel

/-- Meets the hypotheses of `LinksAndConfiguration`. -/
theorem test_met_links_and_configuration :
    (let s := tLate ((tReady.setCfg 0 0x70 2).odSet 0x2000 0x52 100)
     s.linkActive 0 = true ∧ (s.cfg 0 0x70).getLsbD 1 = true ∧ s.odNum 0x2000 0x52 ≠ 0 ∧ s.bit (pmReg 0 0x3040) 2 = false ∧
       s.idleFor 0 (s.odNum 0x2000 0x52) = true) ∧
    (let s := (tReady.setCfg 0 cfgVfCtl 1).setCfg 0 cfgNumVfs 64
     s.fnThere 0 = true ∧ s.fnThere 64 = true ∧ s.vfOn 1 = true ∧ s.vfOn 64 = true) ∧
    (tReady.linkActive 0 = true ∧ tReady.bootPm = 0 ∧ tReady.ep.flr.contains 0 = false) ∧
    ((tLink tReady 3).linkActive 3 = true ∧ (tLink tReady 3).bootPm ≠ 3) ∧ tReady.hotMode = 0 ∧
    (let s := tReady.odSet 0x2000 0x50 1
     s.hotMode ≠ 0 ∧ s.phase = 2 ∧ (s.wr 0x08 4).phase = 4 ∧ (s.wr 0x08 4).hotMode ≠ 0) ∧
    (3 ≠ tReady.bootPm ∧ tReady.bu.blocked = false ∧ (tReady.port 3).linkDisabled = false ∧ tReady.lame (80 + 3) = false ∧
      tReady.bu.dwell ≠ some 3) := by
  decide +kernel

/-- Meets the hypotheses of `DieToDiePortsAndIde`. -/
theorem test_met_die_to_die :
    (let s := tLate (tLink tReady 3)
     s.linkActive 3 = true ∧ (s.port 3).replaying = false ∧ s.fld (pmReg 3 0x3080) 0 2 ≠ 0 ∧ s.bu.girthRun = false ∧
       s.timerDue .hostBeat 3 (80 + 3) 1000 = true) ∧
    (let s := (tLink tReady 3).setPort 3 { replaying := true }
     s.linkActive 3 = true ∧ (s.port 3).replaying = true ∧ (s.port 3).charges = []) ∧
    (let s := tReady.setFld (pmReg 3 0x3080) 0 2 3
     s.fld (pmReg 3 0x3080) 0 2 = 3 ∧ s.bu.dwell ≠ some 3) ∧
    (let s : State := { tLink tReady 3 with sec := { ide := [(7, 2)] } }
     s.linkActive 3 = true ∧ sGet 0 s.sec.ide (3 * 2 + b2n true) = 2) ∧
    (let s : State := { tReady with sec := { sessions := [{ sid := 0, secured := true }], ide := [(6, 1), (7, 2)] } }
     s.secured 0 = true ∧ s.inOrphan = false ∧ sGet 0 s.sec.ide (0 * 2 + b2n false) ≠ 2 ∧ sGet 0 s.sec.ide (3 * 2 + b2n false) = 1 ∧
       sGet 0 s.sec.ide (3 * 2 + b2n true) = 2) := by decide +kernel

/-- Buckle with a pending source of the highest priority for target 255, at its threshold. -/
def bklFull : Buckle :=
  { srcs := [(0, { st := .pending, prio := 15, enable := true, target := some 255 }),
             (0xBFF, { st := .inService, prio := 15, enable := true, target := some 255 })],
    tgts := [(255, { en := true, thresh := 15 })] }

/-- Meets the hypotheses of `ClaimTakesTheBestSource` and `BuckleCommands`. -/
theorem test_met_buckle :
    (let b : Buckle := {}
     b.level 0 = false) ∧
    sSorted none bklFull.srcs = true ∧ bklFull.level 255 = true ∧
    (bklFull.src 1).st = .idle ∧ (bklFull.src 0).st = .pending ∧ (bklFull.src 0xBFF).st = .inService ∧
    (bklFull.src 0xBFF).target = some 255 ∧ (bklFull.src 0).st ≠ .inService ∧ getBits (0x100 : W32) 4 5 ≤ 16 ∧
    (let s := tLate { tReady.setBit (pmReg 2 0x3080) 7 true with bkl := bklFull }
     s.carrier 1 = some 2 ∧ s.timerDue .levels 2 (80 + 2) 1000 = true ∧ (s.bkl.tgts.any fun p => p.1 / 128 = 1 && s.bkl.level p.1) = true) := by decide +kernel

/-- Meets the hypotheses of `DictionaryRequestsAreTaken` and `GatewayTurns`. -/
theorem test_met_dictionary :
    (let s : State := { tUp with mgmt := { addr := 9 } }
     s.reaches .mgmt = true ∧ s.ridLive (ridOf .mgmt) = true ∧ (s.reqr (ridOf .mgmt)).phase = .idle) ∧
    (tUp.reaches (.op 3) = true ∧ tUp.ridLive (ridOf (.op 3)) = true ∧ (tUp.reqr (ridOf (.op 3))).phase = .idle) ∧
    (let s := tUp.setBit (partReg 63 0) 0 true
     s.reaches (.part 63 1) = true ∧ s.ridLive (ridOf (.part 63 1)) = true) ∧
    (let s := tUp.setReqr 132 { phase := .waiting, index := 0x2000, sub := 1 }
     (((List.range 133).map fun i => (s.purgeOpens.gw.ptr + i) % 133).find? s.purgeOpens.takeable) = some 132 ∧
       s.purgeOpens.entryBusy (s.purgeOpens.reqr 132).index (s.purgeOpens.reqr 132).sub = false) := by
  decide +kernel

/-- Meets the hypotheses of `HoldingAreaTimeAndWear`. -/
theorem test_met_time_and_wear :
    tUp.bit 0x40 1 = false ∧ (tUp.setBit 0x40 1 true).bit 0x40 1 = true ∧ (tCmd tUp 2 []).cmdRunning 2 = true ∧
    ((tOwn tUp 0x2000 0x10 1 []).ownReq .own fun i b _ => i = 0x2000 && b = 0x10) = some 0 ∧ tUp.ringBrokenBit = false ∧
    hourPs ≤ ({ tUp with led := { hourPs := hourPs } } : State).led.hourPs ∧ tUp.fuses.stations.testBit 99 = true ∧
    1000 ≤ (tLate tUp).tk 99 - (sGet {} (tLate tUp).wear 99).sampled ∧
    (let img : Bytes := leBytes 4 0x4C564843 ++ leBytes 2 1 ++ leBytes 2 100 ++ leBytes 6520 0
     let s := tOwn tUp 0x8000 2 1 img
     (s.ownReq .own fun i b o => i = 0x8000 && b = 2 && o = 1) = some 0 ∧ s.ledgerOk (s.reqr 0).data = true ∧
       s.led.restored = false ∧ ({ s with led := { restored := true } } : State).led.restored = true) ∧
    (let s := tOwn tUp 0x8000 2 1 []
     (s.ownReq .own fun i b o => i = 0x8000 && b = 2 && o = 1) = some 0 ∧ s.ledgerOk (s.reqr 0).data = false) ∧
    (let s := tOwn tUp 0x8000 2 0 []
     (s.ownReq .own fun i b o => i = 0x8000 && b = 2 && o = 0) = some 0 ∧ s.bit 0x40 1 = false) := by decide +kernel

/-- Meets the hypotheses of `LatigoFrames` (nodes). -/
theorem test_met_latigo :
    (let f := { frame 1 100 with corrupt := true }
     (tUp.node 99).alive = true ∧ frameOk f = false ∧ f.dst = 99 + 1) ∧
    (let f := sealFrame { frame 1 100 with index := 0x3000 + 99 }
     (tUp.node 99).alive = true ∧ (tUp.node 99).skip = false ∧ frameOk f = true ∧ f.corrupt = false ∧ f.type = 1 ∧ f.dst = 99 + 1 ∧
       f.index = 0x3000 + 99 ∧ (odRow f.index f.sub).isSome = true ∧ (tUp.node 99).kept.find? (fun k => k.1 = f.tag) = none) ∧
    (let f := sealFrame { frame 2 100 with index := 0x3000 + 99 }
     frameOk f = true ∧ f.corrupt = false ∧ f.type = 2 ∧ f.dst = 99 + 1 ∧ f.index = 0x3000 + 99 ∧
       (odRow f.index f.sub).isSome = true ∧ (tUp.node 99).kept.find? (fun k => k.1 = f.tag) = none) ∧
    (let s := tUp.setNode 99 { replies := [frame 3 0, frame 3 0] }
     (s.node 99).alive = true ∧ (s.node 99).skip = false ∧ frameOk (frame 0 0) = true ∧ (frame 0 0).corrupt = false ∧
       (frame 0 0).type = 0 ∧ (s.node 99).replies = frame 3 0 :: [frame 3 0]) ∧
    (frameOk (frame 7 100) = true ∧ (frame 7 100).corrupt = false ∧ (frame 7 100).type = 7 ∧ (frame 7 100).dst = 99 + 1) ∧
    (let s := tLive tUp 99
     let f := sealFrame { frame 5 0x7F with index := 0x2000, sub := 0x10, payload := leBytes 6 9 }
     frameOk f = true ∧ f.corrupt = false ∧ f.type = 5 ∧ f.index = 0x2000 ∧ f.sub = 0x10 ∧ s.present 99 = true ∧
       s.lame 99 = false ∧ 99 ≠ 80) ∧
    (frameOk (frame 6 0x7F) = true ∧ (frame 6 0x7F).corrupt = false ∧ (frame 6 0x7F).type = 6) := by decide +kernel

/-- A gateway with one request out, sent `n` times. -/
def tOut (n : Nat) : State :=
  { tUp with gw := { out := [{ tag := 3, rid := 0, frame := frame 1 1, sends := n, accepted := false, since := 0 }] },
             ticks := 250 }

/-- Meets the hypotheses of `LatigoFrames` (gateway). -/
theorem test_met_latigo_gateway :
    (let o : LtgReq := { tag := 3, rid := 0, frame := frame 1 1, sends := 3, accepted := false, since := 0 }
     let f := sealFrame { frame 1 1 with accepted := true }
     let g := sealFrame { frame 1 1 with nack := true }
     ((tOut 3).gw.out.find? fun o => o.tag = f.tag && o.frame.type = f.type && o.frame.dst = f.dst) = some o ∧ f.type ≠ 5 ∧
       f.corrupt = false ∧ frameOk f = true ∧ f.nack = false ∧ f.accepted = true ∧
       ((tOut 3).gw.out.find? fun o => o.tag = g.tag && o.frame.type = g.type && o.frame.dst = g.dst) = some o ∧ g.type ≠ 5 ∧
       g.corrupt = false ∧ frameOk g = true ∧ g.nack = true ∧ o.sends < 4) ∧
    (let f := frame 5 0x7F
     let s : State := { tUp with gw := { bcast := some f } }
     f.type = 5 ∧ s.gw.bcast = some f ∧ f.corrupt = false ∧ frameOk f = true ∧ ({ f with corrupt := true } : Frame).type = 5 ∧
       ({ f with corrupt := true } : Frame).corrupt = true) ∧
    (let f := sealFrame { frame 3 0 with src := 1 }
     ((tOut 1).gw.out.find? fun o => o.tag = f.tag && o.frame.dst = f.src).isSome = true ∧ f.type = 3 ∧ f.corrupt = false ∧
       frameOk f = true ∧ f.status = 0) ∧
    (((tOut 4).gw.out.find? fun o => o.tag = 3).map (·.sends) = some 4 ∧
      ((tOut 3).gw.out.find? fun o => o.tag = 3).map (·.sends) = some 3 ∧ 250 ≤ (tOut 4).tk 80 - 0) ∧
    ((frame 4 0).type = 4 ∧ (frame 4 0).corrupt = false ∧ frameOk (frame 4 0) = true) := by decide +kernel

/-- Meets the hypotheses of `LatigoTimers`. -/
theorem test_met_latigo_timers :
    (let s := tLate tUp
     (s.node 99).alive = true ∧ (s.node 99).skip = false ∧ (s.predAlive 99 || s.timerDue .skipHop (99 - 1) 99 30) = true) ∧
    (let s := tLate (tUp.setNode 98 { alive := false })
     s.predAlive 99 = false ∧ (s.node 99).skip = false ∧ s.timerDue .skipHop (99 - 1) 99 30 = true) ∧
    ((tUp.setNode 99 { skip := true }).node 99).skip = true ∧ tUp.ringBrokenBit = false ∧
    (tLate tUp).timerDue .heartbeat 0 80 4000 = true ∧ (tUp.odSet 0x7000 0x10 1).ringBrokenBit = true := by decide +kernel

/-- Meets the hypotheses of `ReadsOfTheMap`, at the ends of each range. -/
theorem test_met_reads :
    (0x40000 ≤ 0xFFFFC ∧ 0xFFFFC < 0x100000) ∧ (0x740000 ≤ 0x1FFFFFC ∧ 0x1FFFFFC < 0x2000000) ∧ 0xFFFFC % 4 = 0 ∧
    tReady.configured 63 = false ∧ tReady.configured (64 - 1) = false ∧ (tReady.setBit (partReg 0 0) 0 true).configured (1 - 1) = true := by
  decide +kernel

/-- R335, R336: ROM_LENGTH of the identity DVSEC, and the header's RECORDS and LENGTH fields. -/
theorem test_rom : State.reset.romBytes.length = 736 ∧ (State.reset.operatorRead 0x8004).1 = 0x60001 ∧
    (State.reset.operatorRead 0x8008).1 = 0x2E0 := by decide +kernel

/-- Meets the hypotheses of `ManagementEndpoint`. -/
theorem test_met_management :
    tUp.mgmt.addr = 0 ∧ ({ tUp with mgmt := { addr := 127 } } : State).mgmt.addr ≠ 0 ∧ 1 ≤ 254 ∧ 254 < 255 := by decide +kernel

/-- Meets the hypotheses of `DescriptorsStartInOrder`. -/
theorem test_met_starts :
    tStarts (tQue false (dsc [(0, 0x41), (1, 0x20)])) 1 (dsc [(0, 0x41), (1, 0x20)]) = true ∧
    ((tQue false (dsc [(0, 0x41), (1, 0x20)])).start 1 (dsc [(0, 0x41), (1, 0x20)])).isSome = true := by decide +kernel

/-- Meets the hypotheses of `FenceRules`. -/
theorem test_met_fences : 2 ^ 64 - 1 < 2 ^ 64 ∧ 2 ^ 63 - 1 < 2 ^ 63 ∧ waitEval 5 5 = 0 := by decide +kernel

/-- Meets the hypotheses of `Doorbells`. -/
theorem test_met_doorbells :
    (let s : State := { tReady with qs := { maps := [(65535, 1)] } }
     s.pmServes 0 = true ∧ sGet 0 s.qs.maps (0 * 65536 + 65535) ≠ 0 ∧ sGet 0 s.qs.maps (0 * 65536 + 0) = 0) ∧
    (let m : DbMsg := { pm := 3, queue := 0, tail := some 1, head := none }
     let s : State := { tReady with qs := { fwd := [m] } }
     s.power = .up ∧ s.qs.fwd = m :: [] ∧ (s.que m.queue).state = 0) ∧
    (let m : DbMsg := { pm := 3, queue := 1, tail := some 1, head := none }
     let t := tQue false 0
     let s : State := { t with qs := { t.qs with fwd := [m] } }
     s.power = .up ∧ s.qs.fwd = m :: [] ∧ (s.que m.queue).state ≠ 0) ∧
    (65535 ∈ ({ tReady with cw := { rung := [65535] } } : State).cw.rung) ∧
    (let s : State := { tReady with cw := { rung := [65535 + 2 ^ 20] }, qs := { watch := [65535] } }
     65535 + 2 ^ 20 ∈ s.cw.rung ∧ 65535 ∈ s.qs.watch) := by decide +kernel

/-- Every guard that serves frame `f` is in service. -/
def tGuard (s : State) (f : Nat) : State := s.setBit (grdReg (s.guardOf f) 4) 0 true

/-- Queue 1 running with the program `d`, which its ring holds, which lies whole below TAIL_SEEN and has not been checked. -/
def tUnchecked (priv : Bool) (d : Desc) : State :=
  let s := tQue priv 0
  { s.setQue 1 { s.que 1 with checked := false, prog := [], tailSeen := 1 } with host := s.host.write 0 (leBytes 128 d.toNat) }

/-- Q0_ENABLE written with `v`, every frame's guard in service and the queue table's frame owned. -/
def tQ0 (v : Nat) : State :=
  let s := (tOwn tReady 0x2000 0x36 1 (leBytes 1 v)).setBit (grdReg (tReady.guardOf (tReady.queFrame 0)) 4) 0 true
  { s with own := [(s.queFrame 0, queTableWord)] }

/-- Meets the hypotheses of `RecordsProgramsAndQueueZero`. -/
theorem test_met_records_and_queue_zero :
    ((tQue true 0).que 1).state ≠ 0 ∧ tUp.ctxInTable (2 ^ tUp.odNum 0x2000 0x21 - 1) = true ∧
    (let d := dsc [(0, 0xC9), (1, 0x20)]
     let s := tUnchecked true d
     s.queRuns 1 = true ∧ (s.que 1).checked = false ∧ isProgram [d] = true ∧ 1 ≤ wdiff (s.que 1).tailSeen (s.que 1).progStart ∧
       wdiff (s.que 1).tailSeen (s.que 1).progStart < 2 ^ 31 ∧ s.fetched 1 [d] = true ∧ s.fetchBad 1 1 = none ∧
       progFail (s.que 1).priv [d] = none) ∧
    (let d := dsc [(0, 0x7F), (1, 0x21)]
     let s := tUnchecked false d
     s.queRuns 1 = true ∧ (s.que 1).checked = false ∧ isProgram [d] = true ∧ 1 ≤ wdiff (s.que 1).tailSeen (s.que 1).progStart ∧
       s.fetched 1 [d] = true ∧ s.fetchBad 1 1 = none ∧ progFail (s.que 1).priv [d] = some 0 ∧ (s.que 1).cqFree ≠ 0) ∧
    (let d := dsc [(0, 0xC9), (1, 0x20)]
     let s := (tUnchecked true d).setQue 1 { (tUnchecked true d).que 1 with ringBase := 2 ^ 52 }
     s.queRuns 1 = true ∧ (s.que 1).checked = false ∧ s.fetched 1 [d] = true ∧ s.fetchBad 1 1 = some 0 ∧ s.fetchEnd 1 (s.progIdx 1 0) ≠ 1 ∧
       (s.que 1).cqFree ≠ 0) ∧
    (let s := tGuard (tGuard tReady (tReady.ctxFrame 5)) 0
     (s.loadCtx 5).1 = some 4 ∧ (({ s with own := [(s.ctxFrame 5, ctxTableWord)] } : State).loadCtx 5).1 = some 0) ∧
    (let s := tQ0 1
     (s.ownReq .own fun i b op => i = 0x2000 && b = 0x36 && op = 1) = some 0 ∧ leNat (s.reqr 0).data = 1 ∧ s.q0Runs = false ∧
       s.q0New.ringBase % (2 ^ s.q0New.ringLog2 * 128) = 0 ∧ s.q0New.cqBase % (2 ^ s.q0New.cqLog2 * 32) = 0 ∧
       s.q0New.ringBase % 4096 = 0 ∧ s.q0New.cqBase % 4096 = 0 ∧
       (s.guardCheck (s.queFrame 0) queTableWord { ctx := none, station := s.queStation 0 }).1 = 0) ∧
    (let s := tQ0 0
     (s.ownReq .own fun i b op => i = 0x2000 && b = 0x36 && op = 1) = some 0 ∧ leNat (s.reqr 0).data = 0 ∧
       s.qs.q0Draining = false ∧ s.q0Runs = false) ∧
    (let s := (tQ0 0).setQue 0 { (tQ0 0).q0New with state := 2 }
     (s.ownReq .own fun i b op => i = 0x2000 && b = 0x36 && op = 1) = some 0 ∧ leNat (s.reqr 0).data = 0 ∧
       s.qs.q0Draining = false ∧ s.q0Runs = true ∧
       (let u := s.setQue 0 { s.que 0 with stopQ0 := true }
        (u.que 0).stopQ0 = true ∧ (u.que 0).fly = [] ∧ u.q0Runs = true ∧ u.stopJobs 0 = [])) := by decide +kernel

/-- A QUEUE_CREATE of privileged queue 2, and queue 1 ready to start it. -/
def dCreate : Desc := dsc [(0, 0xD0), (1, 0x20), (16, 2), (64, 4), (65, 4), (67, 1), (69, 0xFF), (70, 1), (71, 1)]

/-- The same block with the frame of the queue table owned and its guard in service. -/
def tOwned (s : State) (f : Nat) (w : W32) : State :=
  { s.setBit (grdReg (s.guardOf f) 4) 0 true with own := [(f, w)] }

/-- A queue command `op` on queue 2 of generation 1, in state `st`. -/
def tCmdQue (op st : Nat) : State × Desc :=
  let d := dsc [(0, op), (1, 0x20), (16, 2), (20, 1)]
  ((tQue true d).setQue 2 { state := st, gen := 1, priv := true, depth := 1, ringLog2 := 4, cqLog2 := 4 }, d)

/-- Meets the hypotheses of `QueueCommands`. -/
theorem test_met_queue_commands :
    (let s := tOwned (tQue true dCreate) (tReady.queFrame 2) queTableWord
     let t := (tStart s 1 dCreate).2
     let g := t.guardCheck (t.queFrame 2) queTableWord { ctx := none, station := t.queStation 1 }
     let r := g.2.refTake none (df dCreate 68 1) (df dCreate 56 8)
     dOp dCreate = 0xD0 ∧ tStarts s 1 dCreate = true ∧ t.queShape dCreate = true ∧ (df dCreate 70 1).testBit 0 = true ∧
       (t.que (df dCreate 16 4)).state = 0 ∧ df dCreate 16 4 = 2 ∧ g.1 = 0 ∧ r.1.status = 0 ∧
       (((r.2.setQue 2 (r.2.queNew dCreate 1)).mapQue 2 0).skirtResident 0).length < 4096) ∧
    (let p := tCmdQue 0xD1 1
     let t := (tStart p.1 1 p.2).2
     dOp p.2 = 0xD1 ∧ tStarts p.1 1 p.2 = true ∧ t.queRefuse (!resOk p.2 [(16, 4), (20, 4)]) (df p.2 16 4) (df p.2 20 4) [1, 4] = none) ∧
    (let p := tCmdQue 0xD2 3
     let t := (tStart p.1 1 p.2).2
     dOp p.2 = 0xD2 ∧ tStarts p.1 1 p.2 = true ∧ t.queRefuse (!resOk p.2 [(16, 4), (20, 4)]) (df p.2 16 4) (df p.2 20 4) [2, 3] = none) ∧
    (let p := tCmdQue 0xD3 4
     let t := (tStart p.1 1 p.2).2
     dOp p.2 = 0xD3 ∧ tStarts p.1 1 p.2 = true ∧ t.queRefuse (!resOk p.2 [(16, 4), (20, 4)]) (df p.2 16 4) (df p.2 20 4) [1, 4] = none) ∧
    (let j : CtlJob := { queue := 1, ri := 0, desc := dsc [(0, 0xD2)], phase := 3, aux := 2 }
     let s := (tReady.setQue 2 { state := 2, priv := true, stopping := some (1, 0) }).setJob j
     (s.que 2).stopping = some (1, 0) ∧ (s.que 2).fly = [] ∧ (s.que 2).stopQ0 = false ∧ (s.que 2).state = 2 ∧ (s.que 2).pause = 0 ∧
       s.stopJobs 2 = [j]) := by
  decide +kernel

/-- A pending WAIT of queue 1. -/
def jWait : CtlJob := { queue := 1, ri := 0, desc := dsc [(0, 0x40), (40, 7)], phase := 2 }

/-- Meets the hypotheses of `ControlDescriptors`. -/
theorem test_met_control_descriptors :
    (∀ op ∈ [0x40, 0x41, 0x42, 0x45], tStarts (tQue false (dsc [(0, op), (1, 0x20)])) 1 (dsc [(0, op), (1, 0x20)]) = true ∧
      dOp (dsc [(0, op), (1, 0x20)]) = op ∧
      ((tStart (tQue false (dsc [(0, op), (1, 0x20)])) 1 (dsc [(0, op), (1, 0x20)])).2.que 1).priv = false) ∧
    (let d := dsc [(0, 0x43), (1, 0x20), (20, 2)]
     let t := (tStart (tQue false d) 1 d).2
     dOp d = 0x43 ∧ tStarts (tQue false d) 1 d = true ∧ ((t.que 1).loops[df d 18 1 % 4]?).getD 0 = 0 ∧ 0 + 1 < df d 20 4) ∧
    (let d := dsc [(0, 0x43), (1, 0x20), (20, 1)]
     dOp d = 0x43 ∧ tStarts (tQue false d) 1 d = true ∧ df d 20 4 ≤ 0 + 1) ∧
    (let s : State := { (tQue false 0).setJob jWait with cw := { woken := [(1, 0)] }, ticks := 64 }
     (s.waitJob 1 fun j => s.cw.woken.contains (1, j.ri)) = some jWait ∧ (s.loadQue 1).qs.resident.contains 1 = true ∧
       (s.waitJob 1 fun j => !j.entry && s.timerDue .poll 1 (s.queStation 1) 64) = some jWait ∧
       (s.waitJob 1 fun j => df j.desc 40 4 ≠ 0 && df j.desc 40 4 ≤ s.tk (s.queStation 1) - j.since) = some jWait) ∧
    (∀ op ∈ [0x40, 0x41], let d := dsc [(0, op), (1, 0x20)]
     tStarts (tQue true d) 1 d = true ∧ ((tStart (tQue true d) 1 d).2.que 1).priv = true) := by decide +kernel

/-- The argument of BOOT_FRAME_SET: frame `f`, `n` frames, an owner of kind 3. -/
def tBoot (f n : Nat) : Bytes := leBytes 8 f ++ leBytes 4 n ++ leBytes 4 (3 * 2 ^ 24 + 1)

/-- Meets the hypotheses of `FramesRetrainingAndRails`. -/
theorem test_met_frames_retraining_rails :
    (let s := tGuard (tCmd tUp 7 (tBoot 0 1)) 0
     s.cmdRunning 7 ∧ s.runOut (s.cmdArg 7 0 8) (s.cmdArg 7 8 4) = false ∧ s.runFree (s.cmdArg 7 0 8) (s.cmdArg 7 8 4) = true) ∧
    (let s := tCmd tUp 7 (tBoot 0 1)
     s.cmdRunning 7 ∧ s.runOut (s.cmdArg 7 0 8) (s.cmdArg 7 8 4) = true) ∧
    (let s : State := { tGuard (tCmd tUp 7 (tBoot 0 1)) 0 with own := [(0, 1)] }
     s.runOut (s.cmdArg 7 0 8) (s.cmdArg 7 8 4) = false ∧ s.runFree (s.cmdArg 7 0 8) (s.cmdArg 7 8 4) = false) ∧
    (let s := tCmd (tLive tUp 83) 8 (leBytes 4 (1 + 3 * 4))
     s.cmdRunning 8 ∧ s.retrainArg = (1, 3) ∧ s.fld (pmReg 3 0x3080) 0 2 ≠ 3 ∧ s.retrainGone 1 3 = false ∧
       s.bu.girthRun = false ∧ s.bu.dwell = none) ∧
    (let s : State := { tLate (tCmd (tLive tUp 83) 8 (leBytes 4 (1 + 3 * 4))) with bu := { dwell := some 3 } }
     s.cmdRunning 8 ∧ s.retrainArg = (1, 3) ∧ s.retrainGone 1 3 = false ∧ s.measuring 3 = true ∧
       s.timerDue .dwell 3 (80 + 3) (s.odNum 0x2000 0x92) = true) ∧
    (let s := tCmd (tLive tUp 99) 8 (leBytes 4 (2 + 15 * 4))
     s.cmdRunning 8 ∧ s.retrainArg = (2, 15) ∧ s.retrainGone 2 15 = false ∧ s.bu.girthRun = false ∧ s.bu.dwell = none) ∧
    (let s : State := { tLate (tCmd (tLive tUp 99) 8 (leBytes 4 (2 + 15 * 4))) with bu := { dwell := some (4 + 15) } }
     s.cmdRunning 8 ∧ s.retrainArg = (2, 15) ∧ s.retrainGone 2 15 = false ∧ s.measuring (4 + 15) = true ∧
       s.timerDue .dwell (4 + 15) (84 + 15) (s.odNum 0x2000 0x93) = true) ∧
    (let s := tCmd tUp 8 (leBytes 4 (1 + 3 * 4))
     s.cmdRunning 8 ∧ s.retrainArg = (1, 3) ∧ s.retrainGone 1 3 = true) ∧
    (let s := tCmd tUp 8 (leBytes 4 (2 + 15 * 4))
     s.cmdRunning 8 ∧ s.retrainArg = (2, 15) ∧ s.retrainGone 2 15 = true) ∧
    (let s := tCmd tUp 8 (leBytes 4 (3 + 7 * 4))
     s.cmdRunning 8 ∧ s.retrainArg = (3, 7) ∧ s.rcv.stackBusy = none ∧ s.retrainGone 3 7 = false) ∧
    tUp.fuses.stations.testBit 99 = true ∧ 99 ∉ tUp.rcv.railOver ∧ tUp.fuses.railMax + 10 ≤ 860 ∧
    (∀ n ∈ ({ tUp with rcv := { railOver := [99] } } : State).rcv.railOver, n = 99) ∧ 850 ≤ tUp.fuses.railMax := by decide +kernel

/-- Queue 1 with a data descriptor, and stirrup 0 with its channel 15 and its skiving unit ready for it. -/
def tData (d : Desc) : State :=
  let s := ((((tQue false d).setBit (pageOf 0 + 0x2004) 0 true).wr (pageOf 0 + 0x2008) 0xFFFF).setBit (pageOf 0 + 0x2200) 0 true)
  s.setBit (partReg 0 0x14) 0 true

/-- Meets the hypotheses of `DataDescriptorsStart`. -/
theorem test_met_data_descriptors :
    (∀ k ∈ [0, 1, 2, 3, 4, 5], tStarts (tData (dsc [(0, 1), (98, k)])) 1 (dsc [(0, 1), (98, k)]) = true ∧
      dOp (dsc [(0, 1), (98, k)]) = 1 ∧ df (dsc [(0, 1), (98, k)]) 98 1 = k) ∧
    (∀ op ∈ [2, 3], tStarts (tData (dsc [(0, op)])) 1 (dsc [(0, op)]) = true ∧ dOp (dsc [(0, op)]) = op) ∧
    (let s := tData (dsc [(0, 1)])
     (s.wordsMet (s.queWords 1)).chanFor 1 0 15 = true) ∧
    (let d := dsc [(0, 0x44), (1, 0x20)]
     let t := (tStart (tData d) 1 d).2
     dOp d = 0x44 ∧ tStarts (tData d) 1 d = true ∧ t.reduceStation (t.que 1).skirt = some 0 ∧
       t.chan? (chanKey 0 (16 + 1 * 8 + 0)) = none ∧
       (let u := t.setChan (chanKey 0 (16 + 1 * 8 + 0)) {}
        u.chan? (chanKey 0 (16 + 1 * 8 + 0)) ≠ none ∧ u.chan? (chanKey 0 (16 + 1 * 8 + 1)) = none) ∧
       (let v := (tStart (tQue false d) 1 d).2
        v.reduceStation (v.que 1).skirt = none)) := by decide +kernel

/-- Channel 15 of stirrup 0 with one write path not read back, and an access of it. -/
def tChan (stage : Nat) (ph : AccPh) (retired : Bool) : State :=
  let a : Access := { id := 4, src := .chan 0 15, station := 0, ctx := 5, gen := 1, va := 0, len := 8, write := false, op := .load,
                      ph := ph, kind := 1, retired := retired }
  let s := tReady.setChan (chanKey 0 15) { stage := stage, paths := [{ kind := 1, id := 0, addr := 0, off := 0 }] }
  { s with dma := { s.dma with vwait := [chanKey 0 15] }, acc := { list := [a] } }

/-- Meets the hypotheses of `ChannelsProgressAndQuiesce`. -/
theorem test_met_channels :
    (let s := tChan 0 .ready false
     (s.chan? (chanKey 0 15)).isSome = true ∧ (s.dma.vwait.find? fun k => (chanOf k).1 = 0) = some (chanKey 0 15) ∧
       (s.dma.chans.filter fun e => (chanOf e.1).1 = 0 && e.2.vbuf).length < 4) ∧
    (∀ ph ∈ [AccPh.ready, .done], ∀ r ∈ [true, false], ((tChan 1 ph r).acc? 4).map (fun a => (a.src, a.ph, a.retired, a.kind)) =
      some (.chan 0 15, ph, r, 1)) ∧
    (let a : Access := { id := 4, src := .chan 0 15, station := 0, ctx := 5, gen := 1, va := 0, len := 8, write := false, op := .load,
                         ph := .ready, kind := 2 }
     let s : State := { tReady.setChan (chanKey 0 15) {} with acc := { list := [a] } }
     s.acc? 4 = some a ∧ (s.wordsMet (s.dmaWords 0 15 a)).firstOnPath a = true) ∧
    (let s := tChan 3 .done false
     let p : WPath := { kind := 1, id := 0, addr := 0, off := 0 }
     let c : Chan := { stage := 3, paths := [p] }
     s.chan? (chanKey 0 15) = some c ∧ c.paths[0]? = some p ∧ c.stage = 3 ∧ p.back = false ∧ (s.backStatus 0 c p .ok).1 = some 0 ∧
       ((c.paths.zipIdx).find? fun e => !e.1.back) = some (p, 0) ∧
       (tLate s).timerDue .stall (chanKey 0 15) 0 handshakeTicks = true) ∧
    (∀ e ∈ (tReady.setChan (chanKey 0 16) {}).dma.chans, (chanOf e.1).1 = 0 → 16 ≤ (chanOf e.1).2) := by
  refine ⟨?_, ?_, ?_, ?_, ?_⟩ <;> decide +kernel

/-- Meets the hypotheses of `ChannelsProgressAndQuiesce`. -/
theorem test_met_quiescence :
    tReady.live 0 = true ∧ ((tReady.setBit (pageOf 0 + 0x2004) 0 true).setBit (pageOf 0 + 0x2000) 0 false).bit (pageOf 0 + 0x2004) 0 = true ∧
    (tReady.setBit (pageOf 0 + 0x2004) 1 true).bit (pageOf 0 + 0x2004) 1 = true := by decide +kernel

/-- An object command in privileged queue 1, with frame 1 owned as the translation tables of partition 0 and frame 0 as the context
table, and their guards in service. -/
def tObj (d : Desc) : State :=
  { tGuard (tGuard (tQue true d) 0) 1 with own := [(0, ctxTableWord), (1, ownerWord 0 3 2)] }

/-- The state in which `d` starts there. -/
def tObjAt (d : Desc) : State := (tStart (tObj d) 1 d).2

/-- Meets the hypotheses of `FramesAndTableEntries`. -/
theorem test_met_frames_and_entries :
    (let d := dsc [(0, 0xC0), (1, 0x20), (16, 16), (24, 1), (28, 3 * 2 ^ 24 + 1)]
     let t := (tStart (tGuard (tObj d) 16) 1 d).2
     dOp d = 0xC0 ∧ tStarts (tGuard (tObj d) 16) 1 d = true ∧ resOk d [(16, 8), (24, 4), (28, 4)] = true ∧ df d 24 4 ≠ 0 ∧ df d 24 4 ≤ 262144 ∧
       ownerOk (df d 28 4) = true ∧ df d 16 8 + df d 24 4 ≤ t.devBytes / 4096 ∧ t.runOut (df d 16 8) (df d 24 4) = false) ∧
    (∀ n ∈ [60, 61], let d := dsc [(0, 0xC0), (1, 0x20), (16, 16), (24, n), (28, 3 * 2 ^ 24 + 1)]
     let s := (List.range 128).foldl (fun s g => s.setBit (grdReg g 4) 0 true) (tObj d)
     16 + 60 ≤ s.usable ∧ (∀ e ∈ s.own, e.1 < 16 ∨ 16 + 60 ≤ e.1) ∧ (∀ i < 60, s.guardUp (s.guardOf (16 + i)) = true) ∧
       min 60 (df d 24 4) = 60) ∧
    (let d := dsc [(0, 0xC1), (1, 0x20), (16, 1), (24, 1), (32, 3 * 2 ^ 24 + 2)]
     let t := tObjAt d
     dOp d = 0xC1 ∧ tStarts (tObj d) 1 d = true ∧ resOk d [(16, 8), (24, 4), (32, 4)] = true ∧ df d 24 4 ≠ 0 ∧ df d 24 4 ≤ 262144 ∧
       df d 16 8 + df d 24 4 ≤ t.devBytes / 4096 ∧ t.runOut (df d 16 8) (df d 24 4) = false ∧
       df d 16 8 + df d 24 4 ≤ t.usable ∧ (∀ i < df d 24 4, t.ownerOf (df d 16 8 + i) = BitVec.ofNat 32 (df d 32 4))) ∧
    (let d := dsc [(0, 0xC1), (16, 1), (24, 1), (32, 3 * 2 ^ 24 + 2)]
     let j (n : Nat) : CtlJob := { queue := 1, ri := 0, desc := d, phase := 3, aux := n }
     ((tObj d).setJob (j 1)).job? 1 0 = some (j 1) ∧ ((tObj d).setJob (j 2)).job? 1 0 = some (j 2) ∧ dOp d = 0xC1 ∧
       (tObj d).admitted (df d 16 8) (df d 24 4) = false ∧
       (∀ i < df d 24 4, let s : State := { tObj d with own := [(1, ownerWord 0 3 3)] }
        s.guardUp (s.guardOf (df d 16 8 + i)) = true ∧ s.ownerOf (df d 16 8 + i) = ownerWord (df d 32 4 / 2 ^ 26) 3 3 ∧
          df d 16 8 + i ∉ s.acc.owBad)) ∧
    (let d := dsc [(0, 0xC2), (1, 0x20), (16, 0x1FF8), (24, 1), (28, 5), (32, 1), (40, 0x10000)]
     let t := tObjAt d
     let t0 := (t.loadCtx (df d 28 4)).2
     let r := t0.cmdRead 1 (df d 40 8) (8 * df d 24 2)
     let w := r.2.2.devWrite (df d 16 8) r.2.1 (List.replicate (8 * df d 24 2) false) (t.expectTables (df d 28 4))
       { ctx := some (df d 28 4), station := r.2.2.queStation 1 }
     dOp d = 0xC2 ∧ tStarts (tObj d) 1 d = true ∧ resOk d [(16, 8), (24, 2), (28, 4), (32, 4), (40, 8)] = true ∧ df d 24 2 ≠ 0 ∧
       df d 24 2 ≤ 512 ∧ df d 16 8 % 8 = 0 ∧ df d 16 8 % 4096 + 8 * df d 24 2 ≤ 4096 ∧ t.ctxInTable (df d 28 4) = true ∧
       (t.loadCtx (df d 28 4)).1 = some 0 ∧ t0.ownerOf (df d 16 8 / 4096) = t.expectTables (df d 28 4) ∧
       df d 16 8 / 4096 < t0.usable ∧ df d 32 4 = (t.ctx (df d 28 4)).gen ∧ (t.ctx (df d 28 4)).state ≠ 0 ∧ r.1 = 0 ∧ w.1 = 0) := by
  refine ⟨?_, ?_, ?_, ?_, ?_⟩ <;> decide +kernel

/-- The image of a context record: context 6 of partition 0, its tables in frame 1. -/
def image6 : Bytes :=
  leBytes 4 0 ++ leBytes 4 6 ++ leBytes 8 0 ++ leBytes 8 0x1000 ++ leBytes 8 0x1000 ++ leBytes 8 0x20000 ++ leBytes 8 6 ++
    leBytes 8 0 ++ leBytes 8 0x30000 ++ leBytes 192 0

/-- The same block with that image at host address 0x10000. -/
def tImage (d : Desc) : State :=
  let s := tObj d
  { s.setFld (partReg 0 8) 0 21 16 with host := s.host.write 0x10000 image6 }

/-- Meets the hypotheses of `ContextsAreMadeAndEdited`. -/
theorem test_met_contexts_made :
    (let d := dsc [(0, 0xC3), (1, 0x20), (16, 6), (24, 0x10000)]
     let t := (tStart (tImage d) 1 d).2
     let r := t.cmdRead 1 (df d 24 8) 256
     let b := r.2.1
     let t2 := r.2.2
     let g := t2.loadCtx 6
     let h := g.2.ctxCheck 6
     let x := ctxImage b ((List.range (fieldAt b 3 1)).map (regionAt [])) (nextGen (t2.ctx 6).gen)
     dOp d = 0xC3 ∧ tStarts (tImage d) 1 d = true ∧ resOk d [(16, 4), (24, 8), (32, 8)] = true ∧ t.ctxInTable 6 = true ∧ r.1 = 0 ∧
       fieldAt b 3 1 = 0 ∧ fieldAt b 2 1 % 64 = 0 ∧ t2.imageOk b 6 = true ∧ t2.mapOk [] (min (fieldAt b 3 1) 64) = true ∧
       t2.configured 0 = true ∧ t2.inPartCtx 0 6 = true ∧ (t2.ctx 6).state = 0 ∧ g.1 = some 0 ∧ h.1 = 0 ∧
       h.2.bit (partReg 0 0) 1 = true ∧ h.2.pinsOf 6 < 256 ∧ (fieldAt b 1 1).testBit 0 = false ∧
       ((h.2.setCtx 6 x).refTake (some 6) (t.que 1).skirt (fieldAt b 56 8)).1.status = 0) ∧
    (let d := dsc [(0, 0xC4), (1, 0x20), (16, 5), (20, 1)]
     let s := (tObj d).setCtx 5 { (tObj d).ctx 5 with regionMap := 0x1000 }
     let t := (tStart s 1 d).2
     dOp d = 0xC4 ∧ tStarts s 1 d = true ∧ df d 16 4 = 5 ∧ df d 24 1 = 0 ∧ resOk d [(16, 4), (20, 4), (24, 1), (32, 8)] = true ∧
       t.mapOk [] (min 0 64) = true ∧ t.ctxInTable 5 = true ∧ (t.loadCtx 5).1 = some 0 ∧ df d 20 4 = ((t.loadCtx 5).2.ctx 5).gen ∧
       ((t.loadCtx 5).2.ctx 5).state = 1) ∧
    (let d := dsc [(0, 0xC4), (1, 0x20), (16, 5), (20, 1), (24, 1), (32, 0x50000)]
     let m : Bytes := leBytes 8 0x1000 ++ leBytes 8 1 ++ leBytes 1 1 ++ leBytes 15 0
     let s : State := { (tObj d).setCtx 5 { (tObj d).ctx 5 with regionMap := 0x1000 } with host := (tObj d).host.write 0x50000 m }
     let t := (tStart s 1 d).2
     let r := t.cmdRead 1 (df d 32 8) 32
     let g := r.2.2.loadCtx 5
     dOp d = 0xC4 ∧ tStarts s 1 d = true ∧ resOk d [(16, 4), (20, 4), (24, 1), (32, 8)] = true ∧ r.1 = 0 ∧
       r.2.2.mapOk r.2.1 1 = true ∧ r.2.2.ctxInTable 5 = true ∧ g.1 = some 0 ∧ df d 20 4 = (g.2.ctx 5).gen ∧ (g.2.ctx 5).state = 1 ∧
       (g.2.guardCheck ((g.2.ctx 5).regionMap / 4096) (g.2.expectTables 5) { ctx := some 5, station := g.2.queStation 1 }).1 = 0) ∧
    (let d := dsc [(0, 0xC5), (1, 0x20), (16, 5), (20, 1), (24, 15), (28, 2 ^ 31 + 7)]
     let s := (tObj d).setCtx 5 { (tObj d).ctx 5 with groups := List.replicate 16 (2 ^ 31 + 9) }
     let t := ((tObjAt d).loadCtx 5).2
     ((tObjAt d).loadCtx 5).1 = some 0 ∧ dOp d = 0xC5 ∧ tStarts (tObj d) 1 d = true ∧ df d 16 4 = 5 ∧ df d 24 1 = 15 ∧ bitsOf (df d 28 4) 30 20 = 0 ∧
       resOk d [(16, 4), (20, 4), (24, 1), (28, 4)] = true ∧ (tObjAt d).ctxInTable 5 = true ∧ df d 20 4 = (t.ctx 5).gen ∧
       (t.ctx 5).state = 1 ∧ (((t.ctx 5).groups[15]?).getD 0).testBit 31 = false ∧ tStarts s 1 d = true ∧
       (((((tStart s 1 d).2.ctx 5).groups[15]?).getD 0).testBit 31 = true ∧
         (((tStart s 1 d).2.ctx 5).groups[15]?).getD 0 % 2 ^ 20 ≠ df d 28 4 % 2 ^ 20)) := by
  refine ⟨?_, ?_, ?_, ?_⟩ <;> decide +kernel

/-- The state in which `d` starts in queue 1, the record of context 5 brought in. -/
def tOpen (s : State) (d : Desc) : State := ((tStart s 1 d).2.loadCtx 5).2

/-- Whether `d` starts in queue 1 and the record of context 5 is brought in. -/
def tOpens (s : State) (d : Desc) : Bool := tStarts s 1 d && ((tStart s 1 d).2.loadCtx 5).1 = some 0 && (tStart s 1 d).2.ctxInTable 5

/-- A command `op` on context 5 of generation 1, in state `st`, with a reference header at host address 0x30000 that holds `h`. -/
def tCtxCmd (op st : Nat) (h : Bytes) : State × Desc :=
  let d := dsc [(0, op), (1, 0x20), (16, 5), (20, 1)]
  let s := (tObj d).setCtx 5 { (tObj d).ctx 5 with state := st, refHeader := 0x30000 }
  ({ s with host := s.host.write 0x30000 h }, d)

/-- REF of a header that is ready to be released. -/
def refDead : Bytes := leBytes 8 (3 * 2 ^ 32)

/-- A REF_ACK of the header at host address 0x40000, which holds `h`. -/
def tAck (h : Bytes) : State × Desc :=
  let d := dsc [(0, 0xC9), (1, 0x20), (16, 0x40000)]
  let s := (tCtxCmd 0xC9 6 refDead).1.setQue 1 { ((tQue true d).que 1) with prog := [d] }
  ({ s.setQue 65535 { state := 5, gen := 2 } with host := s.host.write 0x40000 h }, d)

/-- Meets the hypotheses of `ContextsEndAndAreQueried`. -/
theorem test_met_contexts_end :
    (let p := tCtxCmd 0xC6 4 []
     let t := tOpen p.1 p.2
     dOp p.2 = 0xC6 ∧ tOpens p.1 p.2 = true ∧ df p.2 16 4 = 5 ∧ resOk p.2 [(16, 4), (20, 4)] = true ∧ t.ctxInTable 5 = true ∧
       df p.2 20 4 = (t.ctx 5).gen ∧ (t.ctx 5).state = 4) ∧
    (∀ st ∈ [1, 2, 3], let p := tCtxCmd 0xC6 st []
     tOpens p.1 p.2 = true ∧ ((tOpen p.1 p.2).ctx 5).state = st ∧ df p.2 20 4 = ((tOpen p.1 p.2).ctx 5).gen) ∧
    (let j : CtlJob := { queue := 1, ri := 0, desc := dsc [(0, 0xC6)], phase := 3, aux := 5 }
     let s := (tCtxCmd 0xC6 5 []).1.setJob j
     s.revokeSettled 5 = true ∧ (s.ctxDead 5).2.qs.jobs.find? (fun j => dOp j.desc = 0xC6 && j.aux = 5) = some j) ∧
    (let p := tCtxCmd 0xC7 6 refDead
     let t := tOpen p.1 p.2
     dOp p.2 = 0xC7 ∧ tOpens p.1 p.2 = true ∧ df p.2 20 4 = (t.ctx 5).gen ∧ (t.ctx 5).state = 6 ∧
       (t.refRead (5 % 4) (t.ctx 5).refHeader).status = 0 ∧ refBlocked (t.refRead (5 % 4) (t.ctx 5).refHeader).ref = none) ∧
    (let p := tCtxCmd 0xC7 6 (leBytes 8 (2 ^ 32))
     let t := tOpen p.1 p.2
     tOpens p.1 p.2 = true ∧ (t.refRead (5 % 4) (t.ctx 5).refHeader).status = 0 ∧
       refBlocked (t.refRead (5 % 4) (t.ctx 5).refHeader).ref = some 0x29) ∧
    (∀ st ∈ [1, 2, 5, 6], let p := tCtxCmd 0xC8 st []
     let t := tOpen p.1 p.2
     dOp p.2 = 0xC8 ∧ tOpens p.1 p.2 = true ∧ resOk p.2 [(16, 4), (20, 4), (24, 8)] = true ∧ df p.2 24 8 % 8 = 0 ∧
       df p.2 20 4 = (t.ctx 5).gen ∧ (t.ctx 5).state = st) ∧
    (let p := tAck (refDead ++ leBytes 4 1 ++ leBytes 4 5 ++ leBytes 4 1)
     let t := (tStart p.1 1 p.2).2
     let r := t.cmdRead 1 (df p.2 16 8) 32
     let u := (r.2.2.loadCtx 5).2
     dOp p.2 = 0xC9 ∧ tStarts p.1 1 p.2 = true ∧ resOk p.2 [(16, 8)] = true ∧ df p.2 16 8 % 64 = 0 ∧ r.1 = 0 ∧
       refBlocked (fieldAt r.2.1 0 8) = none ∧ fieldAt r.2.1 8 1 = 1 ∧ fieldAt r.2.1 12 4 = 5 ∧ r.2.2.ctxInTable 5 = true ∧ (r.2.2.loadCtx 5).1 = some 0 ∧
       (u.ctx 5).gen = fieldAt r.2.1 16 4 ∧ (u.ctx 5).state = 6 ∧
       (u.refRead (5 % 4) (u.ctx 5).refHeader).status = 0 ∧
       refBlocked (u.refRead (5 % 4) (u.ctx 5).refHeader).ref = none) ∧
    (let p := tAck (refDead ++ leBytes 4 2 ++ leBytes 4 65535 ++ leBytes 4 2)
     let r := (tStart p.1 1 p.2).2.cmdRead 1 (df p.2 16 8) 32
     tStarts p.1 1 p.2 = true ∧ r.1 = 0 ∧ refBlocked (fieldAt r.2.1 0 8) = none ∧ fieldAt r.2.1 8 1 = 2 ∧ fieldAt r.2.1 12 4 = 65535 ∧
       (r.2.2.que 65535).gen = fieldAt r.2.1 16 4 ∧ (r.2.2.que 65535).state = 5) ∧
    (∀ k ∈ [3, 5], let p := tAck (refDead ++ leBytes 4 k)
     let r := (tStart p.1 1 p.2).2.cmdRead 1 (df p.2 16 8) 32
     tStarts p.1 1 p.2 = true ∧ r.1 = 0 ∧ refBlocked (fieldAt r.2.1 0 8) = none ∧ fieldAt r.2.1 8 1 = k) ∧
    (let p := tCtxCmd 0xCA 1 []
     let t := tOpen p.1 p.2
     dOp p.2 = 0xCA ∧ tOpens p.1 p.2 = true ∧ resOk p.2 [(16, 4), (20, 4), (24, 8)] = true ∧ t.ctxInTable 5 = true ∧
       df p.2 20 4 = (t.ctx 5).gen ∧ (t.ctx 5).state ≤ 6 ∧ (t.ctx 5).mode.testBit 2 = false ∧
       ((t.rangeErr 1 (df p.2 24 8) 256).ctlWrite (t.que 1).skirt (df p.2 24 8) (t.ctxBytes 5) false).1 = 0) := by
  refine ⟨?_, ?_, ?_, ?_, ?_, ?_, ?_, ?_, ?_, ?_⟩ <;> decide +kernel

/-- Stirrup 0 of partition 0 with its tile port enabled, and context 5 in the partition's range. -/
def tTile : State :=
  ((((tQue false 0).setBit (pageOf 0) 15 true).setBit (partReg 0 0x14) 0 true).setFld (partReg 0 8) 0 21 16)

/-- An access in flight. -/
def acc (src : AccSrc) (op : AccOp) (kind : Nat) (ph : AccPh) (status : Nat := 0) (retired : Bool := false) (id : Nat := 4) : Access :=
  { id := id, src := src, station := 0, ctx := 5, gen := 1, va := 0, len := 8, write := false, op := op, ph := ph, kind := kind,
    status := status, retired := retired, since := some 0 }

/-- The block with these accesses in flight. -/
def tAcc (l : List Access) : State := { tTile with acc := { list := l }, ticks := 100000000 }

/-- Meets the hypotheses of `TileAccesses`. -/
theorem test_met_tile_accesses :
    (let t := tTile.wordsMet (tTile.xlatWords 0 5)
     t.tileRefusal 0 5 = none ∧ t.tileOpen 0 5 = true ∧ ((List.range 32).find? fun e => (t.partsOf 0 e).isEmpty) = some 0) ∧
    (8 : Nat) ≤ 4096 - (BitVec.toNat (4088 : W64)) % 4096 ∧ 4096 - (BitVec.toNat (4089 : W64)) % 4096 < 8 ∧
    (BitVec.toNat (4088 : W64)) % 8 = 0 ∧
    (let s := tTile.setFld (partReg 0 8) 0 21 5
     (s.wordsMet (s.xlatWords 0 5)).tileRefusal 0 5 = some 4) ∧
    (let t := tTile.wordsMet (tTile.xlatWords 0 1048575)
     2 ^ t.odNum 0x2000 0x21 ≤ 1048575 ∧ t.live 0 = true ∧ t.rcv.reset = none ∧ t.tileRefusal 0 1048575 = some 1) ∧
    (BitVec.toNat (4089 : W64)) % 8 ≠ 0 := by decide +kernel

/-- Meets the hypotheses of `TileAccesses` (answers). -/
theorem test_met_tile_answers :
    (let a := acc (.tile 0 9 0 0) .load 2 .done
     (tAcc [a]).acc? 4 = some a ∧ a.src = .tile 0 9 0 0 ∧ a.ph = .done) ∧
    (let a := acc (.tile 0 9 1 3) .load 1 .ready
     (tAcc [a]).acc? 4 = some a ∧ a.ph = .ready ∧ a.kind = 1 ∧ a.op = .load ∧ a.retired = false) ∧
    (let a := acc (.tile 0 9 0 0) .load 2 .ready
     (tAcc [a]).acc? 4 = some a ∧ a.src = .tile 0 9 0 0 ∧ a.ph = .ready ∧ a.kind = 2 ∧ a.retired = false) ∧
    (let a := acc (.tile 0 9 1 3) .load 1 .ready 0 true
     (tAcc [a]).acc? 4 = some a ∧ a.ph = .ready ∧ a.retired = true) := by decide +kernel

/-- Meets the hypotheses of `GuardsServeAccesses`. -/
theorem test_met_guards :
    (let a := acc (.tile 0 9 0 0) .load 2 .ready
     (tAcc [a]).acc? 4 = some a ∧ a.kind = 2 ∧ a.ph = .ready ∧ a.retired = false ∧ a.storePart = false ∧
       (tAcc [a]).firstOnPath a = true) ∧
    (let a := acc (.chan 0 15) .load 2 .ready
     (tAcc [a]).acc? 4 = some a ∧ a.kind = 2 ∧ a.ph = .ready ∧ a.retired = false ∧ (tAcc [a]).firstOnPath a = true) ∧
    (let a := acc (.inbound 7) .load 2 .ready
     let i : Inbound := { k := 7, cn := 0, node := 7, kind := .read, win := 0, addr := 0, len := 8,
                          w := { base := 0, pages := 1, ctx := 5, gen := 1, source := 7, any := false, rights := 1 } }
     let s : State := { tAcc [a] with peer := { inb := [i] } }
     s.acc? 4 = some a ∧ s.firstOnPath a = true ∧ (s.wordsMet (s.guardWords (a.pa / 4096))).inb? 7 = some i) ∧
    (let a := acc (.tile 0 9 1 31) (.store [] []) 2 .ready
     let s := tAcc [a, acc (.tile 0 9 2 31) (.store [] []) 1 .ready 0 false 5]
     s.acc? 4 = some a ∧ a.kind = 2 ∧ a.ph = .ready ∧ a.retired = false ∧ a.storePart = true ∧ s.firstOnPath a = true ∧
       (s.wordsMet (s.guardWords (a.pa / 4096))).bothTranslated a = true) := by
  refine ⟨?_, ?_, ?_, ?_⟩ <;> decide +kernel

/-- The two parts of a straddling store in reassembly entry 31 of stirrup 79, checked with these statuses. -/
def parts (x y : Nat) : List Access :=
  [acc (.tile 79 9 1 31) (.store [] []) 2 .checked x, acc (.tile 79 9 2 31) (.store [] []) 2 .checked y false 5]

/-- Meets the hypotheses of `GuardsServeAccesses` (straddling stores). -/
theorem test_met_straddles :
    ((tAcc (parts 0 0)).partsOf 79 31 = parts 0 0 ∧ (∀ a ∈ parts 0 0, a.storePart = true) ∧ (∀ a ∈ parts 0 0, a.ph = .checked) ∧
      (∀ a ∈ parts 0 0, a.status = 0)) ∧
    ((tAcc (parts 0 4)).partsOf 79 31 = parts 0 4 ∧ (∀ a ∈ parts 0 4, a.storePart = true) ∧ (∀ a ∈ parts 0 4, a.ph = .checked) ∧
      ((parts 0 4).any fun a => a.status ≠ 0) = true) ∧
    (let a := acc (.tile 0 9 1 3) (.store [1] [false]) 2 .commit
     let s := tGuard (tAcc [a]) 0
     s.acc? 4 = some a ∧ a.op = .store [1] [false] ∧ a.ph = .commit ∧ a.retired = false ∧ s.guardUp (s.guardOf (a.pa / 4096)) = true) ∧
    (let a := acc (.tile 0 9 1 3) (.store [1] [false]) 2 .abort
     (tAcc [a]).acc? 4 = some a ∧ a.ph = .abort) := by refine ⟨?_, ?_, ?_, ?_⟩ <;> decide +kernel

/-- A walk of context 5. -/
def tWalk (host : Nat) : Walk :=
  { id := 6, skirt := 0, station := 0, ctx := 5, page := 0, write := false, active := true, host := host }

/-- Meets the hypotheses of `WalksAndStamps`. -/
theorem test_met_walks :
    (let s : State := { tTile with x := { walks := [tWalk 0] } }
     s.walk? 6 = some (tWalk 0) ∧ (tWalk 0).active = true ∧ (tWalk 0).host = 0) ∧
    (let s : State := { tTile with x := { walks := [tWalk 2] }, ticks := 100000000 }
     s.walk? 6 = some (tWalk 2) ∧ (tWalk 2).host = 2 ∧ s.odNum 0x2000 0x51 ≤ s.tk (80 + (tWalk 2).via) - (tWalk 2).sent) := by decide +kernel

/-- Meets the hypotheses of `WalksAndStamps` (stamps). -/
theorem test_met_stamps :
    (let d := dsc [(0, 2)]
     let s := (((tData d).odSet 0x5000 0x10 0x100000).odSet 0x5000 0x15 1).setCtx 5 { state := 1, gen := 1, mode := 1 }
     let t := s.setQue 1 { s.que 1 with tailSeen := 2, prog := [d, d] }
     t.unitEnabled .stamp = true ∧ (t.que 1).state ≠ 0 ∧ (t.que 1).priv = false ∧ (t.ctx (t.que 1).ctx).state ≠ 0 ∧ (t.ctx (t.que 1).ctx).state < 5 ∧
       (t.ctx (t.que 1).ctx).mode.testBit 0 = true ∧ stampable (dOp d) = true ∧ dFlag d 4 = false ∧
       wdiff (t.que 1).tailSeen 1 ≠ 0 ∧ wdiff (t.que 1).tailSeen 1 < 2 ^ 31 ∧ wdiff 1 (t.que 1).next < 2 ^ 31 ∧ t.slotFor 1 1 = none ∧
       1 ∉ (t.que 1).fly ∧ t.odNum 0x5000 0x15 ≠ 0 ∧ t.odNum 0x5000 (0x10 + (t.que 1).skirt) ≠ 0 ∧
       wdiff 1 (t.que 1).next ≤ t.odNum 0x5000 0x15 ∧ 0 < 2 ^ t.odNum 0x5000 0x14 ∧
       sFind t.x.slots ((t.que 1).skirt * 4096 + 0) = none ∧
       (∀ p ∈ footprint d, (t.ctx (t.que 1).ctx).regionOf p.1 = none)) ∧
    (let s : State := { tTile with x := { slots := [(3 * 4096 + 4095, { state := 1 })] } }
     sFind s.x.slots (3 * 4096 + 4095) = some ({ state := 1 } : SideSlot)) := by refine ⟨?_, ?_⟩ <;> decide +kernel

/-- Invalidation slot 3 of pommel 3 with a request for `n` pages of context 5 from `va`. -/
def tInv (n va : Nat) : State :=
  let o := pmReg 3 (0x600 + 0x20 * 3)
  ((((tTile.setFld o 0 20 5).wr (o + 0x10) (BitVec.ofNat 32 n)).wr64 (o + 8) va).wr (o + 4) 1)

/-- Meets the hypotheses of `Invalidations`. -/
theorem test_met_invalidations :
    (let s := tInv 262144 0x1000
     let o := pmReg 3 (0x600 + 0x20 * 3)
     s.live (80 + 3) = true ∧ s.fld o 0 20 = 5 ∧ (s.rd (o + 0x10)).toNat = 262144 ∧ s.rd64 (o + 8) = 0x1000 ∧
       s.slotBusy (o + 0x18) = false ∧ s.ctxInTable 5 = true ∧ canonical 0x1000 = true ∧ 0x1000 % 4096 = 0 ∧
       Nat.testBit 0x1000 56 = Nat.testBit (0x1000 + 262144 * 4096 - 1) 56 ∧
       canonical ((0x1000 + 262144 * 4096 - 1) % 2 ^ 64) = true ∧ (s.rd (o + 4)).toNat = (s.ctx 5).gen ∧ (s.ctx 5).state ≠ 0 ∧
       (s.setBit (o + 0x18) 0 true).slotBusy (o + 0x18) = true) ∧
    (let v : Inv := { id := 2, src := .slot 3 3, ctx := 5, first := 0, pages := 0, running := true }
     let s : State := { tTile with x := { invs := [v] } }
     s.x.invs.find? (fun v => v.id = 2) = some v ∧ s.invSettled v = true) := by refine ⟨?_, ?_⟩ <;> decide +kernel

/-- A fault entry of context 5 at pommel 3. -/
def entry (host : Bool) (pri : Option Nat) : FltEntry :=
  { pm := 3, idx := 127, tag := 9, ctx := 5, gen := 1, page := 0, host := host, write := false, since := 0, pri := pri }

/-- Fault response slot 3 of pommel 3 with a response to context 5: OP, ALL and a tag. -/
def tFlt (op : Nat) (all : Bool) (st : Nat) : State :=
  let o := pmReg 3 (0x700 + 0x20 * 3)
  let s := ((((tTile.setFld o 0 20 5).wr (o + 4) 1).wr (o + 8) 9).setFld (o + 0xC) 0 2 op).setBit (o + 0xC) 2 all
  { s.setCtx 5 { s.ctx 5 with state := st } with flt := { entries := [entry false none] } }

/-- Meets the hypotheses of `FaultsAndPageRequests`. -/
theorem test_met_faults :
    (let s : State := { tTile.setCfg 0 cfgPri 1 with flt := { entries := [entry true (some 127)] } }
     s.flt.entries.find? (fun e => e.pri = some (511 % 128) && e.pm = 511 / 128) = some (entry true (some 127)) ∧ (s.ctx 5).pasid = 0 ∧
       (s.cfg 0 cfgPri).getLsbD 0 = true) ∧
    tTile.flt.entries.find? (fun e => e.pri = some (511 % 128) && e.pm = 511 / 128) = none ∧
    (∀ p ∈ [(0, false, 1), (1, false, 1), (1, true, 1), (2, false, 2)], let s := tFlt p.1 p.2.1 p.2.2
     let o := pmReg 3 (0x700 + 0x20 * 3)
     let u := s.wordsMet (faultWords 3)
     u.live (80 + 3) = true ∧ u.fltOp 3 3 = s.fltOp 3 3 ∧ u.fld o 0 20 = 5 ∧ u.slotBusy (o + 0x14) = false ∧ u.ctxInTable 5 = true ∧
       (u.rd (o + 4)).toNat = (u.ctx 5).gen ∧ u.tagged 5 (u.rd (o + 8)).toNat = some (entry false none) ∧
       s.fltOp 3 3 = (p.1, p.2.1) ∧ (u.ctx 5).state = p.2.2 ∧ u.ringBusy 5 = false) ∧
    (let s : State := { (tFlt 0 false 1).odSet 0x5000 0x26 1000 with ticks := 1000 }
     s.flt.entries.find? (fun e => e.pm = 3 && e.idx = 127) = some (entry false none) ∧ s.odNum 0x5000 0x26 ≠ 0 ∧
       s.odNum 0x5000 0x26 ≤ s.tk (80 + 3) - (entry false none).since ∧ ((entry false none).host = true → (entry false none).pri.isSome = true)) ∧
    1048575 ∈ ({ tTile with cw := { moved := [1048575] } } : State).cw.moved ∧
    (let a := acc (.tile 0 9 0 0) .load 0 .held
     (tAcc [a]).acc? 4 = some a ∧ a.since = some 0 ∧ a.ph = .held ∧ (tAcc [a]).odNum 0x5000 0x25 ≤ (tAcc [a]).tk a.station - 0 ∧
       ((tAcc [a]).ctx a.ctx).state = 1) := by refine ⟨?_, ?_, ?_, ?_, ?_, ?_⟩ <;> decide +kernel

/-- A READY block whose peer port 0 is up, with peers enabled, this conduit to node 7 and the conduit table in frame 0. -/
def tPeer (c : Conduit) : State :=
  { ((tGuard tTile 0).setFld (cnReg 0 0x4000) 0 2 2).setBit 0x0C 1 true |>.setConduit 7 c with own := [(0, ownerWord 0 3 0x30)] }

/-- A sequenced packet sent and not acknowledged. -/
def txPkt : TxPkt := { type := 1, pkt := packet, lport := 0, rport := 0 }

/-- What stands when `packet` has been counted at port 0, and when its conduit has been brought in. -/
def tPkt (c : Conduit) : State :=
  let m := ((tPeer c).wordsMet (· = .conduit 7)).inc (cnReg 0 0x4030) packet.fixed
  m.inc64sat (cnReg 0 0x4028) (m.wireBytes packet)

/-- And its conduit has been brought in. -/
def tPktIn (c : Conduit) : State := ((tPkt c).condLoad 7).2

/-- Meets the hypotheses of `PeerPacketsAndTimers`. -/
theorem test_met_peer_packets :
    (∀ p ∈ [(1, 5), (2, 5), (1, 6)], let c : Conduit := { state := p.1, inc := some p.2 }
     (tPkt c).portUp 0 = true ∧ packet.frame = .good ∧ (tPkt c).peerEn = true ∧ packet.version = 1 ∧ packet.dstNode = (tPkt c).nodeId ∧
       packet.srcNode < 2 ^ 14 ∧ packet.sealOk = true ∧ packet.secure = false ∧ ((tPkt c).condLoad packet.srcNode).1 = none ∧
       ((tPktIn c).conduit packet.srcNode).state = p.1 ∧
       ((tPktIn c).conduit packet.srcNode).inc = some p.2 ∧ (some p.2 = some packet.incarnation ↔ p.2 = 5)) ∧
    (let s := (tPeer {}).setBit 0x0C 1 false
     (s.wordsMet (· = .conduit packet.srcNode)).portUp 0 = true ∧ s.peerEn = false) ∧
    ({ packet with frame := .uncorrected } : Packet).frame = .uncorrected ∧ ({ packet with frame := .badFcs } : Packet).frame = .badFcs := by
  refine ⟨?_, ?_, ?_, ?_⟩ <;> decide +kernel

/-- Meets the hypotheses of `PeerPacketsAndTimers` (what a conduit sends). -/
theorem test_met_peer_timers :
    (let s := tPeer { state := 2, expect := 1, fenced := [(0, 1, packet)], busy := [0] }
     (s.conduit 7).fenced.find? (fun e => e.2.2.psn = 0) = some (0, 1, packet) ∧ (s.conduit 7).ripe 0 = true) ∧
    (let a := acc (.tile 0 9 0 0) .load 3 .ready
     (tAcc [a]).acc? 4 = some a ∧ (tAcc [a]).released a = true) ∧
    (∀ n ∈ [0, tUp.odNum 0x6000 0x11 + 1], let s : State := { tPeer { state := 1, tries := n } with ticks := 100000000 }
     (s.conduit 7).state = 1 ∧ s.odNum 0x6000 0x10 ≤ s.condTk 7 - (s.conduit 7).probeAt ∧ (s.conduit 7).tries = n) ∧
    (let s : State := { tPeer { state := 2, unacked := [txPkt] } with ticks := 100000000 }
     (s.conduit 7).unacked.find? (fun u => u.pkt.psn = 0) = some txPkt ∧ (s.conduit 7).state = 2 ∧ txPkt.sacked = false ∧
       s.odNum 0x6000 0x10 ≤ s.condTk 7 - txPkt.sent) ∧
    ((tPeer { excl := [{ lport := 15, rport := 15, since := 0 }] }).conduit 7).excl ≠ [] ∧
    (let s : State := { tPeer { owed := 1, owedAt := 0 } with ticks := 2 }
     (s.conduit 7).owed ≠ 0 ∧ 2 ≤ s.condTk 7 - (s.conduit 7).owedAt) ∧
    (let q : RemReq := { id := 1, node := 7, acc := 4, src := .tile 0 9 0 0, kind := .load, ctx := 5, va := 0, pa := 0, len := 8 }
     let s : State := { tTile with peer := { reqs := [q] }, ticks := 100000000 }
     s.peer.reqs.find? (fun q => q.acc = 4 && !q.acked) = some q ∧ s.odNum 0x6000 0x12 ≤ s.condTk q.node - q.since) := by
  refine ⟨?_, ?_, ?_, ?_, ?_, ?_, ?_⟩ <;> decide +kernel

/-- Peer object slot of cantle 0 with operation `op` on object 4095, its entry holding `b`. -/
def tObjSlot (op : Nat) (b : Bytes) : State :=
  let s := (((tPeer {}).setFld (cnReg 0 0x4100) 0 12 4095).setFld (cnReg 0 0x4104) 0 2 op).setBit (partReg 0 0) 3 true
  let s := (List.range 16).foldl (fun s i => s.wr (cnReg 0 (0x4140 + 4 * i)) (BitVec.ofNat 32 (fieldAt b (4 * i) 4))) (tLive s 99)
  [63, 127].foldl (fun s f => { tGuard s f with own := sIns s.own f (ownerWord 0 3 0x31) }) s

/-- A window of one page of context 5, generation 1, for any sender. -/
def winBytes : Bytes := leBytes 8 0 ++ leBytes 8 1 ++ leBytes 4 5 ++ leBytes 4 1 ++ leBytes 2 (2 ^ 14) ++ leBytes 1 3 ++ leBytes 37 0

/-- A queue pair with a receive ring in window `w`. -/
def qpEntry (w : Nat) : Bytes := leBytes 36 0 ++ leBytes 2 w ++ leBytes 1 4 ++ leBytes 25 0

/-- Meets the hypotheses of `PeerPortsAndObjects`. -/
theorem test_met_peer_objects :
    (tPeer {}).fld (cnReg 0 0x4000) 0 2 = 2 ∧
    (let s := (tLive tTile 99).odSet 0x2000 0x91 (2 ^ 19)
     s.live (84 + 15) = true ∧ s.fld (cnReg 15 0x4000) 0 2 = 0 ∧ (s.odNum 0x2000 0x91).testBit (4 + 15) = true) ∧
    (tPeer {}).portUp 0 = true ∧
    (let s := tObjSlot 0 winBytes
     let b := s.objEntry 0
     s.objSlot 0 = true ∧ s.slotBusy (cnReg 0 0x410C) = false ∧ s.fld (cnReg 0 0x4100) 0 12 = 4095 ∧ s.fld (cnReg 0 0x4104) 0 2 = 0 ∧
       winShape b = true ∧ s.ctxInTable (winOf b).ctx = true ∧ s.peer.wins = [] ∧
       s.bit (partReg (s.ctx (winOf b).ctx).part 0) 3 = true ∧ (winOf b).gen = (s.ctx (winOf b).ctx).gen ∧
       (s.ctx (winOf b).ctx).state = 1 ∧ sFind s.peer.wins 4095 = none ∧
       ((s.setFld (cnReg 0 0x4108) 1 1 0).tableWrite 0 (4095 * 64) (winEntry b true)).1 = 0) ∧
    (let s : State := { tObjSlot 1 [] with peer := { wins := [(4095, winOf winBytes)] } }
     s.fld (cnReg 0 0x4104) 0 2 = 1 ∧ (sFind s.peer.wins 4095).isSome = true ∧
       ((s.setFld (cnReg 0 0x4108) 1 1 0).tableWrite 0 (4095 * 64 + 24) (((winEntry (s.objEntry 0) false).drop 24).take 2)).1 = 0) ∧
    (let s := tObjSlot 2 (qpEntry 0xFFFF)
     let b := s.objEntry 0
     s.fld (cnReg 0 0x4104) 0 2 = 2 ∧ qpShape b = true ∧ s.live (84 + 4095 % 16) = true ∧ sFind s.peer.wins (fieldAt b 36 2) = none ∧
       fieldAt b 36 2 = 0xFFFF ∧ sFind s.peer.qps 4095 = none ∧
       ((s.setFld (cnReg 0 0x4108) 1 1 0).tableWrite 0 (0x40000 + 4095 * 64) b).1 = 0) ∧
    (let s : State := { tObjSlot 2 (qpEntry 4) with peer := { wins := [(4, winOf winBytes)] } }
     let b := s.objEntry 0
     qpShape b = true ∧ sFind s.peer.wins (fieldAt b 36 2) = some (winOf winBytes) ∧
       s.bit (partReg (s.ctx (winOf winBytes).ctx).part 0) 3 = true ∧ (winOf winBytes).gen = (s.ctx (winOf winBytes).ctx).gen ∧
       (s.ctx (winOf winBytes).ctx).state = 1) ∧
    (let s := tObjSlot 3 []
     s.fld (cnReg 0 0x4104) 0 2 = 3 ∧ sFind s.peer.qps 4095 = none ∧ sFind (s.setQp 4095 { entry := [], epsn := 0 }).peer.qps 4095 =
       some ({ entry := [], epsn := 0 } : Qp)) ∧
    (let s : State := { tTile with peer := { clears := [(15, 4095)] } }
     s.peer.clears.find? (fun e => e.1 = 15 && (4096 ≤ e.2 : Bool) = false) = some (15, 4095) ∧ s.peer.inb = []) := by
  refine ⟨?_, ?_, ?_, ?_, ?_, ?_, ?_, ?_, ?_⟩ <;> decide +kernel

/-- A RoCEv2 packet to queue pair 4080, at its port and address. -/
def rocePkt (pos : RocePos) (len : Nat) (b : Bytes) : RocePkt :=
  { qp := 4080, psn := 9, pos := pos, rkey := 4, va := 0, len := len, payload := b, icrcOk := true, supported := true, ecn := false,
    cn := 0, ip := (tPeer {}).qpIp 4080 { entry := qpEntry 4, epsn := 9 } }

/-- The block with queue pair 4080, its receive ring and its data in window 4. -/
def tRoce (x : Qp) : State :=
  let w : Win := { winOf winBytes with rights := 0x23 }
  { tPeer {} with peer := { wins := [(4, w)], qps := [(4080, x)] } }

/-- That queue pair, expecting PSN 9. -/
def qp9 : Qp := { entry := qpEntry 4, epsn := 9 }

/-- What stands when a packet has been counted at its port. -/
def tRoceIn (x : Qp) (p : RocePkt) : State := (tRoce x).inc (cnReg p.cn 0x4030) p.fixed

/-- Meets the hypotheses of `RocePackets`. -/
theorem test_met_roce :
    (let p := rocePkt .only 2 [1, 2]
     let s := tRoceIn qp9 p
     (tRoce qp9).portUp p.cn = true ∧ p.cn = p.qp % 16 ∧ p.psn < 2 ^ 24 ∧ p.frame = .good ∧ s.peerEn = true ∧ p.icrcOk = true ∧
       sFind s.peer.qps 4080 = some qp9 ∧ qp9.clearing = false ∧ p.ip = s.qpIp p.qp qp9 ∧ p.ecn = false ∧ p.supported = true ∧
       p.psn = qp9.epsn) ∧
    (let p := rocePkt .only 2 [1, 2]
     let r := ((tRoceIn qp9 p).roceIn p qp9 16).roceWin p.qp p.rkey p.va.toNat p.len 1
     p.pos = .only ∧ r.1 = 0 ∧ (r.2.map Prod.fst) = some 4 ∧ p.payload.length ≤ qp9.mtu ∧ p.payload.length = p.len ∧ p.payload.length ≠ 0) ∧
    (let p := rocePkt .last 0 [1]
     let x : Qp := { qp9 with cursor := 8, togo := 1, win := 4 }
     let r := ((tRoceIn x p).roceIn p x 0).roceWin p.qp (BitVec.ofNat 32 x.win) x.cursor 1 1
     p.pos = .last ∧ r.1 = 0 ∧ (r.2.map Prod.fst) = some 4 ∧ p.payload.length = x.togo ∧ x.togo ≠ 0) ∧
    (let p := rocePkt .only 0 []
     (((tRoceIn qp9 p).roceIn p qp9 16).roceWin p.qp p.rkey p.va.toNat 0 1).1 = 0 ∧
       p.payload.length = p.len ∧ p.payload.length = 0) ∧
    (let p := rocePkt .only 4096 []
     (((tRoceIn qp9 p).roceIn p qp9 16).roceWin p.qp p.rkey p.va.toNat p.len 0).1 = 0 ∧ p.len ≠ 0) ∧
    (∀ n ∈ [0, 4086], let p := rocePkt (if n = 0 then .first else .last) 0 [1, 2]
     let x : Qp := { qp9 with inMsg := n }
     let t := (tRoceIn x p).roceIn p x 0
     let w : Win := { winOf winBytes with rights := 0x23 }
     sFind t.peer.wins (fieldAt x.entry 36 2) = some w ∧ w.admits true p.qp = true ∧
       w.holds (slotVa x w x.delivered) 4096 = true ∧ t.winCheck w (w.rights.testBit 1) none = 0 ∧ p.payload.length ≤ x.mtu ∧
       x.inMsg + p.payload.length ≤ 4088 ∧ ((p.pos = .first ∨ p.pos = .only) ↔ x.inMsg = 0) ∧ t.peer.inb = []) := by
  refine ⟨?_, ?_, ?_, ?_, ?_, ?_⟩ <;> decide +kernel

/-- Residency slot 3 of pommel 1 with a request `op` for a group of context 5 in a migratable region, ENGINE on. -/
def tRes (op : Nat) : State :=
  let o := pmReg 1 (0x1000 + 0x40 * 3)
  let g : Region := { base := 0, pages := 128, kind := 4, attr := 2 }
  let s := (tTile.setCtx 5 { tTile.ctx 5 with regions := [g], mode := 2, ptRoot := 0x1000 }).odSet 0x5000 0x31 0x100000
  let s : State := { tGuard s 256 with own := [(256, ownerWord 0 3 0x20)] }
  (((((s.setFld o 0 20 5).wr (o + 4) 1).wr (o + 0x10) 64).setFld (o + 0x14) 0 3 op))

/-- Meets the hypotheses of `Residency`. -/
theorem test_met_residency_requests :
    (∀ op ∈ [0, 1, 2, 3, 4, 5], let s := tRes op
     let o := pmReg 1 (0x1000 + 0x40 * 3)
     let t := s.setFld (o + 0x20) 1 1 0
     s.live (80 + 1) = true ∧ s.slotBusy (o + 0x24) = false ∧ s.fld o 0 20 = 5 ∧ (s.rd (o + 0x10)).toNat = 64 ∧
       s.fld (o + 0x14) 0 3 = op ∧ t.resShape op 5 (s.rd64 (o + 8)) 64 (s.rd64 (o + 0x18)) = true ∧ (s.rd (o + 4)).toNat = (t.ctx 5).gen ∧
       (t.ctx 5).state = 1 ∧ t.resOn 5 = true ∧ t.poolsAt (t.homeOf 5) + 64 ≤ 64 * t.groupRoom) ∧
    (let s : State := { (List.range 128).foldl (fun s g => s.setBit (grdReg g 4) 0 true) (tRes 0) with own := ownRun [(256, ownerWord 0 3 0x20)] 0 2 (ownerWord 0 1 5) }
     (s.giveRun 5 0 2).1 = 0) := by refine ⟨?_, ?_⟩ <;> decide +kernel

/-- A page of context 5 in the migration table of pommel 1. -/
def mig5 (act : MigAct) (narrow : Bool) : Mig := { pm := 1, ctx := 5, page := 1, act := act, stage := 4, narrow := narrow, host := 32 }

/-- Pages of context 5 mapped through one table in frame 1, page 1 in frame 0, with its group's formats and the entry `m`. -/
def tMig (m : Mig) : State :=
  let s := tGuard (tGuard ((tRes 0).odSet 0x5000 0x3C 1) 0) 1
  { s with dev := s.dev.write 0x1000 (leBytes 8 0x1001 ++ leBytes 8 (2 ^ 62 + 2 ^ 61 + 1)), own := [(0, ownerWord 0 1 5), (1, ownerWord 0 3 2), (256, ownerWord 0 3 0x20)],
           res := { groups := [(groupKey 5 1, { fmt := 1, nfmt := 2, narrow := true })], migs := [(1 * 65536 + 255, m)] } }

/-- The block with a sample of page 127 of context 5, which a host access may have timed. -/
def tSample (host : Option Nat) : State :=
  { tRes 0 with res := { samples := [{ pm := 1, ctx := 5, page := 127, host := host }] } }

/-- Meets the hypotheses of `Residency` (samples and intervals). -/
theorem test_met_samples :
    (∀ h ∈ [none, some 7], let s := tSample h
     let v : State := { s with res := { s.res with samples := s.res.samples.erase { pm := 1, ctx := 5, page := 127, host := h } } }
     s.homeOf 5 = 1 ∧ (s.res.samples.find? fun y => y.pm = s.homeOf 5) = some { pm := 1, ctx := 5, page := 127, host := h } ∧
       ((s.ctx 5).regionOf 127).map (·.kind) = some 4 ∧ (s.ctx 5).mode.testBit 1 = true ∧ s.resOn 5 = true ∧ 1 ≤ (s.ctx 5).state ∧
       (s.ctx 5).state ≤ 4 ∧ (v.groupMake 5 127).1 = true ∧
       ((v.setResCtx 5 { v.resCtx 5 with mNow := (7, 1) }).groupMake 5 127).1 = true) ∧
    tUp.odNum 0x5000 (0x30 + 3) = 0 ∧ (tLate tUp).timerDue .residency 3 (80 + 3) ((tLate tUp).odNum 0x5000 0x36) = true := by
  refine ⟨?_, ?_, ?_⟩ <;> decide +kernel

/-- Entry 255 of pommel 1's migration table, as a request meets it. -/
def tMigAt (act : MigAct) (narrow : Bool) : State := (tMig (mig5 act narrow)).wordsMet (migWords 1)

/-- Meets the hypotheses of `Residency` (copies, writebacks and snoops). -/
theorem test_met_residency_work :
    (sFind (tMigAt .promote false).res.migs (1 * 65536 + 255) = some (mig5 .promote false) ∧
      (∀ e ∈ (tMigAt .promote false).res.migs, e.2.stage = 4)) ∧
    (∀ act ∈ [MigAct.evict, .flush], sFind (tMigAt act false).res.migs (1 * 65536 + 255) = some (mig5 act false) ∧
      ((tMigAt act false).writeback (mig5 act false) .ok).1 = .full) ∧
    sFind (tMigAt .evict true).res.migs (1 * 65536 + 255) = some (mig5 .evict true) ∧
    ((tMigAt .evict true).writeback (mig5 .evict true) .ok).1 = .narrow ∧
    (tLink tReady 3).linkActive 3 = true ∧ (tLink tReady 3).lame (80 + 3) = false ∧ (tLink tReady 3).inOrphan = false ∧
    63 + (List.length [(1 : Byte)]) ≤ 64 := by refine ⟨?_, ?_, ?_, ?_, ?_, ?_, ?_, ?_⟩ <;> decide +kernel

/-- A READY block whose host lease runs, renewed last at tick 0. -/
def tLease : State := { tReady.setFld 0x200 0 2 3 with ticks := 5000000, orph := { expiry := 5000000 } }

/-- A block in ORPHAN with this tenure token. -/
def tOrphan (token : Nat) : State := { tReady.wr 0x08 3 with orph := { token := token } }

/-- Meets the hypotheses of `TenureAndReattach`. -/
theorem test_met_tenure :
    tLease.bit 0x200 1 = true ∧ (tLease.wr 0x20C 0xFFFFFFFF).bit 0x200 1 = true ∧ tLease.orph.expiry ≤ tLease.supTk 4 ∧
    tLease.bit 0x0C 3 = true ∧ (tLease.setBit 0x0C 3 false).bit 0x0C 3 = false ∧ tLease.orph.hbFlagged = false ∧ tReady.phase = 2 ∧
    (∀ n ∈ [0, 9], (tOrphan n).phase = 3 ∧ (tOrphan n).muted = false ∧ (tOrphan n).orph.draining = false ∧ (tOrphan n).orph.token = n) ∧
    (let s : State := { tOrphan 0 with orph := { draining := true } }
     s.phase = 3 ∧ s.orph.draining = true ∧ (∀ e ∈ s.qs.recs, e.2.fly = [])) := by refine ⟨?_, ?_, ?_, ?_, ?_, ?_, ?_, ?_, ?_⟩ <;> decide +kernel

/-- Context 5 in state `st`, and command `ss` on it with generation `gen` and image address `a`. -/
def tRest (ss st gen a : Nat) : State :=
  tCmd (tTile.setCtx 5 { tTile.ctx 5 with state := st, gen := if st = 0 then 7 else 1 }) ss (leBytes 4 5 ++ leBytes 4 gen ++ leBytes 8 a)

/-- Context 5 RESTING, its rest at a step. -/
def tResting (n : Nat) : State :=
  let s := tRest 5 3 1 0x10000
  { s with cs := { s.cs with rest := some { ctx := 5, step := n, image := 0x10000 } }, ticks := 100000000 }

/-- Its image is to be written, the rest having been broken off with status `st` or not. -/
def tWriting (st : Nat) : State :=
  { tResting 5 with cs := { (tResting 5).cs with rest := some { ctx := 5, step := 5, image := 0x10000, status := st } } }

/-- Meets the hypotheses of `RestAndResume`. -/
theorem test_met_rest_and_resume :
    (∀ st ∈ [1, 2], let s := tRest 5 st 1 0x10000
     s.cmdRunning 5 = true ∧ s.cs.rest = none ∧ s.cmdArg 5 0 4 % 2 ^ 20 = 5 ∧ (s.ctx 5).gen = s.cmdArg 5 4 4 ∧ (s.ctx 5).state = st) ∧
    (let s := tResting 2
     s.restAt 5 2 = some { ctx := 5, step := 2, image := 0x10000 } ∧ s.ctxIdle 5 = true ∧ (∀ e ∈ s.dma.chans, e.2.ctx ≠ 5) ∧
       s.odNum 0x2000 0xB0 ≤ s.tk (80 + s.homeOf 5) - 0) ∧
    (let s := tResting 5
     s.restAt 5 5 = some { ctx := 5, step := 5, image := 0x10000 } ∧
       (s.ctlWrite (5 % 4) 0x10000 (s.restImage 5 false) false).1 = 0) ∧
    (tWriting 11).restAt 5 5 = some { ctx := 5, step := 5, image := 0x10000, status := 11 } ∧
    (∀ a ∈ [0, 0x10000], let s := tRest 6 4 1 a
     s.cmdRunning 6 = true ∧ s.cmdArg 6 0 4 % 2 ^ 20 = 5 ∧ s.inOrphan = false ∧ s.cmdArg 6 4 4 = (s.ctx 5).gen ∧ (s.ctx 5).state = 4 ∧
       s.cmdArg 6 8 8 = a) ∧
    (let s := tRest 6 0 0 0x10000
     s.cmdArg 6 4 4 = 0 ∧ (s.ctx 5).state = 0) ∧
    (let s := tRest 6 4 2 0
     s.cmdArg 6 4 4 ≠ (s.ctx 5).gen ∧ (s.ctx 5).state ≠ 0) ∧
    (let s := tRest 6 6 1 0
     s.cmdArg 6 4 4 = (s.ctx 5).gen ∧ (s.ctx 5).state ≠ 0 ∧ (s.ctx 5).state ≠ 4) := by
  refine ⟨?_, ?_, ?_, ?_, ?_, ?_, ?_, ?_⟩ <;> decide +kernel

/-- The lease of a resource, expired. -/
def tLeased (kind res : Nat) : State :=
  { tReady with rcv := { leases := [(leaseKey kind res, { expiry := 5 })], scrubbing := [(kind, res)] }, ticks := 5,
                gw := { hbOut := true } }

/-- Meets the hypotheses of `LeasesAndHeartbeats`. -/
theorem test_met_leases :
    ((0x80000000#32 - 1 : W32) - tUp.rd 0x10C).toNat < 2 ^ 31 ∧
    ((3 : W32) - (tUp.wr 0x110 3).rd 0x10C).toNat ≤ ((tUp.wr 0x110 3).rd 0x110 - (tUp.wr 0x110 3).rd 0x10C).toNat ∧
    ((tUp.wr 0x110 3).rd 0x110 - (tUp.wr 0x110 3).rd 0x10C).toNat < ((4 : W32) - (tUp.wr 0x110 3).rd 0x10C).toNat ∧
    (∀ k ∈ [1, 2], let s := tLeased k 647
     (sFind s.rcv.leases (leaseKey k 647)).map (·.expiry) = some 5 ∧ s.lame (s.leaseHolder k 647) = false ∧ (k, 647) ∈ s.rcv.scrubbing) ∧
    (let s := (tLeased 2 0).setBit 0x0C 3 false
     sFind s.rcv.leases (leaseKey 2 0) = some { expiry := 5 } ∧ 5 ≤ s.supTk 0 ∧ s.leaseSup (leaseKey 2 0) = 0 ∧
       s.bit 0x0C 3 = false) ∧
    (let t := (tLeased 1 647).wordsMet (· = .lease 1 647)
     (sFind t.rcv.leases (leaseKey 1 647)).isSome = true ∧ t.lame (t.leaseHolder 1 647) = false) ∧
    (tGuard tUp 0).guardIn ((tGuard tUp 0).guardOf 0) = true ∧
    (let s := tLeased 1 647
     s.gw.hbOut = true ∧ frameOk (frame 6 0x7F) = true ∧ (frame 6 0x7F).corrupt = false ∧ (frame 6 0x7F).type = 6) := by
  refine ⟨?_, ?_, ?_, ?_, ?_, ?_, ?_, ?_⟩ <;> decide +kernel

/-- RESET_UNIT runs, of a scope, a unit and a core. -/
def tReset (scope n c : Nat) : State := tCmd tTile 3 (leBytes 4 (scope + 16 * n + 2048 * c))

/-- A reset under way. -/
def tResetting (scope n c : Nat) : State := { tReset scope n c with rcv := { reset := some (scope, n, c) } }

/-- Meets the hypotheses of `UnitResets`. -/
theorem test_met_resets :
    (let s := tReset 1 84 7
     s.resetAsked 1 = some (84, 7) ∧ s.present 84 = true ∧ s.lame 84 = false ∧ (s.coresOk 84).testBit 7 = true) ∧
    (let s := tReset 2 84 0
     s.resetAsked 2 = some (84, 0) ∧ s.present 84 = true ∧ s.lame 84 = false) ∧
    (∀ v ∈ [0, 3], ((tReset 3 63 0).setTdi 63 v).resetAsked 3 = some (63, 0) ∧ ((tReset 3 63 0).setTdi 63 v).tdi 63 = v) ∧
    (∀ v ∈ [1, 2], ((tReset 3 63 0).setTdi 63 v).resetAsked 3 = some (63, 0) ∧ ((tReset 3 63 0).setTdi 63 v).tdi 63 = v) ∧
    (let s := tReset 4 0 0
     s.cmdRunning 3 = true ∧ bitsOf (s.cmdArg 3 0 4) 3 0 = 4) ∧
    (let s := tResetting 1 84 7
     s.rcv.presets = [] ∧ s.rcv.reset = some (1, 84, 7)) ∧
    (let s := tResetting 2 84 0
     s.rcv.presets = [] ∧ s.rcv.reset = some (2, 84, 0) ∧ s.rcv.checking = none ∧ s.stationIdle 84 = true ∧
       (let u : State := { s with rcv := { s.rcv with checking := some true } }
        u.rcv.presets = [] ∧ u.rcv.reset = some (2, 84, 0) ∧ u.rcv.checking = some true)) ∧
    (let s := tResetting 3 63 0
     s.rcv.presets = [] ∧ s.rcv.reset = some (3, 63, 0) ∧ s.partDrained 63 = true) := by
  refine ⟨?_, ?_, ?_, ?_, ?_, ?_, ?_, ?_⟩ <;> decide +kernel

/-- Meets the hypotheses of `RollsAndStorage`. -/
theorem test_met_rolls_and_storage :
    (let s := tCmd tReady 4 (leBytes 4 1)
     s.cmdRunning 4 = true ∧ s.roll.active = false) ∧
    (let s : State := { tReady with roll := { active := true, visiting := [(84, 0)] }, ticks := 100000000 }
     s.rollAt 84 = some 0 ∧ s.stationIdle 84 = true ∧ s.odNum 0x2F00 6 ≤ s.tk 84 - 0) ∧
    (let s : State := { tReady.setBit 0x0C 2 true with rcv := { upsets := [(.ctxRecord 5, 1)] } }
     s.bit 0x0C 2 = true ∧ s.rcv.upsets.find? (fun u => u.1 = .ctxRecord 5) = some (.ctxRecord 5, 1) ∧
       s.rcv.upsets.find? (fun u => u.1 = .queueRecord 1) = none) := by refine ⟨?_, ?_, ?_⟩ <;> decide +kernel

/-- Meets the hypotheses of `InterfaceStates`. -/
theorem test_met_interfaces :
    (let s : State := { tUp.setBit (partReg 63 0) 0 true with sec := { ide := (List.range 8).map fun k => (k, 2) } }
     s.tdi (64 - 1) = 0 ∧ s.configured (64 - 1) = true ∧ s.bit (partReg (64 - 1) 0) 3 = false ∧ s.ideSecure = true) ∧
    (tUp.setTdi 0 1).tdi (1 - 1) = 1 ∧ (tUp.setTdi 0 3).tdi (1 - 1) ≠ 0 := by refine ⟨?_, ?_, ?_⟩ <;> decide +kernel

/-- A block whose SPDM responder stands at step `n` with these sessions. -/
def tSpdm (n : Nat) (xs : List Session) : State := { tUp with sec := { spdm := n, sessions := xs } }

/-- Meets the hypotheses of `SpdmResponder`. -/
theorem test_met_spdm :
    1 ≤ (tSpdm 1 []).sec.spdm ∧ 2 ≤ (tSpdm 2 []).sec.spdm ∧ 3 ≤ (tSpdm 3 []).sec.spdm ∧
    (tSpdm 3 ((List.range 7).map fun k => { sid := k })).sec.sessions.length < 8 ∧
    (0 = (0 : Nat) ∨ 0 < tUp.fuses.certChain.length) ∧
    (tSpdm 3 [{ sid := 5 }]).session 5 = some { sid := 5 } ∧
    (tSpdm 3 [{ sid := 5, secured := true }]).session 5 = some { sid := 5, secured := true } := by
  refine ⟨?_, ?_, ?_, ?_, ?_, ?_, ?_⟩ <;> decide +kernel

/-- A session bound to partition 63, and key slot 511 of that partition and node 7 in state `st`. -/
def tKey (st : Nat) : State :=
  ((tSpdm 3 [{ sid := 5, secured := true, bound := some 63 }]).setKey 511 st 63 7 3 6)

/-- Meets the hypotheses of `BindingAndPeerKeys`. -/
theorem test_met_keys :
    (let s := (tSpdm 3 [{ sid := 5, secured := true }]).setBit (partReg 63 0) 0 true
     s.configured 63 = true ∧ s.boundTo 63 = none) ∧
    ((tKey 2).session 5 = some { sid := 5, secured := true, bound := some 63 } ∧ 7 ≠ (tKey 2).odNum 0x6000 1 ∧
      (List.range 512).find? (fun k => (tKey 2).keyState k ≠ 0 && getBits ((tKey 2).keyWord k) 3 6 = 63 &&
        getBits ((tKey 2).keyWord k) 9 14 = 7) = some 511 ∧ getBits ((tKey 2).keyWord 511) 23 6 = 3 ∧ (tKey 2).keyState 511 = 2) ∧
    ((List.range 512).find? (fun k => (tKey 0).keyState k ≠ 0 && getBits ((tKey 0).keyWord k) 3 6 = 63 &&
        getBits ((tKey 0).keyWord k) 9 14 = 7) = none ∧ (List.range 512).find? (fun k => (tKey 0).keyState k = 0) = some 0) ∧
    (∀ st ∈ [1, 2, 3, 4, 5], (tKey st).keyState 511 = st ∧ getBits ((tKey st).keyWord 511) 3 6 = 63 ∧ (tKey st).keyGen 511 = 6) ∧
    ((tOwn tUp 0x913F 1 0 []).ownReq .own fun i b _ => 0x9100 ≤ i && i < 0x9140 && b = 1) = some 0 ∧
    ((tOwn tUp 0x403F 0x30 1 []).ownReq .own fun i b _ => 0x4000 ≤ i && i < 0x4040 && b = 0x30) = some 0 := by
  refine ⟨?_, ?_, ?_, ?_, ?_, ?_⟩ <;> decide +kernel

/-- Meets the hypotheses of `Telemetry`. -/
theorem test_met_telemetry :
    (let s := tLate tReady
     s.present 84 = true ∧ s.lame 84 = false ∧ s.timerDue .rateShare 84 84 256 = true ∧ s.timerDue .trace 84 84 1000 = true ∧
       s.timerDue .power 84 84 10000 = true) ∧ ((0x7FFFFFFF : W32) - tUp.rd 0x304).toNat < 2 ^ 31 ∧
    (let s := tUp.wr 0x308 3
     ((3 : W32) - s.rd 0x304).toNat ≤ (s.rd 0x308 - s.rd 0x304).toNat ∧ (s.rd 0x308 - s.rd 0x304).toNat < ((4 : W32) - s.rd 0x304).toNat ∧
       (s.wr 0x304 3).traceHigh = false) ∧
    (let s := tUp.wr 0x308 0x10000
     (s.wr 0x304 0).traceHigh = true) := by decide +kernel

/-- A block with awl attached over the side stream, and core 7 of cantle 0 in service. -/
def tAwl : State := { tReady with tel := { awlRoute := some false }, ticks := 100000000 }

/-- Meets the hypotheses of `AwlPort`. -/
theorem test_met_awl :
    (tReady.awlReach (.side 0 3) = true ∧ tReady.tel.awlRoute ≠ some (!awlMgmt (.side 0 3)) ∧
      tReady.tel.awlRoute ≠ some (awlMgmt (.side 0 3))) ∧
    (let r : AwlRoute := .side 0 3
     let m := tAwl.inc 0x384
     let t : State := { m with tel := { m.tel with awlLast := m.tk 80 } }
     tAwl.awlReach r = true ∧ tAwl.tel.awlRoute = some (awlMgmt r) ∧ t.awlCore 84 7 = true ∧ t.halted 84 7 = false ∧
       (t.takeover 84 7).isSome = true) ∧
    (let s := tAwl.setBit (0x390 + 84 / 4 * 4) (84 % 4 * 8 + 7) true
     let m := s.inc 0x384
     let t : State := { m with tel := { m.tel with awlLast := m.tk 80 } }
     t.awlCore 84 7 = true ∧ t.halted 84 7 = true ∧ t.fuses.prodLocked = false) ∧
    (awlAddrOk 0x2FFFFFFC = true ∧ getBits (0x2FFFFFFC : W32) 28 4 ≠ 3 ∧ awlAddrOk 0x3000FFFC = true ∧
      getBits (0x3000FFFC : W32) 28 4 = 3) ∧
    (tAwl.tel.awlRoute.isSome = true ∧ tAwl.odNum 0xA000 0x20 ≤ tAwl.tk 80 - tAwl.tel.awlLast) := by
  refine ⟨?_, ?_, ?_, ?_, ?_⟩ <;> decide +kernel

/-- Meets the hypotheses of `LinkVerdicts` and `BlockScaledDecode`. -/
theorem test_met_formats :
    goodLanes.lanes.length = 272 ∧ (goodLanes.lanes.take 8).length = 8 ∧
    isBlock 0x15 = true ∧ 0 < (List.replicate 33 (0 : Byte)).length / unitBytes 0x15 ∧ 31 < 32 := by decide +kernel

/-! ### Values that the spec gives -/

/-- R17, the identity rows: pages and skirts of the stations at the ends. -/
theorem test_identity_rows :
    [0, 79, 83, 93, 99].map pageOf = [0x100000, 0x5F0000, 0x630000, 0x6D0000, 0x730000] ∧
      [0, 79, 83, 93, 99].map skirtOf = [0, 3, 3, 2, 3] := by decide +kernel

/-- R67, the worked addresses: the alias of ACCESS_ERR clears it and leaves WRITE_WHILE_ENABLED, the whole word clears both. -/
theorem test_alias_of_access_err :
    let s := tUp.wr 0x14 5
    (match exec (.bitAliasWrite 0x2000288 4 1) s with | .next t => t.rd 0x14 | _ => 99) = 1 ∧
      (match exec (.registerWrite 0 0 0x14 4 5 false) s with | .next t => t.rd 0x14 | _ => 99) = 0 := by decide +kernel

/-- R115, the worked owner words. -/
theorem test_owner_words : ownerWord 3 1 0x4A21 = 0x0D004A21 ∧ ownerWord 3 3 2 = 0x0F000002 := by decide +kernel

/-- R120 to R122, the worked fence race: its three orders, and what the waits for 7 and for 8 find. -/
theorem test_fence_race :
    fenceSignal 5 7 = (7, 0) ∧ fenceSignal 7 6 = (7, 1) ∧ waitEval 7 7 = 0 ∧ waitEval 7 8 = 255 ∧ waitEval (2 ^ 63 + 7) 8 = 8 ∧
      fenceSignal (2 ^ 63 + 5) 7 = (2 ^ 63 + 5, 1) ∧ waitEval (2 ^ 63 + 5) 7 = 8 ∧ fenceSignal 5 6 = (6, 0) ∧
      waitEval (2 ^ 63 + 6) 7 = 8 ∧ fenceSignal (2 ^ 63 + 6) 7 = (2 ^ 63 + 6, 1) := by decide +kernel

/-- R288, the table of narrower formats: FP32 over BF16, FP16 and the blocks, BF16 and FP16 over FP8 and the blocks. -/
theorem test_narrower_formats :
    (List.range 32).map (fun n => (List.range 32).filter (narrower n)) =
      [[], [2, 3, 16, 17, 18, 19, 20, 21], [4, 5, 16, 17, 18, 19, 20, 21], [4, 5, 16, 17, 18, 19, 20, 21]] ++
        List.replicate 28 [] := by decide +kernel

/-- R255: a page of 2,048 BF16 elements takes 2,112 bytes as MXFP8. -/
theorem test_packed_page : packedBytes 2 0x10 = 2112 := by decide +kernel

/-- R290: what infinities, NaNs and values beyond the range become. -/
theorem test_conversion_corners :
    (elemEncode 4 (some 0) (.fin false 1 20)).code = 0x7E ∧ (elemEncode 4 (some 0) (.inf true)).code = 0xFF ∧
      (elemEncode 5 (some 0) (.fin true 1 20)).code = 0xFB ∧ (elemEncode 5 (some 0) (.inf false)).code = 0x7C ∧
      (elemEncode 6 (some 0) (.inf true)).code = 0x80 ∧ (elemEncode 6 (some 0) .nan).code = 0 ∧
      (elemEncode 7 (some 0) (.fin false 100 0)).code = 7 ∧ (elemEncode 2 (some 0) .nan).code = 0x7FC0 := by decide +kernel

/-- R484: 64 data lanes and 4 spares, all good, make a module usable; five failed data lanes do not. -/
theorem test_link_verdicts :
    (judgeHost 9 goodLanes).verdict = 1 ∧
      (judgeHost 9 { goodLanes with lanes := List.replicate 5 ⟨2 ^ 40, 2 ^ 30, true⟩ ++ List.replicate 267 ⟨2 ^ 40, 0, true⟩ }).verdict =
        2 := by decide +kernel

/-- R364, R373, R378: the worked lane of a rotated port, the worked address of a peer port, and the published check value of CRC-32C
(of the digits 1 to 9). -/
theorem test_ports_and_packets :
    logicalLane true (2, 46) = (1, 17) ∧ portMac 0x4B10 0x13 5 = 0x024B10001305 ∧
      crc32c [0x31, 0x32, 0x33, 0x34, 0x35, 0x36, 0x37, 0x38, 0x39] = 0xE3069283 := by decide +kernel

/-- R406: a claim takes the source of the highest priority, and of equals the highest number. -/
theorem test_claim_order :
    let b : Buckle := { srcs := [(3, { st := .pending, prio := 4, enable := true, target := some 1 }),
                                 (9, { st := .pending, prio := 6, enable := true, target := some 1 }),
                                 (12, { st := .pending, prio := 6, enable := true, target := some 1 })],
                        tgts := [(1, { en := true, thresh := 5 })] }
    (b.claim 1).1 % 4096 = 12 ∧ (b.claim 2).1 = 0 := by decide +kernel

/-- R35, R469: the release of the reset input starts bring-up with STEP 0. -/
theorem test_reset_release :
    (match exec (.fundamentalReset 0 goodLanes) State.reset with | .next t => (t.phase, t.stepNo) | _ => (99, 99)) = (1, 0) := by
  decide +kernel

/-- A step runs the command in front, and an empty queue counts a tick. -/
theorem test_step :
    (match step { tUp with pending := [.strapChange 7, .powerRemoved] } with | .next t => (t.pins, t.pending.length) | _ => (0, 9)) =
      (7, 1) ∧ (match step tUp with | .next t => t.ticks | _ => 99) = 1 := by decide +kernel

/-- The hypotheses of the rule for a block that is not up, and of the frame of Buckle's commands. -/
theorem test_met_not_up_and_frame :
    (let s : State := { State.reset with pending := [.bklClaim 0 0, .ctxRest] }
     s.power ≠ .up ∧ (∀ c ∈ s.pending, ofSupply c = false)) ∧ exec (.bklSet 0 0) tUp = .next (tUp.after (tUp.irq 0)) :=
  ⟨by decide +kernel, rfl⟩

end Sys2Proof.Tests
end

section
/-! PROOF. Decoding a block-scaled row (R286, R292): a row is its blocks one after another, 32 elements each, so that element
`32 * b + j` of the row is element `j` of block `b`; what an element is then turns on its block's scale byte. -/

namespace Sys2Proof.Machine

/-- In a list made of pieces of one length, position `k * b + j` holds item `j` of piece `b`. -/
theorem getElem?_flatMap_of_length_eq {α β : Type} {g : α → List β} {k j : Nat} (hg : ∀ x, (g x).length = k)
    (hj : j < k) (l : List α) (b : Nat) : (l.flatMap g)[k * b + j]? = l[b]?.bind fun x => (g x)[j]? := by
  induction l generalizing b with
  | nil => simp
  | cons x l ih =>
    rw [List.flatMap_cons]
    cases b with
    | zero =>
      have hx : k * 0 + j < (g x).length := by rw [hg]; omega
      rw [List.getElem?_append_left hx]
      simp
    | succ b =>
      have hx : (g x).length ≤ k * (b + 1) + j := by rw [hg, Nat.mul_succ]; omega
      have hi : k * (b + 1) + j - k = k * b + j := by rw [Nat.mul_succ]; omega
      rw [List.getElem?_append_right hx, hg, hi, ih, List.getElem?_cons_succ]

/-- The scale byte of block `b` of a row (R286): the scales follow the elements of all blocks. -/
def blockScale (f : Nat) (bs : Bytes) (b : Nat) : Nat :=
  (bs.getD (bs.length / unitBytes f * (4 * elemBits f) + b) 0).toNat

/-- The code of element `j` of block `b` of a row (R286). -/
def blockCode (f : Nat) (bs : Bytes) (b j : Nat) : Nat :=
  leNat ((bs.drop (b * (4 * elemBits f))).take (4 * elemBits f)) / 2 ^ (elemBits f * j) % 2 ^ elemBits f

/-- The element that a scale byte and a code stand for (R292). -/
def blockElem (f scale code : Nat) : Num :=
  if scale = 0xFF then .nan else (elemDecode f code).scale ((scale : Int) - 127)

theorem decodeRow_block_getElem? {f b j : Nat} {bs : Bytes} (pz : List Bool) (hf : isBlock f = true)
    (hb : b < bs.length / unitBytes f) (hj : j < 32) :
    ((decodeRow f bs pz)[32 * b + j]?).map Prod.fst = some (blockElem f (blockScale f bs b) (blockCode f bs b j)) := by
  have hblock : (List.range (bs.length / unitBytes f))[b]? = some b := List.getElem?_range hb
  have helem : (List.range 32)[j]? = some j := List.getElem?_range hj
  rw [decodeRow, if_pos hf, getElem?_flatMap_of_length_eq (k := 32) (fun _ => by simp) hj, hblock, Option.bind_some,
    List.getElem?_map, helem, Option.map_some, Option.map_some, ← List.getD_eq_getElem?_getD]
  rfl

theorem blockElem_of_scale_nan {f scale code : Nat} (h : scale = 0xFF) : blockElem f scale code = .nan := if_pos h

theorem blockElem_of_scale_ne {f scale code : Nat} (h : scale ≠ 0xFF) :
    blockElem f scale code = (elemDecode f code).scale ((scale : Int) - 127) := if_neg h

/-- A code of MXINT8 is a signed byte that counts steps of 2^-6 (R292). -/
theorem elemDecode_mxint8 (v : Nat) :
    elemDecode 0x15 v = if v < 128 then .fin false v (-6) else .fin true (256 - v) (-6) := by
  have hint : elemDecode 0x15 v = if 128 ≤ v then .fin true (256 - v) (-6) else .fin false v (-6) := rfl
  by_cases hv : v < 128
  · rw [hint, if_pos hv, if_neg (Nat.not_le.mpr hv)]
  · rw [hint, if_neg hv, if_pos (Nat.not_lt.mp hv)]

/-- Settles O60: the row's element is `blockElem` of its block's scale byte and its code, whose two cases are the two clauses. -/
theorem blockScaledDecode : Obligations.BlockScaledDecode := by
  unfold Obligations.BlockScaledDecode
  refine ⟨fun f b j bs pz hf hb hj => ?_, fun _ _ _ _ => rfl, fun v _ => elemDecode_mxint8 v⟩
  have hel := decodeRow_block_getElem? pz hf hb hj
  refine ⟨fun hscale => ?_, fun hscale => ?_⟩
  · exact hel.trans (congrArg some (blockElem_of_scale_nan hscale))
  · exact hel.trans (congrArg some (blockElem_of_scale_ne hscale))

end Sys2Proof.Machine
end

section
/-! PROOF. The verdict of a link (R484): of a host port it is read off the count of usable modules, and a module's usability off the
results of its 68 lanes; of a cantle port it is whether all 8 lanes pass with no uncorrectable codeword. -/

namespace Sys2Proof.Machine

/-! ### A module and the results of its lanes -/

/-- The results of the 68 lanes of module `i` of a host port (R483). -/
def moduleResults (exp : Nat) (m : PortMeas) (i : Nat) : List Nat :=
  ((m.lanes.drop (68 * i)).take 68).map (laneResult exp)

/-- Whether lane results, 64 of data lanes and then those of the spares, make a module usable (R484). -/
def ResultsUsable (l : List Nat) : Prop :=
  ((l.take 64).filter (· ≠ 1)).length ≤ ((l.drop 64).filter (· = 1)).length ∧ ((l.take 64).filter (· ≠ 1)).length ≤ 4

theorem moduleLanes_judgeLanes_results (exp : Nat) (m : PortMeas) (i : Nat) :
    (moduleLanes (judgeLanes exp m) i).map (fun l => l.2.2) = moduleResults exp m i := by
  simp only [moduleLanes, judgeLanes, moduleResults, List.map_take, List.map_drop, List.map_map, Function.comp_def]

theorem failedData_eq_results (ls : List (Nat × Nat × Nat)) :
    failedData ls = (((ls.map fun l => l.2.2).take 64).filter (· ≠ 1)).length := by
  rw [← List.map_take, List.filter_map, List.length_map]
  rfl

theorem passingSpares_eq_results (ls : List (Nat × Nat × Nat)) :
    passingSpares ls = (((ls.map fun l => l.2.2).drop 64).filter (· = 1)).length := by
  rw [← List.map_drop, List.filter_map, List.length_map]
  rfl

theorem length_moduleLanes_judgeLanes {exp i : Nat} {m : PortMeas} (hm : m.lanes.length = 272) (hi : i < 4) :
    (moduleLanes (judgeLanes exp m) i).length = 68 := by
  rw [moduleLanes, judgeLanes, List.length_take, List.length_drop, List.length_map, hm]
  omega

theorem moduleUsable_iff_resultsUsable {exp i : Nat} {m : PortMeas} (hm : m.lanes.length = 272) (hi : i < 4) :
    moduleUsable (moduleLanes (judgeLanes exp m) i) = true ↔ ResultsUsable (moduleResults exp m i) := by
  rw [ResultsUsable, ← moduleLanes_judgeLanes_results, ← failedData_eq_results, ← passingSpares_eq_results]
  simp [moduleUsable, length_moduleLanes_judgeLanes hm hi]

/-! ### The verdict of a host port -/

theorem judgeHost_verdict (exp : Nat) (m : PortMeas) :
    (judgeHost exp m).verdict =
      if (judgeHost exp m).width = 4 then 1 else if (judgeHost exp m).width = 0 then 3 else 2 := rfl

theorem judgeHost_width (exp : Nat) (m : PortMeas) :
    (judgeHost exp m).width = (List.range 4).countP fun i => moduleUsable (moduleLanes (judgeLanes exp m) i) := by
  rw [judgeHost, ← List.countP_eq_length_filter, List.countP_map]
  rfl

theorem judgeHost_width_eq_four_iff {exp : Nat} {m : PortMeas} (hm : m.lanes.length = 272) :
    (judgeHost exp m).width = 4 ↔ ∀ i < 4, ResultsUsable (moduleResults exp m i) := by
  have hall : (judgeHost exp m).width = 4 ↔ ∀ i ∈ List.range 4, moduleUsable (moduleLanes (judgeLanes exp m) i) = true := by
    rw [judgeHost_width]
    exact List.countP_eq_length
  rw [hall]
  exact forall_congr' fun i => by
    rw [List.mem_range]
    exact forall_congr' fun hi => moduleUsable_iff_resultsUsable hm hi

theorem judgeHost_width_eq_zero_iff {exp : Nat} {m : PortMeas} (hm : m.lanes.length = 272) :
    (judgeHost exp m).width = 0 ↔ ∀ i < 4, ¬ ResultsUsable (moduleResults exp m i) := by
  rw [judgeHost_width, List.countP_eq_zero]
  exact forall_congr' fun i => by
    rw [List.mem_range]
    exact forall_congr' fun hi => not_congr (moduleUsable_iff_resultsUsable hm hi)

theorem judgeHost_verdict_eq_one_iff (exp : Nat) (m : PortMeas) :
    (judgeHost exp m).verdict = 1 ↔ (judgeHost exp m).width = 4 := by
  rw [judgeHost_verdict]
  repeat' split
  all_goals omega

theorem judgeHost_verdict_eq_three_iff (exp : Nat) (m : PortMeas) :
    (judgeHost exp m).verdict = 3 ↔ (judgeHost exp m).width = 0 := by
  rw [judgeHost_verdict]
  repeat' split
  all_goals omega

theorem judgeHost_verdict_range (exp : Nat) (m : PortMeas) :
    (judgeHost exp m).verdict = 1 ∨ (judgeHost exp m).verdict = 2 ∨ (judgeHost exp m).verdict = 3 := by
  rw [judgeHost_verdict]
  repeat' split
  all_goals omega

/-- What holds of every module of a host port holds of each of its four. -/
theorem forall_lt_four_iff (p : Nat → Prop) : (∀ i < 4, p i) ↔ p 0 ∧ p 1 ∧ p 2 ∧ p 3 := by
  simp only [Nat.forall_lt_succ_right, Nat.not_lt_zero, false_imp_iff, implies_true, true_and, and_assoc]

/-! ### The verdict of a cantle port -/

theorem judgeLanes_all_pass_iff (exp : Nat) (m : PortMeas) :
    ((judgeLanes exp m).all fun l => l.2.2 = 1) = true ↔ ∀ l ∈ m.lanes, laneResult exp l = 1 := by
  simp [judgeLanes]

theorem judgeCantle_verdict {exp : Nat} {m : PortMeas} (hm : m.lanes.length = 8) :
    (judgeCantle exp m).verdict =
      if ((judgeLanes exp m).all fun l => l.2.2 = 1) = true ∧ m.uncorrectable = 0 then 1 else 3 := by
  have hlen : (judgeLanes exp m).length = 8 := (List.length_map _).trans hm
  have htake : (judgeLanes exp m).take 8 = judgeLanes exp m := List.take_of_length_le (Nat.le_of_eq hlen)
  simp only [judgeCantle, htake, hlen, decide_true, Bool.true_and, Bool.and_eq_true, decide_eq_true_eq]

theorem judgeCantle_verdict_eq_one_iff {exp : Nat} {m : PortMeas} (hm : m.lanes.length = 8) :
    (judgeCantle exp m).verdict = 1 ↔ (∀ l ∈ m.lanes, laneResult exp l = 1) ∧ m.uncorrectable = 0 := by
  rw [judgeCantle_verdict hm, ← judgeLanes_all_pass_iff]
  split
  next hok => exact iff_of_true rfl hok
  next hok => exact iff_of_false (by decide) hok

theorem judgeCantle_verdict_range {exp : Nat} {m : PortMeas} (hm : m.lanes.length = 8) :
    (judgeCantle exp m).verdict = 1 ∨ (judgeCantle exp m).verdict = 3 := by
  rw [judgeCantle_verdict hm]
  split
  · exact .inl rfl
  · exact .inr rfl

/-- Settles O59: a host port's verdict follows from its count of usable modules, which is 4 when all of them are usable and 0 when
none is; a cantle port's verdict is the test of its lanes. -/
theorem linkVerdicts : Obligations.LinkVerdicts := by
  unfold Obligations.LinkVerdicts
  refine ⟨fun exp m hm => ⟨?full, ?fail, judgeHost_verdict_range exp m⟩,
    fun exp m hm => ⟨judgeCantle_verdict_eq_one_iff hm, judgeCantle_verdict_range hm⟩⟩
  case full =>
    calc (judgeHost exp m).verdict = 1
      _ ↔ (judgeHost exp m).width = 4 := judgeHost_verdict_eq_one_iff exp m
      _ ↔ ∀ i < 4, ResultsUsable (moduleResults exp m i) := judgeHost_width_eq_four_iff hm
      _ ↔ _ := forall_lt_four_iff _
  case fail =>
    calc (judgeHost exp m).verdict = 3
      _ ↔ (judgeHost exp m).width = 0 := judgeHost_verdict_eq_three_iff exp m
      _ ↔ ∀ i < 4, ¬ ResultsUsable (moduleResults exp m i) := judgeHost_width_eq_zero_iff hm
      _ ↔ _ := forall_lt_four_iff _

end Sys2Proof.Machine
end

section
/-! PROOF. What the shared operations leave as it was, beyond the laws of the model's own files: records, events, traces, leases and
guard checks touch neither the supply (R2) nor the queues. -/

namespace Sys2Proof.Machine

/-! ### Trace records (R520, R521) -/

/-- States that differ in no more than registers, host memory, time tags, telemetry, Buckle, the side streams and what was sent. -/
def SameButTrace (s t : State) : Prop :=
  ∃ r h g e b d o, t = { s with regs := r, host := h, tags := g, tel := e, bkl := b, d2d := d, out := o }

namespace SameButTrace

theorem trans {s t u : State} (h : SameButTrace s t) (h' : SameButTrace t u) : SameButTrace s u := by
  obtain ⟨r, h, g, e, b, d, o, rfl⟩ := h
  obtain ⟨r, h, g, e, b, d, o, rfl⟩ := h'
  exact ⟨r, h, g, e, b, d, o, rfl⟩

theorem refl (s : State) : SameButTrace s s := ⟨s.regs, s.host, s.tags, s.tel, s.bkl, s.d2d, s.out, rfl⟩

theorem inc (s : State) (o n : Nat) : SameButTrace s (s.inc o n) := ⟨_, s.host, s.tags, s.tel, s.bkl, s.d2d, s.out, rfl⟩

theorem raise (s : State) (o b c : Nat) : SameButTrace s (s.raise o b c) := ⟨_, s.host, s.tags, s.tel, s.bkl, s.d2d, s.out, rfl⟩

theorem with_tel (s : State) (x : Telemetry) : SameButTrace s { s with tel := x } :=
  ⟨s.regs, s.host, s.tags, x, s.bkl, s.d2d, s.out, rfl⟩

theorem irq (s : State) (n : Nat) : SameButTrace s (s.irq n) := by
  obtain ⟨b, d, o, h⟩ := s.irq_eq n
  exact ⟨s.regs, s.host, s.tags, s.tel, b, d, o, h⟩

theorem tag (s : State) (st : Nat) : SameButTrace s (s.tag st).2 := ⟨s.regs, s.host, _, s.tel, s.bkl, s.d2d, s.out, rfl⟩

theorem hostCtlWrite (s : State) (k a : Nat) (b : Bytes) : SameButTrace s (s.hostCtlWrite k a b) := by
  have host (t : State) (m : Mem) : SameButTrace t { t with host := m } := ⟨t.regs, m, t.tags, t.tel, t.bkl, t.d2d, t.out, rfl⟩
  unfold State.hostCtlWrite
  split
  · exact refl s
  · split
    · exact refl s
    · split
      · exact (raise s _ _ _).trans (inc _ _ _)
      · exact ((inc s _ _).trans (inc _ _ _)).trans (host _ _)

theorem trace (s : State) (cls st obj arg : Nat) : SameButTrace s (s.trace cls st obj arg) := by
  unfold State.trace State.traceDrop
  simp only []
  split
  · exact refl s
  split
  · exact (with_tel s _).trans (inc _ _ _)
  split
  · exact ((with_tel s _).trans (raise _ _ _ _)).trans (inc _ _ _)
  have put (t : State) (x : Telemetry) (b : Bytes) (a : Nat) (h : SameButTrace s t) :
      SameButTrace s ((({ t with tel := x } : State).hostCtlWrite 0 a b).inc 0x308) :=
    ((h.trans (with_tel t x)).trans (hostCtlWrite _ _ _ _)).trans (inc _ _ _)
  split
  · exact ((put _ _ _ _ ((with_tel s _).trans (tag _ _))).trans (with_tel _ _)).trans (irq _ _)
  · exact put _ _ _ _ ((with_tel s _).trans (tag _ _))

end SameButTrace

/-- `t` has the supply and the queues of `s`. -/
structure Aside (s t : State) : Prop where
  power : t.power = s.power
  qs : t.qs = s.qs

namespace Aside

theorem refl (s : State) : Aside s s := ⟨rfl, rfl⟩

theorem trans {s t u : State} (h : Aside s t) (h' : Aside t u) : Aside s u :=
  ⟨h'.power.trans h.power, h'.qs.trans h.qs⟩

theorem of_err {s t : State} (h : SameButErr s t) : Aside s t := by
  obtain ⟨_, _, _, _, _, _, _, _, rfl⟩ := h
  exact ⟨rfl, rfl⟩

/-- What every step of a fold keeps, the fold keeps. -/
theorem foldl {α : Type} {f : State → α → State} (h : ∀ s x, Aside s (f s x)) (l : List α) (s : State) :
    Aside s (l.foldl f s) := by
  induction l generalizing s with
  | nil => exact refl s
  | cons x l ih => exact (h s x).trans (ih (f s x))

theorem emit (s : State) (m : OutMsg) : Aside s (s.emit m) := ⟨rfl, rfl⟩
theorem wr (s : State) (o : Nat) (v : W32) : Aside s (s.wr o v) := ⟨rfl, rfl⟩
theorem wr64 (s : State) (o v : Nat) : Aside s (s.wr64 o v) := (wr s _ _).trans (wr _ _ _)
theorem setFld (s : State) (o lo w x : Nat) : Aside s (s.setFld o lo w x) := ⟨rfl, rfl⟩
theorem setBit (s : State) (o b : Nat) (v : Bool) : Aside s (s.setBit o b v) := ⟨rfl, rfl⟩
theorem inc (s : State) (o n : Nat) : Aside s (s.inc o n) := ⟨rfl, rfl⟩
theorem raise (s : State) (o b c : Nat) : Aside s (s.raise o b c) := ⟨rfl, rfl⟩
theorem setCtx (s : State) (c : Nat) (r : CtxRec) : Aside s (s.setCtx c r) := ⟨rfl, rfl⟩
theorem irq (s : State) (n : Nat) : Aside s (s.irq n) := of_err (.irq s n)
theorem err (s : State) (e : ErrInfo) : Aside s (s.err e) := of_err (.err s e)
theorem tag (s : State) (st : Nat) : Aside s (s.tag st).2 := of_err (.tag s st)
theorem hostCtlWrite (s : State) (k a : Nat) (b : Bytes) : Aside s (s.hostCtlWrite k a b) := of_err (.hostCtlWrite s k a b)
theorem draw (s : State) : Aside s s.draw.2 := ⟨rfl, rfl⟩
theorem with_tel (s : State) (x : Telemetry) : Aside s { s with tel := x } := ⟨rfl, rfl⟩
theorem with_rcv (s : State) (x : Recov) : Aside s { s with rcv := x } := ⟨rfl, rfl⟩
theorem with_orph (s : State) (x : Orphan) : Aside s { s with orph := x } := ⟨rfl, rfl⟩
theorem with_acc (s : State) (x : AccSys) : Aside s { s with acc := x } := ⟨rfl, rfl⟩
theorem with_flt (s : State) (x : FaultSys) : Aside s { s with flt := x } := ⟨rfl, rfl⟩
theorem with_dev (s : State) (x : Mem) : Aside s { s with dev := x } := ⟨rfl, rfl⟩
theorem with_bkl (s : State) (x : Buckle) : Aside s { s with bkl := x } := ⟨rfl, rfl⟩

/-! ### Messages, events, records -/

theorem sideMsg (s : State) (k m ty pa : Nat) (pl : Bytes) : Aside s (s.sideMsg k m ty pa pl) := ⟨rfl, rfl⟩

theorem levelSnapshot (s : State) (k : Nat) : Aside s (s.levelSnapshot k) :=
  ((sideMsg s _ _ _ _ _).trans (sideMsg _ _ _ _ _ _)).trans (with_bkl _ _)

theorem pickCarrier (s : State) (die : Nat) : Aside s (s.pickCarrier die) := by
  unfold State.pickCarrier
  simp only []
  split
  · exact refl s
  · split
    · exact (foldl (fun s _ => setBit s _ _ _) _ s).trans (levelSnapshot _ _)
    · exact foldl (fun s _ => setBit s _ _ _) _ s

theorem fpEvent (s : State) (ns : List Nat) : Aside s (s.fpEvent ns) :=
  (((inc s _ _).trans (foldl (fun s _ => setFld s _ _ _ _) ns _)).trans (raise _ _ _ _)).trans (irq _ _)

theorem trace (s : State) (cls st obj arg : Nat) : Aside s (s.trace cls st obj arg) := by
  obtain ⟨_, _, _, _, _, _, _, h⟩ := SameButTrace.trace s cls st obj arg
  rw [h]
  exact ⟨rfl, rfl⟩

theorem linkEvent (s : State) (via k ev : Nat) : Aside s (s.linkEvent via k ev) := (sideMsg s _ _ _ _ _).trans (trace _ _ _ _ _)

/-! ### Leases, links, stations -/

theorem leaseStart (s : State) (kind r : Nat) : Aside s (s.leaseStart kind r) := ⟨rfl, rfl⟩

theorem leaseRestart (s : State) (ks : List Nat) : Aside s (s.leaseRestart ks) := by
  have both (r : Recov) (o : Orphan) : Aside s { s with rcv := r, orph := o } := ⟨rfl, rfl⟩
  unfold State.leaseRestart
  simp only []
  split
  · exact both _ _
  · exact with_rcv s _

theorem handover (s : State) (ks : List Nat) : Aside s (s.handover ks) :=
  (leaseRestart s ks).trans (foldl (fun s _ => fpEvent s []) ks _)

theorem linkOff (s : State) (k : Nat) : Aside s (s.linkOff k) :=
  (((setFld s _ _ _ _).trans (setFld _ _ _ _ _)).trans (setBit _ _ _ _)).trans (pickCarrier _ _)

theorem linkDown (s : State) (k : Nat) : Aside s (s.linkDown k) := by
  have h := (linkOff s k).trans (raise _ (pmReg k 0x3084) 3 (pmReg k 0x3094))
  unfold State.linkDown
  simp only []
  split <;> split
  · exact (h.trans (with_orph _ _)).trans (linkEvent _ _ _ _)
  · exact h.trans (with_orph _ _)
  · exact h.trans (linkEvent _ _ _ _)
  · exact h

theorem portOff (s : State) (n : Nat) : Aside s (s.portOff n) := by
  unfold State.portOff
  split
  · exact refl s
  · split
    · exact refl s
    · exact linkDown s _
  · exact setFld s _ _ _ _

theorem lameStation (s : State) (n : Nat) (ev : Bool) : Aside s (s.lameStation n ev) := by
  have mark (r : Recov) (e : ErrInfo) : Aside s ((({ s with rcv := r } : State).setBit (pageOf n) 13 true).err e) :=
    ((with_rcv s r).trans (setBit _ _ _ _)).trans (err _ e)
  unfold State.lameStation
  simp only []
  split
  · exact refl s
  · cases ev with
    | true =>
      split
      · exact ((mark _ _).trans (fpEvent _ _)).trans (portOff _ _)
      · exact (((mark _ _).trans (fpEvent _ _)).trans (portOff _ _)).trans (handover _ _)
    | false =>
      split
      · exact (mark _ _).trans (portOff _ _)
      · exact ((mark _ _).trans (portOff _ _)).trans (leaseRestart _ _)

/-! ### Guards -/

theorem owcTouch (s : State) (g f : Nat) : Aside s (s.owcTouch g f) := by
  unfold State.owcTouch
  simp only []
  split
  · exact refl s
  · split
    · exact (inc s _ _).trans (with_acc _ _)
    · exact ((inc s _ _).trans (draw _)).trans (with_acc _ _)

theorem errCount (s : State) (c : Option Nat) : Aside s (s.errCount c) := by cases c <;> exact ⟨rfl, rfl⟩

theorem guardRefuse (s : State) (g f : Nat) (x e : W32) (who : Asker) : Aside s (s.guardRefuse g f x e who) := by
  have seen : Aside s (((((s.grdFlag g 0).inc (grdReg g 8)).wr (grdReg g 0x14) x).wr64 (grdReg g 0x18) (f % 2 ^ 36)).wr
      (grdReg g 0x20) e) :=
    ((((raise s _ _ _).trans (inc _ _ _)).trans (wr _ _ _)).trans (wr64 _ _ _)).trans (wr _ _ _)
  unfold State.guardRefuse
  simp only []
  generalize ((((s.grdFlag g 0).inc (grdReg g 8)).wr (grdReg g 0x14) x).wr64 (grdReg g 0x18) (f % 2 ^ 36)).wr
    (grdReg g 0x20) e = t at seen
  generalize (t.odNum 0x7000 0x30 ≠ 0 && _) = held
  cases held
  · cases who.ctx with
    | none => exact (seen.trans (with_flt t _)).trans (err _ _)
    | some c => exact (seen.trans (with_flt t _)).trans (err _ _)
  · exact (seen.trans (inc _ _ _)).trans (errCount _ _)

theorem guardCheck (s : State) (f : Nat) (e : W32) (who : Asker) : Aside s (s.guardCheck f e who).2 := by
  unfold State.guardCheck
  simp only []
  split
  · exact refl s
  split
  · exact guardRefuse s _ _ _ _ _
  split
  · exact guardRefuse s _ _ _ _ _
  split
  · exact owcTouch s _ _
  · exact (owcTouch s _ _).trans (guardRefuse _ _ _ _ _ _)

theorem devWrite (s : State) (a : Nat) (b : Bytes) (pz : List Bool) (e : W32) (who : Asker) :
    Aside s (s.devWrite a b pz e who).2 := by
  unfold State.devWrite
  simp only []
  split
  · exact guardCheck s _ _ _
  · exact (guardCheck s _ _ _).trans (with_dev _ _)

theorem ledgerStep (s : State) (c x : Nat) (f : Nat → Nat) : Aside s (s.ledgerStep c x f).2 := by
  unfold State.ledgerStep
  simp only []
  split
  · exact guardCheck s _ _ _
  · exact (guardCheck s _ _ _).trans (with_dev _ _)

theorem freeSlot (s : State) (key : Nat) : Aside s (s.freeSlot key) := by
  have cut (x : Xlat) (a : AccSys) : Aside s { s with x := x, acc := a } := ⟨rfl, rfl⟩
  unfold State.freeSlot
  split
  · exact refl s
  · simp only []
    split
    · exact (cut _ _).trans (foldl (fun s x => ledgerStep s _ x _) _ _)
    · exact ((cut _ _).trans (foldl (fun s x => ledgerStep s _ x _) _ _)).trans (devWrite _ _ _ _ _ _)

theorem rangeErr (s : State) (q a n : Nat) : Aside s (s.rangeErr q a n) := by
  unfold State.rangeErr
  split
  · exact err s _
  · exact refl s

theorem queRecord (s : State) (q a : Nat) (b : Bytes) (src : Option Nat) : Aside s (s.queRecord q a b src) := by
  unfold State.queRecord
  simp only []
  split
  · split
    · exact raise s _ _ _
    · exact with_orph s _
  · have put := (rangeErr s q a b.length).trans (hostCtlWrite _ (s.que q).skirt a b)
    cases src with
    | none => exact put
    | some n => exact put.trans (irq _ n)

end Aside

/-! ### Queues -/

@[simp] theorem State.que_setQue_self (s : State) (q : Nat) (r : QueueRec) : (s.setQue q r).que q = r := by
  simp [State.que, State.setQue]

theorem State.que_setQue_ne (s : State) {p q : Nat} (r : QueueRec) (h : p ≠ q) : (s.setQue q r).que p = s.que p :=
  sGet_sPut_ne _ _ _ _ h

theorem State.que_congr {s t : State} (h : t.qs = s.qs) (q : Nat) : t.que q = s.que q := by simp only [State.que, h]

/-- `t` has the supply of `s`, and in queue `q` the same descriptors in flight, the same count of those completed and the same
tail of the completion queue. -/
structure SameFlight (q : Nat) (s t : State) : Prop where
  power : t.power = s.power
  fly : (t.que q).fly = (s.que q).fly
  done : (t.que q).done = (s.que q).done
  cqTail : (t.que q).cqTail = (s.que q).cqTail

namespace SameFlight

theorem trans {q : Nat} {s t u : State} (h : SameFlight q s t) (h' : SameFlight q t u) : SameFlight q s u :=
  ⟨h'.power.trans h.power, h'.fly.trans h.fly, h'.done.trans h.done, h'.cqTail.trans h.cqTail⟩

theorem of_que {q : Nat} {s t : State} (hp : t.power = s.power) (h : t.que q = s.que q) : SameFlight q s t :=
  ⟨hp, by rw [h], by rw [h], by rw [h]⟩

theorem of_aside {s t : State} (h : Aside s t) (q : Nat) : SameFlight q s t := of_que h.power (State.que_congr h.qs q)

theorem refl (q : Nat) (s : State) : SameFlight q s s := of_que rfl rfl

theorem setQue {q : Nat} (s : State) {r : QueueRec} (hf : r.fly = (s.que q).fly) (hd : r.done = (s.que q).done)
    (ht : r.cqTail = (s.que q).cqTail) : SameFlight q s (s.setQue q r) :=
  ⟨rfl, by simp [hf], by simp [hd], by simp [ht]⟩

theorem queTouch (q : Nat) (s : State) : SameFlight q s (s.queTouch q) := by
  unfold State.queTouch
  split
  · exact refl q s
  · exact of_que rfl rfl

theorem advance (q : Nat) (s : State) : SameFlight q s (s.advance q) := by
  unfold State.advance QueueRec.endProgram
  simp only []
  split
  · exact setQue s rfl rfl rfl
  · split
    · exact setQue s rfl rfl rfl
    · exact setQue s rfl rfl rfl

theorem finishHalt (q : Nat) (s : State) : SameFlight q s (s.finishHalt q) := by
  unfold State.finishHalt
  simp only []
  split
  · exact refl q s
  · split
    · refine .trans ?_ (of_aside (.foldl (fun s (v : Nat × SideSlot) => .freeSlot s v.1) _ _) q)
      exact setQue s rfl rfl rfl
    · refine .trans ?_ (of_aside (.foldl (fun s (v : Nat × SideSlot) => .freeSlot s v.1) _ _) q)
      exact setQue s rfl rfl rfl

end SameFlight

/-- Whether descriptor `d`, completing so, halts its queue (R148). -/
def haltsQueue (d : Desc) (w : Done) : Bool := w.status ≠ 0 && (dFlag d 3 || dOp d = 0x40 || w.halt)

/-- What a queue's record counts once descriptor `d` at ring index `ri` has completed (R146 to R148). -/
def QueueRec.counted (r : QueueRec) (ri : W32) (d : Desc) (w : Done) : QueueRec :=
  { r with
    fly := r.fly.erase ri, done := satAdd 64 r.done 1, reserved := r.reserved - b2n (needsSlot d),
    cqTail := if dFlag d 0 || haltsQueue d w then r.cqTail + 1 else r.cqTail,
    halting := if haltsQueue d w then 1 else r.halting,
    haltEnd := if !haltsQueue d w || r.halting = 1 && 2 ^ 31 ≤ wdiff (r.endOf ri) r.haltEnd then r.haltEnd else r.endOf ri }

/-- Once a completed descriptor is counted, what else its completion does leaves flight, count and tail alone. -/
theorem State.descDone_sameFlight (s : State) (q : Nat) (ri : W32) (d : Desc) (w : Done) :
    SameFlight q (s.setQue q ((s.que q).counted ri d w)) (s.descDone q ri d w) := by
  unfold State.descDone
  extract_lets r halt rec_ n t b r' s1 s2 irq s3 s4
  have touch : SameFlight q (s.setQue q r') s1 := .queTouch q _
  have adv : SameFlight q s1 s2 := by
    dsimp only [s2]
    split
    · exact .refl q s1
    · exact .advance q s1
  have put : SameFlight q s2 s3 := by
    dsimp only [s3]
    split
    · exact .of_aside (.queRecord s2 _ _ _ _) q
    · exact .refl q s2
  have free : SameFlight q s3 s4 := by
    dsimp only [s4]
    split
    · split
      · exact .refl q s3
      · exact .of_aside (.freeSlot s3 _) q
    · exact .refl q s3
  exact ((((touch.trans adv).trans put).trans free).trans (.of_aside (.trace s4 _ _ _ _) q)).trans (.finishHalt q _)

/-- Settles O28: what leaves flight, is counted and recorded is written once, and kept by the rest of the completion. -/
theorem descriptorsComplete : Obligations.DescriptorsComplete := by
  intro s q ri d w
  obtain ⟨_, hf, hd, ht⟩ := s.descDone_sameFlight q ri d w
  rw [State.que_setQue_self] at hf hd ht
  exact ⟨hf, hd, ht⟩

theorem State.jobDone_power (s : State) (j : CtlJob) (a b c e : Nat) : (s.jobDone j a b c e).power = s.power :=
  (State.descDone_sameFlight _ _ _ _ _).power

theorem State.frameSetGo_power (s : State) (j : CtlJob) : (s.frameSetGo j).power = s.power := by
  unfold State.frameSetGo
  extract_lets f n m stop k acc t
  have ht : t.power = s.power := rfl
  split
  · split <;> exact (State.jobDone_power _ _ _ _ _ _).trans ht
  · split
    · exact (State.jobDone_power _ _ _ _ _ _).trans ht
    · exact ht

theorem State.framesOn_power (s : State) : s.framesOn.power = s.power := by
  have go (l : List CtlJob) (s : State) : (l.foldl (fun s j => s.frameSetGo j) s).power = s.power := by
    induction l generalizing s with
    | nil => rfl
    | cons j l ih => exact (ih _).trans (s.frameSetGo_power j)
  exact go _ s

namespace Aside

theorem coreBack (s : State) (n c : Nat) : Aside s (s.coreBack n c) := by
  unfold State.coreBack
  split
  · exact refl s
  · have back := ((setBit s (0x390 + n / 4 * 4) (n % 4 * 8 + c) false).trans (with_rcv _ _)).trans
      (leaseStart ((s.setBit (0x390 + n / 4 * 4) (n % 4 * 8 + c) false).returnDuty n c) 1 (n * 8 + c))
    simp only []
    split
    · exact back
    · exact back.trans (handover _ _)

theorem stationBack (s : State) (n : Nat) (ok : Bool) : Aside s (s.stationBack n ok) := by
  have core (s : State) (c : Nat) :
      Aside s (if s.halted n c then s.coreBack n c else if (s.coresOk n).testBit c then s.leaseStart 1 (n * 8 + c) else s) := by
    split
    · exact coreBack s n c
    · split
      · exact leaseStart s _ _
      · exact refl s
  unfold State.stationBack
  simp only []
  split
  · exact (setBit s _ _ _).trans (lameStation _ _ _)
  · exact ((setBit s _ _ _).trans (foldl core _ _)).trans (leaseRestart _ _)

theorem resetEnd (s : State) : Aside s s.resetEnd := by
  have h := (with_rcv s { s.rcv with reset := none, checking := none })
  exact h.trans ⟨State.cmdEnd_power _ _ _ _, State.cmdEnd_qs _ _ _ _⟩

theorem checkEnds (s : State) : Aside s s.checkEnds := by
  unfold State.checkEnds
  split
  · exact (stationBack s _ _).trans (resetEnd _)
  · exact refl s

end Aside

end Sys2Proof.Machine
end

section
/-! PROOF. The machine (R2, R4, R35, R36, R43): a command that is not of the supply, the reset input or the straps gives its effect in
a block that is up and is passed over in one that is not, with no more than an answer to an access. All that is said of every step
follows from that and from what a tick changes. -/

namespace Sys2Proof.Machine

/-! ### What a command can do -/

/-- An answer to a command that leaves the supply alone: its effect in a block that is up, and nothing but what is sent in one that
is not. -/
def Answers (s : State) (o : Out) : Prop :=
  ∃ u ms, o = .next (if s.power = .up then s.after u else { s with out := ms ++ s.out })

theorem answers_up (s : State) (f : State → State) : Answers s (up s f) := ⟨f s, [], rfl⟩

theorem answers_upElse (s : State) (m : OutMsg) (f : State → State) : Answers s (upElse s m f) := ⟨f s, [m], rfl⟩

theorem answers_upElseS (s : State) (m : OutMsg) (f : State → State) : Answers s (upElseS s m f) := answers_upElse s m _

/-- Every command that does not act on the supply, the reset input or the straps answers so. -/
theorem exec_answers (i : Instr) (s : State) (h : ofSupply i = false) : Answers s (exec i s) := by
  unfold exec
  cases i
  all_goals dsimp only
  case fundamentalReset | powerRemoved | powerApplied | fundamentalResetAssert | strapChange => cases h
  case bklClaim => exact answers_upElse s _ _
  case tileLoad | tileStore | tileFenceAtomic | sizeFaultRead => exact answers_upElseS s _ _
  case configRequest pm fn off w =>
    cases w with
    | none => exact answers_upElseS s _ _
    | some v => exact answers_up s _
  case windowAccess off size w answer =>
    cases w with
    | none => exact answers_upElseS s _ _
    | some v => exact answers_up s _
  all_goals exact answers_up s _

/-- A block that is not up passes over such a command. -/
theorem exec_of_not_up {i : Instr} {s : State} (h : ofSupply i = false) (hs : s.power ≠ .up) :
    ∃ ms, exec i s = .next { s with out := ms ++ s.out } := by
  obtain ⟨u, ms, e⟩ := exec_answers i s h
  exact ⟨ms, by rw [e, if_neg hs]⟩

/-- What every such answer leaves as it was. -/
theorem Answers.next {s : State} {o : Out} (h : Answers s o) : ∃ t, o = .next t ∧ t.pending = s.pending ∧
    t.power = s.power ∧ t.ticks = s.ticks ∧ t.clk.drift = s.clk.drift ∧ t.pins = s.pins := by
  obtain ⟨u, ms, rfl⟩ := h
  refine ⟨_, rfl, ?_⟩
  split
  · exact ⟨rfl, rfl, rfl, rfl, rfl⟩
  · exact ⟨rfl, rfl, rfl, rfl, rfl⟩

/-! ### The boot port and the straps -/

/-- States that differ in no more than registers, the records of the die-to-die ports and what bring-up notes. -/
def SameButPorts (s t : State) : Prop := ∃ r d b, t = { s with regs := r, d2d := d, bu := b }

namespace SameButPorts

theorem trans {s t u : State} (h : SameButPorts s t) (h' : SameButPorts t u) : SameButPorts s u := by
  obtain ⟨r, d, b, rfl⟩ := h
  obtain ⟨r, d, b, rfl⟩ := h'
  exact ⟨r, d, b, rfl⟩

theorem refl (s : State) : SameButPorts s s := ⟨s.regs, s.d2d, s.bu, rfl⟩

theorem putTrip (s : State) (o : Nat) (t : Trip) : SameButPorts s (s.putTrip o t) := ⟨_, s.d2d, s.bu, rfl⟩

theorem foldl {α : Type} {f : State → α → State} (h : ∀ s x, SameButPorts s (f s x)) (l : List α) (s : State) :
    SameButPorts s (l.foldl f s) := by
  induction l generalizing s with
  | nil => exact refl s
  | cons x l ih => exact (h s x).trans (ih (f s x))

theorem latchStraps (s : State) (pins : Byte) : SameButPorts s (s.latchStraps pins) := foldl (fun s _ => putTrip s _ _) _ s

end SameButPorts

/-- The straps are latched in every pommel (R365). -/
theorem State.rd_latchStraps_self (s : State) (pins : Byte) {k : Nat} (hk : k < 4) :
    (s.latchStraps pins).rd (pmReg k 0x30C8) = pins.setWidth 32 := by
  have h4 : List.range 4 = [0, 1, 2, 3] := rfl
  simp only [State.latchStraps, h4, List.foldl_cons, List.foldl_nil, State.rd_wr]
  have : k = 0 ∨ k = 1 ∨ k = 2 ∨ k = 3 := by omega
  rcases this with rfl | rfl | rfl | rfl <;> simp

/-- No other register changes. -/
theorem State.rd_latchStraps_ne (s : State) (pins : Byte) {o : Nat} (h : ∀ k < 4, o ≠ pmReg k 0x30C8) :
    (s.latchStraps pins).rd o = s.rd o := by
  have h4 : List.range 4 = [0, 1, 2, 3] := rfl
  simp only [State.latchStraps, h4, List.foldl_cons, List.foldl_nil, State.rd_wr]
  rw [if_neg (h 3 (by omega)), if_neg (h 2 (by omega)), if_neg (h 1 (by omega)), if_neg (h 0 (by omega))]

/-- The registers of a host port that its training and its measurement write (R364, R370, R483). -/
def LinkReg (k o : Nat) : Prop :=
  pmReg k 0x3080 ≤ o ∧ o < pmReg k 0x30C8 ∨ pmReg k 0x30C8 < o ∧ o ≤ pmReg k 0x30E4

/-- States that differ in no more than the link registers of pommel `k`, the records of the ports and what bring-up notes. -/
structure SameButLink (k : Nat) (s t : State) : Prop where
  same : SameButPorts s t
  rd : ∀ o, ¬ LinkReg k o → t.rd o = s.rd o

namespace SameButLink

theorem trans {k : Nat} {s t u : State} (h : SameButLink k s t) (h' : SameButLink k t u) : SameButLink k s u :=
  ⟨h.same.trans h'.same, fun o ho => (h'.rd o ho).trans (h.rd o ho)⟩

theorem refl (k : Nat) (s : State) : SameButLink k s s := ⟨.refl s, fun _ _ => rfl⟩

theorem foldl {k : Nat} {α : Type} {f : State → α → State} {l : List α} (h : ∀ s, ∀ x ∈ l, SameButLink k s (f s x)) (s : State) :
    SameButLink k s (l.foldl f s) := by
  induction l generalizing s with
  | nil => exact refl k s
  | cons x l ih =>
    exact (h s x (List.mem_cons_self ..)).trans (ih (fun s y hy => h s y (List.mem_cons_of_mem x hy)) (f s x))

theorem wr {k : Nat} (s : State) {o : Nat} (v : W32) (h : LinkReg k o) : SameButLink k s (s.wr o v) :=
  ⟨.putTrip s _ _, fun _ hp => s.rd_wr_ne v fun e => hp (e ▸ h)⟩

theorem setFld {k : Nat} (s : State) {o : Nat} (lo w x : Nat) (h : LinkReg k o) : SameButLink k s (s.setFld o lo w x) :=
  ⟨.putTrip s _ _, fun p hp => by
    rw [State.rd_setFld, if_neg]
    rintro rfl
    exact hp h⟩

theorem setBit {k : Nat} (s : State) {o : Nat} (b : Nat) (v : Bool) (h : LinkReg k o) : SameButLink k s (s.setBit o b v) :=
  setFld s b 1 (b2n v) h

theorem wr64 {k : Nat} (s : State) {o : Nat} (v : Nat) (h : LinkReg k o) (h' : LinkReg k (o + 4)) :
    SameButLink k s (s.wr64 o v) := (wr s _ h).trans (wr _ _ h')

theorem of_regs_eq {k : Nat} {s t : State} (h : SameButPorts s t) (hr : t.regs = s.regs) : SameButLink k s t :=
  ⟨h, fun o _ => State.rd_congr hr o⟩

/-- Which registers of a pommel are of its link. -/
theorem linkReg_pmReg {k x : Nat} (h : 0x3080 ≤ x ∧ x < 0x30C8 ∨ 0x30C8 < x ∧ x ≤ 0x30E4) : LinkReg k (pmReg k x) := by
  unfold LinkReg pmReg
  omega

theorem markLanes (s : State) (k : Nat) (r : LinkRes) : SameButLink k s (s.markLanes k r) := by
  have mark (s : State) (i : Nat) (hi : i ∈ List.range 4) :
      SameButLink k s (s.wr64 (pmReg k (0x30A0 + 8 * i)) (Nat.lor (s.rd64 (pmReg k (0x30A0 + 8 * i))) (badMask r i))) := by
    have := List.mem_range.mp hi
    exact wr64 s _ (linkReg_pmReg (by omega)) (by rw [pmReg, Nat.add_assoc]; exact linkReg_pmReg (by omega))
  exact ((foldl mark s).trans (wr64 _ _ (linkReg_pmReg (by omega)) (linkReg_pmReg (x := 0x30DC) (by omega)))).trans
    (wr64 _ _ (linkReg_pmReg (by omega)) (linkReg_pmReg (x := 0x30E4) (by omega)))

theorem setLink (s : State) (k : Nat) (rot : Bool) (m : Nat) (sp : List Nat) : SameButLink k s (s.setLink k rot m sp) :=
  have ctl : LinkReg k (pmReg k 0x3080) := linkReg_pmReg (by omega)
  have port (s : State) (x : Smap D2d) : SameButLink k s { s with d2d := x } := of_regs_eq ⟨s.regs, x, s.bu, rfl⟩ rfl
  (((((setFld s _ _ _ ctl).trans (setBit _ _ _ ctl)).trans (setBit _ _ _ ctl)).trans (setFld _ _ _ _ ctl)).trans (port _ _)).trans
    (wr _ _ (linkReg_pmReg (by omega)))

theorem bootTrain (s : State) (boot : PortMeas) : SameButLink s.bootPm s (s.bootTrain boot) :=
  have note (k : Nat) (s : State) (x : BringUp) : SameButLink k s { s with bu := x } := of_regs_eq ⟨s.regs, s.d2d, x, rfl⟩ rfl
  ((markLanes s _ _).trans (setLink _ _ _ _ _)).trans (note _ _ _)

end SameButLink

/-- The block as the release of the reset input finds it: powered up, the strap pins set, a value of INCARNATION drawn. -/
def State.releasing (s : State) (pins : Byte) : State :=
  { s with power := .up, pins := pins, freeSeq := s.freeSeq + 1, bu := { s.bu with incSeq := s.freeSeq } }

/-- The block once its reset input is released (R365, R469). -/
def State.afterReset (s : State) (pins : Byte) (boot : PortMeas) : State :=
  (((s.releasing pins).latchStraps pins).bootTrain boot).emit (.i3c 0)

theorem exec_fundamentalReset (pins : Byte) (boot : PortMeas) (s : State) :
    exec (.fundamentalReset pins boot) s = .next (if s.power = .held then s.afterReset pins boot else s) := rfl

theorem State.afterReset_eq (s : State) (pins : Byte) (boot : PortMeas) : ∃ r d b, s.afterReset pins boot =
    ({ s.releasing pins with regs := r, d2d := d, bu := b } : State).emit (.i3c 0) := by
  obtain ⟨r, d, b, h⟩ := (SameButPorts.latchStraps (s.releasing pins) pins).trans (SameButLink.bootTrain _ boot).same
  exact ⟨r, d, b, by rw [State.afterReset, h]⟩

theorem State.afterReset_power (s : State) (pins : Byte) (boot : PortMeas) : (s.afterReset pins boot).power = .up := by
  obtain ⟨r, d, b, h⟩ := s.afterReset_eq pins boot
  rw [h]
  rfl

theorem State.afterReset_pending (s : State) (pins : Byte) (boot : PortMeas) : (s.afterReset pins boot).pending = s.pending := by
  obtain ⟨r, d, b, h⟩ := s.afterReset_eq pins boot
  rw [h]
  rfl

/-- The commands of the supply, the reset input and the straps answer a next state too, and keep the commands waiting. -/
theorem exec_ofSupply_next {i : Instr} (s : State) (h : ofSupply i = true) :
    ∃ t, exec i s = .next t ∧ t.pending = s.pending := by
  cases i <;> try contradiction
  case powerRemoved => exact ⟨_, rfl, rfl⟩
  case powerApplied => exact ⟨_, rfl, by split <;> rfl⟩
  case fundamentalResetAssert => exact ⟨_, rfl, by split <;> rfl⟩
  case fundamentalReset pins boot => exact ⟨_, exec_fundamentalReset pins boot s, by
      split
      · exact s.afterReset_pending pins boot
      · rfl⟩
  case strapChange pins => exact ⟨_, rfl, rfl⟩

/-- Settles O3. -/
theorem everyCommandAnswers : Obligations.EveryCommandAnswers := by
  intro i s
  cases h : ofSupply i with
  | true =>
    obtain ⟨t, e, hp⟩ := exec_ofSupply_next s h
    exact ⟨t, e, hp, fun hf => absurd hf (by decide)⟩
  | false =>
    obtain ⟨t, e, hp, hk⟩ := (exec_answers i s h).next
    exact ⟨t, e, hp, fun _ => hk⟩

/-! ### The queue -/

/-- Settles O1: it is how a step is defined. -/
theorem stepRunsTheFrontCommand : Obligations.StepRunsTheFrontCommand := by
  intro c cs s h
  rw [step, h]

theorem step_of_empty {s : State} (h : s.pending = []) : step s = .next s.tickAll := by rw [step, h]

/-! ### A block that is not up -/

/-- The block at its reset value but for what a block that is not up keeps. -/
def heldState (p : List Instr) (f : Nat) (o : List OutMsg) (pw : Power) (n : Nat) (c : Clock) (pins : Byte) (fu : Fuses)
    (dev host : Mem) (a b : Nat) : State :=
  { State.reset with pending := p, freeSeq := f, out := o, power := pw, ticks := n, clk := c, pins := pins, fuses := fu,
                     dev := dev, host := host, led := { State.reset.led with powerPs := a, hourPs := b } }

theorem heldState_heldOnly (p : List Instr) (f : Nat) (o : List OutMsg) (pw : Power) (n : Nat) (c : Clock) (pins : Byte)
    (fu : Fuses) (dev host : Mem) (a b : Nat) : (heldState p f o pw n c pins fu dev host a b).heldOnly := .inr rfl

theorem State.heldOnly.eq_heldState {s : State} (h : s.heldOnly) (hs : s.power ≠ .up) :
    s = heldState s.pending s.freeSeq s.out s.power s.ticks s.clk s.pins s.fuses s.dev s.host s.led.powerPs s.led.hourPs :=
  h.resolve_left hs

theorem heldOnly_coldReset (s : State) (p : Power) : (s.coldReset p).heldOnly := .inr rfl

/-- What a tick changes may hold any value. -/
theorem State.heldOnly.with_time {s : State} (h : s.heldOnly) (hs : s.power ≠ .up) (n f : Nat) (c : Clock) (fu : Fuses)
    (a b : Nat) : ({ s with ticks := n, freeSeq := f, clk := c, fuses := fu,
                            led := { s.led with powerPs := a, hourPs := b } } : State).heldOnly := by
  rw [h.eq_heldState hs]
  exact heldState_heldOnly s.pending f s.out s.power n c s.pins fu s.dev s.host a b

theorem State.hourStep_eq (s : State) : ∃ fu b, s.hourStep = { s with fuses := fu, led := { s.led with hourPs := b } } := by
  unfold State.hourStep
  split
  · exact ⟨s.fuses, s.led.hourPs, rfl⟩
  · exact ⟨_, _, rfl⟩

/-- What one tick changes. -/
theorem State.clockTick_eq (s : State) : ∃ fu a b, s.clockTick = { s with
    ticks := s.ticks + 1, freeSeq := s.freeSeq + 1, clk := { s.clk with drift := s.drifts }, fuses := fu,
    led := { s.led with powerPs := a, hourPs := b } } := by
  unfold State.clockTick
  obtain ⟨fu, b, e⟩ := State.hourStep_eq _
  exact ⟨fu, _, b, e⟩

theorem heldOnly_clockTick {s : State} (h : s.heldOnly) (hs : s.power ≠ .up) : s.clockTick.heldOnly := by
  obtain ⟨fu, a, b, e⟩ := s.clockTick_eq
  rw [e]
  exact h.with_time hs _ _ _ fu a b

/-- What the supply, the reset input and the straps leave, where it is not up, holds only reset values. -/
theorem heldOnly_exec_ofSupply {i : Instr} {s t : State} (hi : ofSupply i = true) (h : s.heldOnly)
    (e : exec i s = .next t) : t.heldOnly := by
  cases i <;> try contradiction
  case powerRemoved =>
    cases e
    exact .inr rfl
  case powerApplied =>
    cases e
    split
    · exact heldOnly_coldReset s .held
    · exact h
  case fundamentalResetAssert =>
    cases e
    split
    · exact h
    · exact heldOnly_coldReset s .held
  case fundamentalReset pins boot =>
    rw [exec_fundamentalReset] at e
    cases e
    split
    · exact .inl (s.afterReset_power pins boot)
    · exact h
  case strapChange pins =>
    cases e
    rcases h with h | h
    · exact .inl h
    · rw [h]
      exact .inr rfl

/-- What the commands waiting and what was sent are says nothing of reset values. -/
theorem State.heldOnly.with_queue {s : State} (h : s.heldOnly) (p : List Instr) (o : List OutMsg) :
    ({ s with pending := p, out := o } : State).heldOnly := by
  rcases h with h | h
  · exact .inl h
  · rw [h]
    exact .inr rfl

theorem heldOnly_exec {i : Instr} {s t : State} (h : s.heldOnly) (e : exec i s = .next t) : t.heldOnly := by
  cases hi : ofSupply i with
  | true => exact heldOnly_exec_ofSupply hi h e
  | false =>
    obtain ⟨u, ms, he⟩ := exec_answers i s hi
    cases he.symm.trans e
    split
    next hup => exact .inl hup
    next => exact h.with_queue s.pending (ms ++ s.out)

theorem State.clockTick_power (s : State) : s.clockTick.power = s.power := by
  obtain ⟨fu, a, b, e⟩ := s.clockTick_eq
  rw [e]

theorem State.goOn_power (s : State) : s.goOn.power = s.power := (Aside.checkEnds _).power.trans s.framesOn_power

theorem State.emptyFrame_power (s : State) : s.emptyFrame.power = s.power := rfl

/-- A tick leaves the supply as it is. -/
theorem State.tickAll_power (s : State) : s.tickAll.power = s.power := by
  unfold State.tickAll
  split
  · rfl
  · exact s.clockTick_power
  · split
    · exact (State.goOn_power _).trans s.clockTick_power
    · exact (State.goOn_power _).trans ((State.emptyFrame_power _).trans s.clockTick_power)

theorem heldOnly_tickAll {s : State} (h : s.heldOnly) : s.tickAll.heldOnly := by
  match hp : s.power with
  | .up => exact .inl (s.tickAll_power.trans hp)
  | .held =>
    have e : s.tickAll = s.clockTick := by rw [State.tickAll, hp]
    rw [e]
    exact heldOnly_clockTick h (by rw [hp]; decide)
  | .off =>
    have e : s.tickAll = s := by rw [State.tickAll, hp]
    rw [e]
    exact h

/-- Settles O4. -/
theorem notUpHoldsOnlyResetValues : Obligations.NotUpHoldsOnlyResetValues := by
  intro s t h e
  match hp : s.pending with
  | [] =>
    cases (step_of_empty hp).symm.trans e
    exact heldOnly_tickAll h
  | c :: cs =>
    rw [stepRunsTheFrontCommand c cs s hp] at e
    exact heldOnly_exec (h.with_queue cs s.out) e

theorem run_succ_of_step (M : Host.Core) {s t : M.State} (e : M.step s = .next t) (n : Nat) : M.run (n + 1) s = M.run n t := by
  rw [Host.Core.run, e]

/-- Settles O6. -/
theorem notUpIgnoresCommands : Obligations.NotUpIgnoresCommands := by
  intro cs
  induction cs with
  | nil =>
    intro s _ hp _
    refine ⟨[], ?_⟩
    cases s
    cases hp
    rfl
  | cons c cs ih =>
    intro s hs hp hc
    obtain ⟨ms, e⟩ := exec_of_not_up (s := { s with pending := cs }) (hc c (List.mem_cons_self ..)) hs
    obtain ⟨ns, e'⟩ := ih { s with pending := cs, out := ms ++ s.out } hs rfl fun d hd => hc d (List.mem_cons_of_mem c hd)
    refine ⟨ns ++ ms, ?_⟩
    rw [List.length_cons, run_succ_of_step Sys2Proof.core ((stepRunsTheFrontCommand c cs s hp).trans e), e', List.append_assoc]

/-- Settles O5. -/
theorem resetHoldsOnlyResetValues : Obligations.ResetHoldsOnlyResetValues :=
  ⟨.inr rfl, by decide⟩

/-! ### A tick -/

theorem sGet_sIns (m : Smap Nat) (k j v : Nat) : sGet 0 (sIns m k v) j = if j = k then v else sGet 0 m j := by
  unfold sGet
  split
  · subst_vars
    simp
  · rw [sFind_sIns_ne m v ‹_›]

/-- A pass that may add one at each key of a list adds at most one at any key that the list holds once. -/
theorem sGet_foldl_bump (g : Smap Nat → Nat → Bool) (l : List Nat) (hl : l.Nodup) (m : Smap Nat) (k : Nat) :
    let r := sGet 0 (l.foldl (fun m n => if g m n then sIns m n (sGet 0 m n + 1) else m) m) k
    sGet 0 m k ≤ r ∧ r ≤ sGet 0 m k + 1 ∧ (k ∉ l → r = sGet 0 m k) := by
  induction l generalizing m with
  | nil => exact ⟨Nat.le_refl _, Nat.le_succ _, fun _ => rfl⟩
  | cons n l ih =>
    obtain ⟨hn, hl⟩ := List.nodup_cons.mp hl
    rw [List.foldl_cons]
    obtain ⟨h1, h2, h3⟩ := ih hl (if g m n then sIns m n (sGet 0 m n + 1) else m)
    by_cases hk : k = n
    · subst hk
      have h0 : sGet 0 m k ≤ sGet 0 (if g m k then sIns m k (sGet 0 m k + 1) else m) k ∧
          sGet 0 (if g m k then sIns m k (sGet 0 m k + 1) else m) k ≤ sGet 0 m k + 1 := by
        split
        · simp [sGet_sIns]
        · exact ⟨Nat.le_refl _, Nat.le_succ _⟩
      rw [h3 hn]
      exact ⟨h0.1, h0.2, fun h => absurd (List.mem_cons_self ..) h⟩
    · have h0 : sGet 0 (if g m n then sIns m n (sGet 0 m n + 1) else m) k = sGet 0 m k := by
        split
        · rw [sGet_sIns, if_neg hk]
        · rfl
      rw [h0] at h1 h2 h3
      exact ⟨h1, h2, fun h => h3 fun hm => h (List.mem_cons_of_mem n hm)⟩

/-- In a tick the count of every oscillator beyond the slowest rises by one at most (R43). -/
theorem State.drifts_range (s : State) (n : Nat) :
    sGet 0 s.clk.drift n ≤ sGet 0 s.drifts n ∧ sGet 0 s.drifts n ≤ sGet 0 s.clk.drift n + 1 := by
  obtain ⟨h1, h2, _⟩ := sGet_foldl_bump
    (fun m n => decide (2 * (sGet 0 m n + 1) ≤ s.ticks + 1) && Config.oscillator s.freeSeq n) (List.range 100)
    List.nodup_range s.clk.drift n
  exact ⟨h1, h2⟩

theorem State.tk_clockTick (s : State) (n : Nat) :
    s.clockTick.tk n = s.ticks + 1 + sGet 0 s.drifts (if n = 0x80 then 80 else n) := by
  obtain ⟨fu, a, b, e⟩ := s.clockTick_eq
  rw [e]
  rfl

theorem State.clockTick_tk_range (s : State) (n : Nat) : s.tk n + 1 ≤ s.clockTick.tk n ∧ s.clockTick.tk n ≤ s.tk n + 2 := by
  rw [s.tk_clockTick, State.tk]
  have := s.drifts_range (if n = 0x80 then 80 else n)
  omega

/-- A tick with no hour step due (R52, R55). -/
theorem State.clockTick_of_no_hour (s : State)
    (h : s.led.hourPs + (s.clockTick.tk 80 - s.tk 80) * s.tickPs 80 < hourPs) :
    s.clockTick = { s with
      ticks := s.ticks + 1, freeSeq := s.freeSeq + 1, clk := { s.clk with drift := s.drifts },
      led := { s.led with powerPs := s.led.powerPs + (s.clockTick.tk 80 - s.tk 80) * s.tickPs 80,
                          hourPs := s.led.hourPs + (s.clockTick.tk 80 - s.tk 80) * s.tickPs 80 } } := by
  rw [s.tk_clockTick] at h ⊢
  rw [State.clockTick, State.hourStep, if_pos]
  · rfl
  · exact h

/-- Settles O2. -/
theorem emptyQueueTicks : Obligations.EmptyQueueTicks := by
  intro s hp
  refine ⟨fun h => ?_, fun h => ?_, fun h => ?_, fun n _ => s.clockTick_tk_range n, fun h => ?_⟩
  · rw [step_of_empty hp, State.tickAll, h]
  · rw [step_of_empty hp, State.tickAll, h]
  · rw [step_of_empty hp, State.tickAll, h]
  · obtain ⟨fu, a, b, e⟩ := s.clockTick_eq
    have hclk : s.clockTick.clk = { s.clk with drift := s.drifts } := by rw [e]
    rw [hclk]
    exact s.clockTick_of_no_hour h

/-! ### The supply, the reset input and the straps -/

theorem State.afterReset_rd (s : State) (pins : Byte) (boot : PortMeas) {o : Nat} (h : ∀ k, ¬ LinkReg k o) :
    (s.afterReset pins boot).rd o = ((s.releasing pins).latchStraps pins).rd o := by
  rw [State.afterReset, State.rd_congr (State.emit_regs _ _)]
  exact (SameButLink.bootTrain ((s.releasing pins).latchStraps pins) boot).rd o (h _)

theorem not_linkReg_straps {j : Nat} (k : Nat) : ¬ LinkReg k (pmReg j 0x30C8) := by
  unfold LinkReg pmReg pageOf
  omega

theorem State.afterReset_bootRes (s : State) (pins : Byte) (boot : PortMeas) :
    (s.afterReset pins boot).bu.bootRes = some (judgeHost 9 boot) := rfl

/-- The release of the reset input leaves a block that held reset values in BRING_UP with STEP 0. -/
theorem State.afterReset_blkState {s : State} (h : s.heldOnly) (hs : s.power = .held) (pins : Byte) (boot : PortMeas) :
    (s.afterReset pins boot).rd 0x08 = regReset 0x08 := by
  have hn : ∀ k < 4, 0x08 ≠ pmReg k 0x30C8 := by
    unfold pmReg pageOf
    omega
  rw [s.afterReset_rd pins boot (fun k => by unfold LinkReg pmReg pageOf; omega), State.rd_latchStraps_ne _ _ hn]
  have hr : (s.releasing pins).regs = [] := congrArg State.regs (h.eq_heldState (by rw [hs]; decide))
  rw [State.rd, State.trip, hr]
  exact maj_same _

/-- Settles O8. -/
theorem supplyAndReset : Obligations.SupplyAndReset := by
  refine ⟨fun _ => rfl, fun s h => ?_, fun s h => ?_, fun _ _ => rfl, fun s pins boot hs h => ?_⟩
  · exact congrArg Host.Outcome.next (if_pos h)
  · exact congrArg Host.Outcome.next (if_neg h)
  · have hblk := State.afterReset_blkState h hs pins boot
    obtain ⟨r, d, b, e⟩ := s.afterReset_eq pins boot
    refine ⟨s.afterReset pins boot, by rw [exec_fundamentalReset, if_pos hs], s.afterReset_power pins boot, ?_, ?_,
      s.afterReset_pending pins boot, ?_, ?_, ?_, ?_, ?_, fun k hk => ?_, s.afterReset_bootRes pins boot⟩
    · rw [e]; rfl
    · rw [e]; rfl
    · rw [e]; rfl
    · rw [e]; rfl
    · rw [e]; rfl
    · rw [State.phase, State.fld, hblk]; decide
    · rw [State.stepNo, State.fld, hblk]; decide
    · rw [s.afterReset_rd pins boot not_linkReg_straps, State.rd_latchStraps_self _ _ hk]

end Sys2Proof.Machine
end

section
/-! PROOF. Fence words (R120, R121), votes (R65), and how a descriptor starts (R145, R146, R150). -/

namespace Sys2Proof.Machine

/-! ### Fence words -/

/-- What an operation on a fence word gives, case by case (R120). -/
theorem fenceSignal_cases (w v : Nat) :
    2 ^ 63 ≤ v ∧ fenceSignal w v = (w, 2) ∨ v < 2 ^ 63 ∧ (2 ^ 63 ≤ w ∨ v < w) ∧ fenceSignal w v = (w, 1) ∨
      v < 2 ^ 63 ∧ w < 2 ^ 63 ∧ w ≤ v ∧ fenceSignal w v = (v, 0) := by
  unfold fenceSignal
  split
  · exact .inl ⟨‹_›, rfl⟩
  split
  · exact .inr (.inl ⟨by omega, .inl ‹_›, rfl⟩)
  split
  · exact .inr (.inl ⟨by omega, .inr ‹_›, rfl⟩)
  · exact .inr (.inr ⟨by omega, by omega, by omega, rfl⟩)

theorem fenceSignal_rules {w v : Nat} (hw : w < 2 ^ 64) :
    w ≤ (fenceSignal w v).1 ∧ ((fenceSignal w v).1 ≠ w ↔ v < 2 ^ 63 ∧ w < v) ∧ ((fenceSignal w v).1 ≠ w → (fenceSignal w v).1 = v) ∧
    ((fenceSignal w v).2 = 2 ↔ 2 ^ 63 ≤ v) ∧ ((fenceSignal w v).2 = 1 ↔ v < 2 ^ 63 ∧ (2 ^ 63 ≤ w ∨ v < w % 2 ^ 63)) := by
  rcases fenceSignal_cases w v with ⟨hv, h⟩ | ⟨hv, hl, h⟩ | ⟨hv, hw, hle, h⟩ <;> rw [h] <;> dsimp only <;> omega

/-- What a wait finds in a fence word (R121). -/
theorem waitEval_cases (w x : Nat) :
    x ≤ w % 2 ^ 63 ∧ waitEval w x = 0 ∨ w % 2 ^ 63 < x ∧ 2 ^ 63 ≤ w ∧ waitEval w x = 8 ∨
      w % 2 ^ 63 < x ∧ w < 2 ^ 63 ∧ waitEval w x = 255 := by
  unfold waitEval
  split
  · exact .inl ⟨‹_›, rfl⟩
  split
  · exact .inr (.inl ⟨by omega, ‹_›, rfl⟩)
  · exact .inr (.inr ⟨by omega, by omega, rfl⟩)

theorem waitEval_rules (w x : Nat) :
    (waitEval w x = 0 ↔ x ≤ w % 2 ^ 63) ∧ (waitEval w x = 8 ↔ w % 2 ^ 63 < x ∧ 2 ^ 63 ≤ w) ∧
      (waitEval w x = 255 ↔ w % 2 ^ 63 < x ∧ w < 2 ^ 63) := by
  rcases waitEval_cases w x with ⟨hx, h⟩ | ⟨hx, hw, h⟩ | ⟨hx, hw, h⟩ <;> rw [h] <;> omega

/-- A wait that is satisfied stays so, whatever is signalled. -/
theorem waitEval_fenceSignal {w v x : Nat} (h : waitEval w x = 0) : waitEval (fenceSignal w v).1 x = 0 := by
  rw [(waitEval_rules _ _).1] at h ⊢
  rcases fenceSignal_cases w v with ⟨_, e⟩ | ⟨_, _, e⟩ | ⟨hv, hw, hle, e⟩ <;> rw [e]
  · exact h
  · exact h
  · rw [Nat.mod_eq_of_lt hw] at h
    rw [Nat.mod_eq_of_lt hv]
    exact Nat.le_trans h hle

/-- Settles O29. -/
theorem fenceRules : Obligations.FenceRules :=
  ⟨fun _ _ hw _ => fenceSignal_rules hw, fun w x _ _ => waitEval_rules w x, fun _ _ _ _ _ h => waitEval_fenceSignal h⟩

/-! ### Votes -/

theorem getLsbD_maj (t : Trip) (i : Nat) :
    (maj t).getLsbD i = decide (2 ≤ b2n (t.a.getLsbD i) + b2n (t.b.getLsbD i) + b2n (t.c.getLsbD i)) := by
  simp only [maj, BitVec.getLsbD_or, BitVec.getLsbD_and]
  cases t.a.getLsbD i <;> cases t.b.getLsbD i <;> cases t.c.getLsbD i <;> rfl

/-- An upset of one copy is outvoted. -/
theorem maj_of_upset {t : Trip} {v x : W32} (h : t = ⟨x, v, v⟩ ∨ t = ⟨v, x, v⟩ ∨ t = ⟨v, v, x⟩) : maj t = v := by
  apply BitVec.eq_of_getLsbD_eq
  intro i _
  rw [getLsbD_maj]
  rcases h with rfl | rfl | rfl <;> cases v.getLsbD i <;> cases x.getLsbD i <;> rfl

/-- Settles O14. -/
theorem voteIsTheMajority : Obligations.VoteIsTheMajority := by
  refine ⟨getLsbD_maj, fun s off v x h => ?_⟩
  have hm := maj_of_upset h
  exact ⟨hm, by rw [State.wr, State.trip_putTrip_self, hm]⟩

/-! ### How a descriptor starts -/

/-- Only a queue that can start a descriptor is served. -/
theorem State.canStart_of_mem_served {s : State} {q k : Nat} (h : q ∈ s.served k) : s.canStart q = true := by
  unfold State.served at h
  have h := (List.mem_filter.mp h).1
  split at h
  · exact (List.mem_filter.mp (List.mem_filter.mp h).1).2
  · exact (List.mem_filter.mp h).2

theorem State.inOrder_of_mayStart {s : State} {q : Nat} (h : s.mayStart q = true) : s.inOrder q = true := by
  have hq : q ∈ s.served (s.que q).skirt := List.contains_iff_mem.mp (Bool.and_eq_true_iff.mp h).1
  exact (Bool.and_eq_true_iff.mp (canStart_of_mem_served hq)).1

/-- What a start needs (R145, R146). -/
theorem State.inOrder_spec {s : State} {q : Nat} {d : Desc} (h : s.inOrder q = true) (hd : (s.que q).atNext = some d) :
    s.queRuns q = true ∧ (s.que q).fly.length < (s.que q).depth ∧ s.queBlocked q = false ∧
      (dFlag d 2 = true ∨ dOp d = 0x41 ∨ dOp d = 0x42 → (s.que q).fly = []) ∧
      (needsSlot d = true → 0 < (s.que q).cqFree) := by
  unfold State.inOrder at h
  simp only [hd, Bool.and_eq_true, Bool.or_eq_true, Bool.not_eq_true', decide_eq_true_eq, List.isEmpty_iff] at h
  obtain ⟨hrun, (⟨⟨⟨hlen, hblk⟩, halone⟩, hslot⟩), -⟩ := h
  refine ⟨hrun, hlen, hblk, fun ha => ?_, fun hn => ?_⟩
  · rcases halone with hno | he
    · rcases ha with ha | ha | ha <;> simp [ha] at hno
    · exact he
  · rcases hslot with hno | hfree
    · rw [hn] at hno; cases hno
    · exact hfree

theorem QueueRec.checked_of_atNext {r : QueueRec} {d : Desc} (h : r.atNext = some d) : r.checked = true := by
  unfold QueueRec.atNext at h
  split at h
  · assumption
  · cases h

theorem QueueRec.endProgram_next (r : QueueRec) : r.endProgram.next = r.next := by
  unfold QueueRec.endProgram
  split <;> rfl

theorem QueueRec.endProgram_fly (r : QueueRec) : r.endProgram.fly = r.fly := by
  unfold QueueRec.endProgram
  split <;> rfl

theorem State.que_queTouch (s : State) (q p : Nat) : (s.queTouch q).que p = s.que p := by
  unfold State.queTouch
  split <;> rfl

theorem State.que_trace (s : State) (cls st obj arg p : Nat) : (s.trace cls st obj arg).que p = s.que p :=
  State.que_congr (Aside.trace s cls st obj arg).qs p

/-- The record of a queue that starts the descriptor `d` at its NEXT (R146, R150). -/
def QueueRec.started (r : QueueRec) (d : Desc) : QueueRec :=
  let t := { r with next := r.next + 1, fly := r.fly ++ [r.next], reserved := r.reserved + b2n (needsSlot d) }
  if dOp d = 0x40 || dOp d = 0x42 || dOp d = 0x43 then t else t.endProgram

theorem QueueRec.started_next (r : QueueRec) (d : Desc) : (r.started d).next = r.next + 1 := by
  simp only [QueueRec.started]
  split
  · rfl
  · exact QueueRec.endProgram_next _

theorem QueueRec.started_fly (r : QueueRec) (d : Desc) : (r.started d).fly = r.fly ++ [r.next] := by
  simp only [QueueRec.started]
  split
  · rfl
  · exact QueueRec.endProgram_fly _

/-- What a start gives, and that it needs the scheduler's leave and the descriptor at NEXT. -/
theorem State.start_eq_some {s t : State} {q : Nat} {d : Desc} {ri : W32} (h : s.start q d = some (ri, t)) :
    s.mayStart q = true ∧ (s.que q).atNext = some d ∧ ri = (s.que q).next ∧
      t = (((s.payStart q).setQue q ((s.que q).started d)).queTouch q).trace 1 (s.queStation q) q (s.que q).next.toNat := by
  unfold State.start at h
  simp only [] at h
  split at h
  · cases h
  · rename_i hg
    rw [Bool.or_eq_true, not_or, Bool.not_eq_true', Bool.not_eq_false] at hg
    simp only [Option.some.injEq, Prod.mk.injEq] at h
    exact ⟨hg.1, by simpa using hg.2, h.1.symm, h.2.symm⟩

/-- A start touches the queues' own system, and what a trace record touches. -/
theorem State.started_same (s : State) (q : Nat) (r : QueueRec) (a b c e : Nat) :
    ∃ x, SameButTrace { s with qs := x } ((((s.payStart q).setQue q r).queTouch q).trace a b c e) := by
  have put (t : State) (r : QueueRec) : ∃ x, (t.setQue q r).queTouch q = { t with qs := x } := by
    unfold State.queTouch
    split
    · exact ⟨_, rfl⟩
    · exact ⟨_, rfl⟩
  have pay : ∃ x, s.payStart q = { s with qs := x } := ⟨_, rfl⟩
  obtain ⟨y, hy⟩ := pay
  rw [hy]
  obtain ⟨x, hx⟩ := put { s with qs := y } r
  rw [hx]
  exact ⟨x, SameButTrace.trace _ a b c e⟩

/-- Settles O27. -/
theorem descriptorsStartInOrder : Obligations.DescriptorsStartInOrder := by
  intro s t q d ri h
  obtain ⟨hmay, hd, hri, rfl⟩ := State.start_eq_some h
  obtain ⟨hrun, hlen, hblk, halone, hslot⟩ := State.inOrder_spec (State.inOrder_of_mayStart hmay) hd
  obtain ⟨x, r, m, g, e, b, c, o, hsame⟩ := s.started_same q ((s.que q).started d) 1 (s.queStation q) q (s.que q).next.toNat
  have hque (p : Nat) : (((((s.payStart q).setQue q ((s.que q).started d)).queTouch q).trace 1 (s.queStation q) q
      (s.que q).next.toNat).que p) = ((s.payStart q).setQue q ((s.que q).started d)).que p := by
    rw [State.que_trace, State.que_queTouch]
  refine ⟨hri, QueueRec.checked_of_atNext hd, hrun, hlen, hblk, halone, hslot, ?_, ?_, fun p hp => ?_, ?_⟩
  · rw [hque, State.que_setQue_self, QueueRec.started_next, hri]
  · rw [hque, State.que_setQue_self, QueueRec.started_fly, hri]
  · rw [hque, State.que_setQue_ne _ _ hp]
    rfl
  · rw [hsame]
    exact ⟨rfl, rfl, rfl, rfl, rfl⟩

end Sys2Proof.Machine
end

section
/-! PROOF. Buckle (R402 to R412): which source a claim takes, what its events and commands give, and what they leave alone. -/

namespace Sys2Proof.Machine

/-! ### Claims -/

/-- In a map with rising keys every key is below those after it. -/
theorem pairwise_of_sSorted {β : Type} {lo : Option Nat} {m : Smap β} (h : sSorted lo m = true) :
    m.Pairwise (fun a b => a.1 < b.1) ∧ ∀ l, lo = some l → ∀ p ∈ m, l < p.1 := by
  induction m generalizing lo with
  | nil => exact ⟨.nil, fun _ _ p hp => absurd hp List.not_mem_nil⟩
  | cons e m ih =>
    obtain ⟨j, w⟩ := e
    simp only [sSorted, Bool.and_eq_true] at h
    obtain ⟨hpw, hlow⟩ := ih h.2
    refine ⟨List.pairwise_cons.mpr ⟨fun p hp => hlow j rfl p hp, hpw⟩, fun l hl p hp => ?_⟩
    subst hl
    have hlj : l < j := by simpa using h.1
    rcases List.mem_cons.mp hp with rfl | hp
    · exact hlj
    · exact Nat.lt_trans hlj (hlow j rfl p hp)

theorem bestSrc_eq_none_iff (l : List (Nat × Src)) : bestSrc l = none ↔ l = [] := by
  cases l with
  | nil => exact iff_of_true rfl rfl
  | cons a l =>
    refine iff_of_false ?_ (List.cons_ne_nil a l)
    unfold bestSrc
    split
    · simp
    · split <;> simp

/-- The best source of a list with rising numbers is one of them that no other beats (R406). -/
theorem bestSrc_spec {l : List (Nat × Src)} {b : Nat × Src} (hl : l.Pairwise fun a b => a.1 < b.1) (h : bestSrc l = some b) :
    b ∈ l ∧ ∀ a ∈ l, a.2.prio < b.2.prio ∨ a.2.prio = b.2.prio ∧ a.1 ≤ b.1 := by
  induction l generalizing b with
  | nil => cases h
  | cons x l ih =>
    obtain ⟨hx, hl⟩ := List.pairwise_cons.mp hl
    unfold bestSrc at h
    split at h
    next hn =>
      cases h
      rw [(bestSrc_eq_none_iff l).mp hn]
      refine ⟨List.mem_cons_self .., fun a ha => ?_⟩
      rw [List.mem_singleton.mp ha]
      exact .inr ⟨rfl, Nat.le_refl _⟩
    next _ hy =>
      obtain ⟨hm, hbest⟩ := ih hl hy
      split at h
      next hlt =>
        cases h
        refine ⟨List.mem_cons_self .., fun a ha => ?_⟩
        rcases List.mem_cons.mp ha with rfl | ha
        · exact .inr ⟨rfl, Nat.le_refl _⟩
        · have := hbest a ha
          omega
      next hge =>
        cases h
        refine ⟨List.mem_cons_of_mem x hm, fun a ha => ?_⟩
        rcases List.mem_cons.mp ha with rfl | ha
        · have := hx b hm
          omega
        · exact hbest a ha

/-- The sources of a claim are those that make its target's level (R406). -/
theorem Buckle.claimable_eq_nil_iff (b : Buckle) (t : Nat) : b.claimable t = [] ↔ b.level t = false := by
  unfold Buckle.claimable Buckle.level
  cases (b.tgt t).en with
  | false => simp
  | true => simp [List.filter_eq_nil_iff]

theorem Buckle.claim_of_level {b : Buckle} {t : Nat} (h : b.level t = true) :
    ∃ p, bestSrc (b.claimable t) = some p ∧
      b.claim t = (p.1 + 0x1000 * p.2.prio + 0x80000000, b.setSrc p.1 { p.2 with st := .inService }) := by
  have hne : bestSrc (b.claimable t) ≠ none := fun hn => by
    rw [(b.claimable_eq_nil_iff t).mp ((bestSrc_eq_none_iff _).mp hn)] at h
    cases h
  obtain ⟨p, hp⟩ := Option.ne_none_iff_exists'.mp hne
  exact ⟨p, hp, by rw [Buckle.claim, hp]⟩

theorem Buckle.claim_of_not_level {b : Buckle} {t : Nat} (h : b.level t = false) : b.claim t = (0, b) := by
  rw [Buckle.claim, (b.claimable_eq_nil_iff t).mpr h]
  rfl

theorem Buckle.claim_eq_zero_iff (b : Buckle) (t : Nat) : (b.claim t).1 = 0 ↔ b.level t = false := by
  cases h : b.level t with
  | false => exact iff_of_true (by rw [Buckle.claim_of_not_level h]) rfl
  | true =>
    obtain ⟨p, -, e⟩ := Buckle.claim_of_level h
    exact iff_of_false (by rw [e]; dsimp only; omega) (by decide)

/-- Settles O18. -/
theorem claimTakesTheBestSource : Obligations.ClaimTakesTheBestSource := by
  refine ⟨Buckle.claim_eq_zero_iff, fun b t => Buckle.claim_of_not_level, fun b t hs hl => ?_⟩
  obtain ⟨⟨n, v⟩, hbest, hclaim⟩ := Buckle.claim_of_level hl
  have hen : (b.tgt t).en = true := (Bool.and_eq_true_iff.mp hl).1
  have hc : b.claimable t = b.srcs.filter fun p => p.2.st = .pending && p.2.target = some t && p.2.enable &&
      (b.tgt t).thresh ≤ p.2.prio := by rw [Buckle.claimable, hen]; rfl
  rw [hc] at hbest
  obtain ⟨hmem, hall⟩ := bestSrc_spec ((pairwise_of_sSorted hs).1.filter _) hbest
  simp only [List.mem_filter, Bool.and_eq_true, decide_eq_true_eq] at hmem hall
  obtain ⟨hin, ⟨⟨hpend, htgt⟩, henab⟩, hthr⟩ := hmem
  exact ⟨n, v, hin, hpend, htgt, henab, hthr,
    fun m u hu hp ht he hth => hall (m, u) ⟨hu, ⟨⟨hp, ht⟩, he⟩, hth⟩, hclaim⟩

/-! ### The frame of Buckle's commands -/

/-- States that differ in no more than the intervals, Buckle's records, the side streams and what was sent. -/
def SameButBuckle (s t : State) : Prop :=
  ∃ c b d o, t = { s with clk := { s.clk with timers := c }, bkl := b, d2d := d, out := o }

namespace SameButBuckle

theorem refl (s : State) : SameButBuckle s s := ⟨s.clk.timers, s.bkl, s.d2d, s.out, rfl⟩

theorem trans {s t u : State} (h : SameButBuckle s t) (h' : SameButBuckle t u) : SameButBuckle s u := by
  obtain ⟨c, b, d, o, rfl⟩ := h
  obtain ⟨c, b, d, o, rfl⟩ := h'
  exact ⟨c, b, d, o, rfl⟩

theorem onBkl (s : State) (f : Buckle → Buckle) : SameButBuckle s (s.onBkl f) := by
  obtain ⟨b, d, o, h⟩ := s.onBkl_eq f
  exact ⟨s.clk.timers, b, d, o, h⟩

theorem timerSet (s : State) (t : Timer) (unit n : Nat) : SameButBuckle s (s.timerSet t unit n) :=
  ⟨_, s.bkl, s.d2d, s.out, rfl⟩

theorem sideMsg (s : State) (k m ty pa : Nat) (pl : Bytes) : SameButBuckle s (s.sideMsg k m ty pa pl) :=
  ⟨s.clk.timers, s.bkl, _, _, rfl⟩

theorem levelSnapshot (s : State) (k : Nat) : SameButBuckle s (s.levelSnapshot k) :=
  have sent (t : State) (b : Buckle) : SameButBuckle t { t with bkl := b } := ⟨t.clk.timers, b, t.d2d, t.out, rfl⟩
  ((sideMsg s _ _ _ _ _).trans (sideMsg _ _ _ _ _ _)).trans (sent _ _)

/-- A command with such an effect changes no more than that, in a block that is up and in one that is not. -/
theorem of_up {s t : State} {f : State → State} (h : SameButBuckle s (f s)) (e : up s f = .next t) : SameButBuckle s t := by
  cases e
  unfold State.whenUp
  split
  · obtain ⟨c, b, d, o, hf⟩ := h
    rw [hf]
    exact ⟨c, b, d, o, rfl⟩
  · exact refl s

end SameButBuckle

/-- Settles O20. -/
theorem buckleCommandsFrame : Obligations.BuckleCommandsFrame := by
  rintro s t i (⟨fn, n, src, rfl⟩ | ⟨fn, src, rfl⟩ | ⟨fn, n, v, hth, rfl⟩ | ⟨m, w, v, rfl⟩ | ⟨fn, n, v, rfl⟩ | ⟨die, rfl⟩) e
  · refine SameButBuckle.of_up (f := fun s => s.bklDone fn n src) ?_ e
    unfold State.bklDone
    simp only []
    split
    · exact .refl s
    · exact .onBkl s _
  · refine SameButBuckle.of_up (f := fun s => s.bklSet fn src) ?_ e
    unfold State.bklSet
    simp only []
    split
    · exact .refl s
    · exact .onBkl s _
  · refine SameButBuckle.of_up (f := fun s => s.bklTgtWrite fn n v) ?_ e
    unfold State.bklTgtWrite
    simp only [if_pos hth]
    split
    · exact .refl s
    · exact .onBkl s _
  · refine SameButBuckle.of_up (f := fun s => s.bklTsetWrite m w v) ?_ e
    unfold State.bklTsetWrite
    split
    · exact .refl s
    · exact .onBkl s _
  · refine SameButBuckle.of_up (f := fun s => s.bklSrcWrite fn n v) ?_ e
    unfold State.bklSrcWrite
    simp only []
    split
    · exact .refl s
    · exact .onBkl s _
  · refine SameButBuckle.of_up ?_ e
    split
    · exact .refl s
    · split
      · exact (SameButBuckle.timerSet s _ _ _).trans (.levelSnapshot _ _)
      · exact .refl s

/-! ### What Buckle's events and commands give -/

/-- The operator reaches everything (R412). -/
@[simp] theorem State.fnReaches_zero (s : State) (o : Bool) (p : Nat) : s.fnReaches 0 o p = true := rfl

theorem Buckle.event_cases (b : Buckle) (n : Nat) :
    ((b.src n).st = .idle → b.event n = (b.setSrc n { b.src n with st := .pending }).assign n) ∧
    ((b.src n).st = .pending → b.event n = b) ∧
    ((b.src n).st = .inService → b.event n = { b.flag 0 with lostLast := n }) := by
  refine ⟨fun h => ?_, fun h => ?_, fun h => ?_⟩ <;> rw [Buckle.event] <;> simp only [h]

theorem State.onBkl_congr {s : State} {f g : Buckle → Buckle} (h : f s.bkl = g s.bkl) : s.onBkl f = s.onBkl g := by
  rw [State.onBkl, State.onBkl, h]

theorem State.bklDone_operator (s : State) {t : Nat} (n : Nat) (ht : t < 256) :
    s.bklDone 0 t n = s.onBkl fun b => if (b.src n).st = .inService ∧ (b.src n).target = some t then
      b.setSrc n { b.src n with st := .idle, target := none } else b.flag 1 := by
  have : ¬ 256 ≤ t := by omega
  simp [State.bklDone, this]

theorem State.bklSet_operator (s : State) {n : Nat} (hn : n < 0xCE8) : s.bklSet 0 n = s.irq n := by
  have : ¬ 0xCE8 ≤ n := by omega
  simp [State.bklSet, this]

theorem State.bklTgtWrite_operator (s : State) {t : Nat} {v : W32} (ht : t < 256) (hv : getBits v 4 5 ≤ 16) :
    s.bklTgtWrite 0 t v = s.onBkl fun b => b.setTgt t
      { en := v.getLsbD 0, thresh := getBits v 4 5, part := getBits v 16 6, owned := v.getLsbD 22 } := by
  have : ¬ 256 ≤ t := by omega
  simp [State.bklTgtWrite, this, hv]

theorem State.bklSrcWrite_operator (s : State) {n : Nat} (v : W32) (hn : n < 0xC00) :
    s.bklSrcWrite 0 n v = s.onBkl fun b => b.setSrc n { s.bkl.src n with
      prio := getBits v 0 4, enable := v.getLsbD 10, set := getBits v 4 6, part := getBits v 22 6, owned := v.getLsbD 28 } := by
  have h1 : ¬ 0xCE8 ≤ n := by omega
  have h2 : ¬ 0xC00 ≤ n := by omega
  simp [State.bklSrcWrite, h1, h2]

/-- Settles O19. -/
theorem buckleCommands : Obligations.BuckleCommands := by
  refine ⟨Buckle.event_cases, fun s t h => ⟨fun hl => ?_, fun hl => ?_⟩, fun s t n h ht => ⟨fun hst htg => ?_, fun hst => ?_⟩,
    fun s n h hn => ?_, fun s t v h ht hv => ?_, fun s m w v h hm hw => ?_, fun s n v h hn => ?_,
    fun s die k h hc ht hl => ?_, fun s fn t h => ?_⟩
  · refine (congrArg Host.Outcome.next (if_pos h)).trans ?_
    simp only [State.fnReaches_zero, Buckle.claim_of_not_level hl]
    rfl
  · refine (congrArg Host.Outcome.next (if_pos h)).trans ?_
    have h0 : (s.bkl.claim t).1 ≠ 0 := fun h0 => by
      rw [(Buckle.claim_eq_zero_iff _ _).mp h0] at hl
      cases hl
    simp only [State.fnReaches_zero, if_neg h0]
    rfl
  · exact gives_of (fun s => s.bklDone 0 t n) h rfl
      ((s.bklDone_operator n ht).trans (State.onBkl_congr (if_pos ⟨hst, htg⟩)))
  · exact gives_of (fun s => s.bklDone 0 t n) h rfl
      ((s.bklDone_operator n ht).trans (State.onBkl_congr (if_neg fun hs => hst hs.1)))
  · exact gives_of (fun s => s.bklSet 0 n) h rfl (s.bklSet_operator hn)
  · exact gives_of (fun s => s.bklTgtWrite 0 t v) h rfl (s.bklTgtWrite_operator ht hv)
  · refine gives_of (fun s => s.bklTsetWrite m w v) h rfl ?_
    have h1 : ¬ 64 ≤ m := by omega
    have h2 : ¬ 8 ≤ w := by omega
    simp [State.bklTsetWrite, h1, h2]
  · exact gives_of (fun s => s.bklSrcWrite 0 n v) h rfl (s.bklSrcWrite_operator v hn)
  · refine gives_of _ h rfl ?_
    simp only [hc, ht, hl, Bool.and_self, if_true]
  · exact congrArg Host.Outcome.next (if_neg h)

end Sys2Proof.Machine
end

section
/-! PROOF. A block at rest: each thing that the engines do by themselves waits for something that a block at rest does not hold. -/

namespace Sys2Proof.Machine

section
variable {s : State}

theorem hostLossSettle_of (h : s.orph.bootFell = false) : s.hostLossSettle = s := by simp [State.hostLossSettle, h]

theorem lossSettle_of (hf : s.rcv.fell = []) (hl : s.rcv.lost = []) : s.lossSettle = s := by
  have e : ({ s with rcv := { s.rcv with fell := [] } } : State) = s := by rw [← hf]
  dsimp only at e
  unfold State.lossSettle
  simp only [hf, List.foldl_nil]
  rw [e]
  simp only [hl, List.filter_nil, if_true]

theorem stampSettle_of (n : Nat) (h : s.acc.list = []) : s.stampSettle n = s := by
  cases n with
  | zero => rfl
  | succ n => simp [State.stampSettle, h]

theorem peerSettle_of (h : s.acc.list = []) (hc : s.peer.clears = []) (hr : s.peer.reqs = [])
    (hq : ∀ e ∈ s.peer.conduits, e.2.queue = [] ∨ s.peer.cached.contains e.1 = true) : s.peerSettle = s := by
  have hw : (s.peer.conduits.filter fun e => !e.2.queue.isEmpty && !s.peer.cached.contains e.1) = [] := by
    refine List.filter_eq_nil_iff.mpr fun e he => ?_
    rcases hq e he with hq | hq <;> simp only [hq] <;> simp
  unfold State.peerSettle
  simp only [h, List.foldl_nil, hw, hc, hr, List.any_nil]
  rfl

theorem jobSettle_of (h : s.acc.list = []) : s.jobSettle = s := by simp [State.jobSettle, h]

theorem resSettle_of (h : s.acc.list = []) (hc : ∀ e ∈ s.cs.recs, e.2.state < 5)
    (hr : s.res = { groups := s.res.groups, ctxs := s.res.ctxs, nextReq := s.res.nextReq, samples := s.res.samples,
                    counts := s.res.counts }) : s.resSettle = s := by
  have hc' : (s.cs.recs.any fun e => 5 ≤ e.2.state) = false := by
    refine List.any_eq_false.mpr fun e he => ?_
    have := hc e he
    simp only [decide_eq_true_eq]
    omega
  rw [State.resSettle, if_pos]
  rw [h, hc', ← hr]
  simp

theorem restSettle_of (h : s.cs.rest = none) : s.restSettle = s := by simp [State.restSettle, h]

theorem unblock_of (h : s.acc.list = []) : s.unblock = s := by simp [State.unblock, h]

theorem hostInvSettle_of (h : s.x.hostInvs = []) : s.hostInvSettle = s := by simp [State.hostInvSettle, h]

theorem rollSettle_of (h : s.roll.visiting = []) : s.rollSettle = s := by simp [State.rollSettle, h]

theorem unlockSettle_of (h : s.orph.unlock = []) : s.unlockSettle = s := by simp [State.unlockSettle, h]

/-- The leases stay where they are those of the resources in use (R424, R425). -/
theorem leaseSync_of
    (hk : ∀ e ∈ s.rcv.leases, e.1 / 2 ^ 40 < 2 ∨ e.1 / 2 ^ 40 = 8 ∨ e.1 ∈ s.leaseHeld.map fun h => leaseKey h.1 h.2)
    (hh : ∀ h ∈ s.leaseHeld, (sFind s.rcv.leases (leaseKey h.1 h.2)).isSome) : s.leaseSync = s := by
  have hkeep : (s.rcv.leases.filter fun e => e.1 / 2 ^ 40 < 2 || e.1 / 2 ^ 40 = 8 ||
      (s.leaseHeld.map fun h => leaseKey h.1 h.2).contains e.1) = s.rcv.leases := by
    refine List.filter_eq_self.mpr fun e he => ?_
    simpa [or_assoc] using hk e he
  have hstart (l : List Nat) (hl : ∀ k ∈ l, (sFind s.rcv.leases k).isSome) :
      l.foldl (fun s k => if (sFind s.rcv.leases k).isSome then s else s.leaseStart (k / 2 ^ 40) (k % 2 ^ 40)) s = s := by
    induction l with
    | nil => rfl
    | cons k l ih =>
      rw [List.foldl_cons, if_pos (hl k (List.mem_cons_self ..))]
      exact ih fun j hj => hl j (List.mem_cons_of_mem k hj)
  unfold State.leaseSync
  simp only [hkeep]
  refine hstart _ fun k hk => ?_
  obtain ⟨h, hm, rfl⟩ := List.mem_map.mp hk
  exact hh h hm

theorem hbSync_of (h : s.bit 0x200 1 = (s.bit 0x200 0 && s.phase = 2)) : s.hbSync = s := by simp [State.hbSync, h]

theorem idleSync_of (h : s.acc.list = []) (hw : ∀ w ∈ s.x.walks, w.host ≠ 2) : s.idleSync = s := by
  have hi (k : Nat) : s.pmIdle k = true := by
    have hw' : (s.x.walks.any fun w => w.host = 2 && w.via = k) = false :=
      List.any_eq_false.mpr fun w hm => by simp [hw w hm]
    simp [State.pmIdle, h, hw']
  simp [State.idleSync, hi]

/-- One round of the engines leaves a block at rest as it is. -/
theorem settleOnce_of (h : s.atRest) : s.settleOnce = s := by
  obtain ⟨-, -, -, hacc, hclears, hreqs, hres, -, hcond, hctx, hrest, -⟩ := h
  rw [State.settleOnce, stampSettle_of _ hacc, peerSettle_of hacc hclears hreqs hcond, jobSettle_of hacc,
    resSettle_of hacc hctx hres, restSettle_of hrest, unblock_of hacc]

end

/-- Settles O7. -/
theorem settledWhenAtRest : Obligations.SettledWhenAtRest := by
  intro s h
  have once := settleOnce_of h
  obtain ⟨hboot, hfell, hlost, hacc, -, -, -, hwalks, -, -, -, hinv, hroll, hunlock, hkeep, hheld, hhb⟩ := h
  rw [State.settle, hostLossSettle_of hboot, lossSettle_of hfell hlost, once, once, hostInvSettle_of hinv,
    lossSettle_of hfell hlost, rollSettle_of hroll, unlockSettle_of hunlock, leaseSync_of hkeep hheld, hbSync_of hhb,
    idleSync_of hacc hwalks]

end Sys2Proof.Machine
end

section
/-! PROOF. Commands on frames and page tables (R114 to R118), and what object commands share: the refusals of a list of
conditions, and the record of a context brought in (R108). -/

namespace Sys2Proof.Machine

/-! ### Refusals -/

@[simp] theorem firstRef_nil : firstRef [] = none := rfl

@[simp] theorem firstRef_cons_false (r : Nat × Nat) (l : List (Bool × Nat × Nat)) :
    firstRef ((false, r) :: l) = firstRef l := rfl

@[simp] theorem firstRef_cons_true (r : Nat × Nat) (l : List (Bool × Nat × Nat)) :
    firstRef ((true, r) :: l) = some r := rfl

/-- The record of a context that a well-formed command names is brought in (R108). -/
theorem State.ctxOpen_of_load {s t : State} {c : Nat} (hc : s.ctxInTable c = true) (hl : s.loadCtx c = (some 0, t)) :
    s.ctxOpen false c = (none, t) := by
  simp [State.ctxOpen, hc, hl]

/-- A command on a context whose record is there, of the generation given and in a state that it takes, is not refused. -/
theorem State.ctxRefuse_of_load {s t : State} {c gen : Nat} {states : List Nat} (hc : s.ctxInTable c = true)
    (hl : s.loadCtx c = (some 0, t)) (hg : gen = (t.ctx c).gen) (hs : (t.ctx c).state ∈ states) :
    s.ctxRefuse false c gen states = (none, t) := by
  simp [State.ctxRefuse, State.ctxOpen_of_load hc hl, hg, hs]

/-! ### FRAME_SET -/

theorem State.frameSetRun_of_ok {s : State} {q : Nat} {ri : W32} {d : Desc}
    (hr : resOk d [(16, 8), (24, 4), (28, 4)] = true) (h0 : df d 24 4 ≠ 0) (hn : df d 24 4 ≤ 262144)
    (ho : ownerOk (df d 28 4) = true) (hd : df d 16 8 + df d 24 4 ≤ s.devBytes / 4096)
    (hrun : s.runOut (df d 16 8) (df d 24 4) = false) :
    s.frameSetRun q ri d =
      (s.setJob { queue := q, ri := ri, desc := d, phase := 3, since := s.tk (s.queStation q) }).frameSetGo
        { queue := q, ri := ri, desc := d, phase := 3, since := s.tk (s.queStation q) } := by
  have hn' : ¬ 262144 < df d 24 4 := by omega
  have hd' : ¬ s.devBytes / 4096 < df d 16 8 + df d 24 4 := by omega
  simp [State.frameSetRun, hr, h0, hn', ho, hd', hrun]

/-- No frame of a free range stops a batch (R114). -/
theorem foldl_own_of_free {own : Smap W32} {f e : Nat} (h : ∀ x ∈ own, x.1 < f ∨ e ≤ x.1) :
    own.foldl (fun m x => if f ≤ x.1 && x.1 < m then x.1 else m) e = e := by
  induction own with
  | nil => rfl
  | cons x own ih =>
    have hx := h x (List.mem_cons_self ..)
    have hstep : (if f ≤ x.1 && x.1 < e then x.1 else e) = e := if_neg (by
      simp only [Bool.and_eq_true, decide_eq_true_eq]
      omega)
    rw [List.foldl_cons, hstep]
    exact ih fun y hy => h y (List.mem_cons_of_mem x hy)

/-- A batch of FRAME_SET on free frames whose guards are in service takes them all (R114). -/
theorem State.frameSetGo_of_free {s : State} {j : CtlJob} {f m : Nat} (hf : f = df j.desc 16 8 + j.aux)
    (hm : m = min 60 (df j.desc 24 4 - j.aux)) (hu : f + m ≤ s.usable) (hown : ∀ e ∈ s.own, e.1 < f ∨ f + m ≤ e.1)
    (hg : ∀ i < m, s.guardUp (s.guardOf (f + i)) = true) :
    let bad := s.acc.owBad.filter fun x => !(f ≤ x && x < f + m)
    let u : State := { s with own := ownRun s.own f m (BitVec.ofNat 32 (df j.desc 28 4)), acc := { s.acc with owBad := bad } }
    s.frameSetGo j = if j.aux + m = df j.desc 24 4 then u.jobDone j 0 0 (df j.desc 24 4)
      else u.setJob { j with aux := j.aux + m } := by
  have hstop : s.own.foldl (fun m x => if f ≤ x.1 && x.1 < m then x.1 else m) (max f (min (f + m) s.usable)) = f + m := by
    rw [show max f (min (f + m) s.usable) = f + m by omega]
    exact foldl_own_of_free hown
  have hnone : ((List.range m).find? fun i => !s.guardUp (s.guardOf (f + i))) = none := by
    refine List.find?_eq_none.mpr fun i hi => ?_
    simp [hg i (List.mem_range.mp hi)]
  unfold State.frameSetGo frameBatch
  simp only [← hf, ← hm, hstop, Nat.add_sub_cancel_left, hnone, Nat.lt_irrefl, if_false]

/-! ### FRAME_RECLAIM -/

theorem State.frameReclaimRun_of_ok {s : State} {q : Nat} {ri : W32} {d : Desc}
    (hr : resOk d [(16, 8), (24, 4), (32, 4)] = true) (h0 : df d 24 4 ≠ 0) (hn : df d 24 4 ≤ 262144)
    (hd : df d 16 8 + df d 24 4 ≤ s.devBytes / 4096) (hrun : s.runOut (df d 16 8) (df d 24 4) = false)
    (hu : df d 16 8 + df d 24 4 ≤ s.usable)
    (hw : ∀ i < df d 24 4, s.ownerOf (df d 16 8 + i) = BitVec.ofNat 32 (df d 32 4)) :
    s.frameReclaimRun q ri d =
      ({ s with own := ownRun s.own (df d 16 8) (df d 24 4) (ownerWord (df d 32 4 % 2 ^ 32 / 2 ^ 26) 3 3),
                acc := { s.acc with owBad := s.acc.owBad.filter fun x => !(df d 16 8 ≤ x && x < df d 16 8 + df d 24 4) } } :
        State).setJob { queue := q, ri := ri, desc := d, phase := 3, aux := 1, since := s.tk (s.queStation q) } := by
  have hn' : ¬ 262144 < df d 24 4 := by omega
  have hd' : ¬ s.devBytes / 4096 < df d 16 8 + df d 24 4 := by omega
  have hu' : ¬ s.usable < df d 16 8 + df d 24 4 := by omega
  have hall : ((List.range (df d 24 4)).all fun i => s.ownerOf (df d 16 8 + i) = BitVec.ofNat 32 (df d 32 4)) = true :=
    List.all_eq_true.mpr fun i hi => decide_eq_true (hw i (List.mem_range.mp hi))
  unfold State.frameReclaimRun
  simp only [hr, h0, hn', hd', hrun, hu', hall, BitVec.toNat_ofNat]
  rfl

theorem State.reclaimDrained_of {s : State} {q : Nat} {ri : W32} {j : CtlJob} (hj : s.job? q ri = some j)
    (ho : dOp j.desc = 0xC1) (ha : j.aux = 1) (hadm : s.admitted (df j.desc 16 8) (df j.desc 24 4) = false) :
    s.reclaimDrained q ri = s.setJob { j with aux := 2 } := by
  simp [State.reclaimDrained, hj, ho, ha, hadm]

/-- Entries of a map that are left out by their key read as absent. -/
theorem sGet_filter_key {β : Type} (d : β) (m : Smap β) (p : Nat → Bool) (k : Nat) :
    sGet d (m.filter fun e => !p e.1) k = if p k then d else sGet d m k := by
  induction m with
  | nil => simp [sGet, sFind]
  | cons e m ih =>
    obtain ⟨j, v⟩ := e
    unfold sGet at ih ⊢
    by_cases hj : j = k
    · subst hj
      cases hp : p j with
      | true => simpa [List.filter_cons, hp] using ih
      | false => simp [hp, sFind]
    · cases hp : p j <;> simp [hp, sFind, hj, ih]

/-- Frames `f` to `f + n - 1`, with what their owner words and their bytes hold, are freed (R116). -/
def State.scrubbed (s : State) (f n : Nat) : State :=
  { s with own := s.own.filter fun e => !(f ≤ e.1 && e.1 < f + n),
           dev := { bytes := s.dev.bytes.filter fun e => !(f ≤ e.1 / 4096 && e.1 / 4096 < f + n),
                    poison := s.dev.poison.filter fun e => !(f ≤ e.1 / 64 && e.1 / 64 < f + n) } }

theorem State.reclaimScrubbed_of {s : State} {q : Nat} {ri : W32} {j : CtlJob} (hj : s.job? q ri = some j)
    (ho : dOp j.desc = 0xC1) (ha : j.aux = 2)
    (hf : ∀ i < df j.desc 24 4, s.guardUp (s.guardOf (df j.desc 16 8 + i)) = true ∧
      s.ownerOf (df j.desc 16 8 + i) = ownerWord (df j.desc 32 4 / 2 ^ 26) 3 3 ∧ df j.desc 16 8 + i ∉ s.acc.owBad) :
    s.reclaimScrubbed q ri = (s.scrubbed (df j.desc 16 8) (df j.desc 24 4)).jobDone j 0 0 (df j.desc 24 4) := by
  generalize hf' : df j.desc 16 8 = f at *
  generalize hn' : df j.desc 24 4 = n at *
  have hodd : (((List.range n).map (f + ·)).filter fun x =>
      s.guardUp (s.guardOf x) && (s.ownerOf x ≠ ownerWord (df j.desc 32 4 / 2 ^ 26) 3 3 || s.acc.owBad.contains x)) = [] := by
    refine List.filter_eq_nil_iff.mpr fun x hx => ?_
    obtain ⟨i, hi, rfl⟩ := List.mem_map.mp hx
    obtain ⟨-, how, hob⟩ := hf i (List.mem_range.mp hi)
    simp [how, hob]
  have hfreed (x : Nat) : (f ≤ x && x < f + n && s.guardUp (s.guardOf x)) = (f ≤ x && x < f + n : Bool) := by
    by_cases hx : f ≤ x ∧ x < f + n
    · have := (hf (x - f) (by omega)).1
      rw [show f + (x - f) = x by omega] at this
      simp [this]
    · simp [hx]
  have hk : ((List.range n).filter fun i => (f ≤ f + i && f + i < f + n : Bool)).length = n := by
    rw [List.filter_eq_self.mpr, List.length_range]
    intro i hi
    have := List.mem_range.mp hi
    simp [this]
  unfold State.reclaimScrubbed
  simp only [hj, ho, ha, hf', hn', hodd, List.foldl_nil, List.contains_nil, Bool.not_false, Bool.and_true, hfreed, hk, if_true]
  rfl

/-! ### PTE_WRITE -/

theorem State.pteWriteRun_of_ok {t t0 t1 t2 : State} {q : Nat} {d : Desc} {ri : W32} {b : Bytes}
    (hr : resOk d [(16, 8), (24, 2), (28, 4), (32, 4), (40, 8)] = true) (h0 : df d 24 2 ≠ 0) (hn : df d 24 2 ≤ 512)
    (ha : df d 16 8 % 8 = 0) (hp : df d 16 8 % 4096 + 8 * df d 24 2 ≤ 4096) (hc : t.ctxInTable (df d 28 4) = true)
    (hl : t.loadCtx (df d 28 4) = (some 0, t0)) (ho : t0.ownerOf (df d 16 8 / 4096) = t.expectTables (df d 28 4))
    (hu : df d 16 8 / 4096 < t0.usable) (hg : df d 32 4 = (t.ctx (df d 28 4)).gen) (hs : (t.ctx (df d 28 4)).state ≠ 0)
    (hread : t0.cmdRead q (df d 40 8) (8 * df d 24 2) = (0, b, t1))
    (hw : t1.devWrite (df d 16 8) b (List.replicate (8 * df d 24 2) false) (t.expectTables (df d 28 4))
      { ctx := some (df d 28 4), station := t1.queStation q } = (0, t2)) :
    t.pteWriteRun q ri d .ok = t2.cmdDone q ri d 0 0 (df d 24 2) := by
  have hn' := Nat.not_lt.mpr hn
  have hp' := Nat.not_lt.mpr hp
  have hu' := Nat.not_le.mpr hu
  have hbad : (!resOk d [(16, 8), (24, 2), (28, 4), (32, 4), (40, 8)] || df d 24 2 = 0 || 512 < df d 24 2 ||
      df d 16 8 % 8 ≠ 0 || 4096 < df d 16 8 % 4096 + 8 * df d 24 2 : Bool) = false := by
    rw [hr, decide_eq_false h0, decide_eq_false hn', decide_eq_false (not_not_intro ha), decide_eq_false hp']
    rfl
  have hopen := State.ctxOpen_of_load hc hl
  generalize hrun : State.pteWriteRun = run
  delta State.pteWriteRun at hrun
  subst hrun
  -- `usable` and `ownerOf` are variables here: the kernel would count the frames to compare two matches on them
  obtain ⟨usable, husable⟩ := exists_eq (a' := State.usable)
  obtain ⟨ownerOf, hownerOf⟩ := exists_eq (a' := State.ownerOf)
  rw [← husable] at hu' ⊢
  rw [← hownerOf] at ho ⊢
  simp only [hbad, hopen, ho, hu', hg, hs, hread, hw]
  simp [refDeny]

/-- Settles O37. -/
theorem framesAndTableEntries : Obligations.FramesAndTableEntries := by
  refine ⟨fun s t q d ri h ho hst hr h0 hn how hd hrun => ?_, fun s j f m n hf hn hm hlt hu hown hg => ?_,
    fun s t q d ri h ho hst hr h0 hn hd hrun hu hw => ?_, fun s q ri j h hj ho ha hadm => ?_,
    fun s q ri j h hj ho ha hf => ?_, fun s t t0 t1 t2 q d ri b h ho hst hr h0 hn ha hp hc hl how hu hg hs hread hw => ?_⟩
  · exact givesSettled_of_starts (fun ri s => s.frameSetRun q ri d) h ho hst rfl
      (State.frameSetRun_of_ok hr h0 hn how hd hrun)
  · subst hn
    exact State.frameSetGo_of_free hf hm hu hown hg
  · exact givesSettled_of_starts (fun ri s => s.frameReclaimRun q ri d) h ho hst rfl
      (State.frameReclaimRun_of_ok hr h0 hn hd hrun hu hw)
  · exact givesSettled_of (fun s => s.reclaimDrained q ri) h rfl (State.reclaimDrained_of hj ho ha hadm)
  · refine ⟨s.scrubbed (df j.desc 16 8) (df j.desc 24 4), ?_, fun e => ?_, fun a => ?_, rfl⟩
    · exact givesSettled_of (fun s => s.reclaimScrubbed q ri) h rfl (State.reclaimScrubbed_of hj ho ha hf)
    · simp only [State.scrubbed, List.mem_filter, Bool.not_eq_true', Bool.and_eq_false_iff, decide_eq_false_iff_not]
      exact and_congr_right fun _ => by omega
    · exact (sGet_filter_key 0 s.dev.bytes (fun x => df j.desc 16 8 ≤ x / 4096 && x / 4096 < df j.desc 16 8 + df j.desc 24 4) a).trans
        (by simp)
  · exact givesSettled_of_starts (fun ri s => s.pteWriteRun q ri d .ok) h ho hst rfl
      (State.pteWriteRun_of_ok hr h0 hn ha hp hc hl how hu hg hs hread hw)

end Sys2Proof.Machine
end

section
/-! PROOF. Bring-up: training, self-test, enumeration, firmware, ports, stacks and the girth gate (R470 to R487). -/

namespace Sys2Proof.Machine

theorem State.fld_cmdEnd (s : State) (ss st x off lo w : Nat) : (s.cmdEnd ss st x).fld off lo w = s.fld off lo w :=
  congrArg (getBits · lo w) (State.rd_cmdEnd s ss st x off)

theorem State.stepNo_stepDone (s : State) (n : Nat) (hn : n < 16) : (s.stepDone n).stepNo = n :=
  calc (s.stepDone n).stepNo = (s.setFld 0x08 4 4 n).fld 0x08 4 4 := State.fld_cmdEnd _ 1 0 0 0x08 4 4
    _ = n % 16 := State.fld_setFld_self s 0x08 4 4 n (by decide)
    _ = n := Nat.mod_eq_of_lt hn

theorem St.code_ne_zero {st : St} (h : st ≠ .ok) : st.code ≠ 0 := by
  cases st <;> simp_all [St.code]

theorem foldl_eq_self {α β : Type} (f : β → α → β) (b : β) (l : List α) (h : ∀ a ∈ l, f b a = b) : l.foldl f b = b := by
  induction l with
  | nil => rfl
  | cons a l ih => rw [List.foldl_cons, h a List.mem_cons_self, ih fun x hx => h x (List.mem_cons_of_mem a hx)]

/-- Settles O9. -/
theorem bringUpTrainsAndTests : Obligations.BringUpTrainsAndTests := by
  refine ⟨fun s ts h hs => ?_, fun s h hs => ⟨fun hv => ?_, fun hv => ?_, ?_⟩, fun s n hn => ⟨s.stepNo_stepDone n hn, ?_⟩,
    fun s st d hst => ⟨?_, ?_⟩, fun s r h hs hf hp => ⟨fun h1 hc => ?_, fun h1 hc => ?_⟩,
    fun s marked h hs => ⟨fun hr hm => ?_, ?_⟩⟩
  · exact gives_of _ h rfl (by simp only [hs]; rfl)
  · exact gives_of _ h rfl (by simp [hs, hv])
  · exact gives_of _ h rfl (by simp [hs, hv])
  · exact gives_of _ h rfl (by simp [hs])
  · simp [State.stepDone, State.cmd_cmdEnd]
  · simp [State.stepNo, State.fld, State.stepFail]
  · simp [State.stepFail, State.cmd_cmdEnd, St.code_ne_zero hst]
  · exact gives_of _ h rfl (by simp [hs, hf, hp, h1, hc])
  · exact gives_of _ h rfl (by simp [hs, hf, hp, h1, hc])
  · have hkept : ∀ n ∈ List.range 100, (!s.present n || s.lame n || marked.contains n) = true := by
      intro n hn
      have := hm n (List.mem_range.mp hn)
      grind
    exact gives_of _ h rfl (by
      simp only [hs, hr]
      exact congrArg (fun t => (stepEvent s t).stepDone 4) (foldl_eq_self _ s _ fun n hn => if_pos (hkept n hn)))
  · exact gives_of _ h rfl (by simp [hs])

/-- Settles O10. -/
theorem bringUpFirmware : Obligations.BringUpFirmware := by
  refine ⟨fun s h hs hf hc => ?_, fun s st c d h hs hst hc hl hp hco ha => ⟨fun hd => ?_, fun hd hn => ?_⟩⟩
  · exact gives_of _ h rfl (by simp [hs, hf, hc])
  · exact gives_of _ h rfl (by simp [hs, hst, hc, hl, hp, hco, ha, hd])
  · exact gives_of _ h rfl (by simp [hs, hst, hc, hl, hp, hco, ha, hn, Ne.symm hd])

/-- Settles O11. -/
theorem bringUpPortsStacksAndGirth : Obligations.BringUpPortsStacksAndGirth := by
  refine ⟨fun s h hs => ?_, fun s cn h hs hp => ⟨?_, fun hd => ?_⟩, fun s h hs => ?_,
    fun s rs h => ⟨fun hs ht => ?_, fun k ht hk => ?_⟩, fun s h hs => ?_,
    fun s k m h hs hg => ⟨fun hk hw hd hj => ?_, fun hk hk' hp hn hd => ?_⟩, fun s h hs => ⟨?_, ?_⟩,
    fun s h hs => ⟨?_, ?_, s.setFld 0x08 0 4 2 |>.stepNo_stepDone 10 (by decide)⟩⟩
  · exact gives_of _ h rfl (by simp [hs])
  · exact gives_of _ h rfl (by simp [State.pcsSet, hs, hp])
  · exact gives_of _ h rfl (by simp [State.pcsSet, hs, hp, hd])
  · exact gives_of _ h rfl (by simp [hs])
  · exact gives_of _ h rfl (by simp [hs, ht])
  · exact gives_of _ h rfl (by simp [ht, hk])
  · exact gives_of _ h rfl (by simp [hs])
  · exact gives_of _ h rfl (by simp [hs, hg, hk, hw, hd, hj])
  · exact gives_of _ h rfl (by simp [hs, hg, Nat.not_lt.mpr hk, hk', hp, hn, hd])
  · exact gives_of _ h rfl (by simp [hs])
  · exact gives_of _ h rfl (by simp [hs])
  · exact gives_of _ h rfl (by simp [hs])
  · calc ((s.setFld 0x08 0 4 2).stepDone 10).phase
        = ((s.setFld 0x08 0 4 2).setFld 0x08 4 4 10).fld 0x08 0 4 := State.fld_cmdEnd _ 1 0 0 0x08 0 4
      _ = (s.setFld 0x08 0 4 2).fld 0x08 0 4 := State.fld_setFld_ne _ 0x08 4 4 10 0 4 (by decide) (by decide)
      _ = 2 := State.fld_setFld_self s 0x08 0 4 2 (by decide)

end Sys2Proof.Machine
end

section
/-! PROOF. The register space: writes by access code, aliases, windows and reads (R57 to R75, R332 to R336, R529). -/

namespace Sys2Proof.Machine

/-! ### Writes by access code -/

theorem registerWrite_word {s : State} (h : s.power = .up) (off : Nat) (v : W64) (ho : off < 0x8000) (ha : off % 4 = 0) :
    GivesSettled (.registerWrite 0 0 off 4 v false) s (s.blockWrite off off 0xFFFFFFFF (v.setWidth 32)) :=
  givesSettled_of _ h rfl (by simp [State.barWrite, State.fnServes, sizeBad, ha, State.opWord, ho])

/-- A write of a block control word that has no effect beyond its fields. -/
theorem State.blockWrite_of_plain (s : State) {off : Nat} (v : W32)
    (ho : off = 0x204 ∨ off = 0x14 ∨ off = 0x100 ∨ off = 0x08) :
    s.blockWrite off off 0xFFFFFFFF v = State.report3 (s.fieldsWrite off 0xFFFFFFFF v) off 0 0 off := by
  obtain rfl | rfl | rfl | rfl := ho <;> simp [State.blockWrite, State.blockEffect]

theorem State.fieldsWrite_of_single (s : State) {off : Nat} {f : Fld} (m v : W32) (h : regFields off = [f]) :
    s.fieldsWrite off m v = s.fieldWrite off m v f := by
  simp [State.fieldsWrite, h]

theorem and_ones (v : W32) : v &&& 0xFFFFFFFF#32 = v := BitVec.and_allOnes

theorem State.putMask_ones (s : State) (off : Nat) (v : W32) : s.putMask off 0xFFFFFFFF#32 v = s.wr off v := by
  simp [State.putMask, State.wr, and_ones]

/-! The fields of the four registers of R13, R59, R63 and R69, one for each access code. -/

/-- BLK_HB_PERIOD (0x204), an RW word whose range is 100,000 to 100,000,000. -/
theorem State.fieldsWrite_rw (s : State) (v : W32) :
    s.fieldsWrite 0x204 0xFFFFFFFF v =
      if v.toNat < 100000 ∨ 100000000 < v.toNat then (s, false, true) else (s.wr 0x204 v, false, false) := by
  have hm : Fld.mask { lo := 0, w := 32, acc := .rw, rst := 2000000, lim := some (100000, 100000000) } = 0xFFFFFFFF := by decide
  have hv : getBits v 0 32 = v.toNat := by simp [getBits, Nat.mod_eq_of_lt v.isLt]
  rw [s.fieldsWrite_of_single _ _ rfl]
  simp [State.fieldWrite, hm, and_ones, hv, s.putMask_ones]

theorem State.fieldsWrite_w1c (s : State) (v : W32) :
    s.fieldsWrite 0x14 0xFFFFFFFF v = (s.putMask 0x14 (v &&& 0x1F) 0, false, false) := by
  have hm : Fld.mask { lo := 0, w := 5, acc := .w1c, flags := true } = 0x1F := by decide
  rw [s.fieldsWrite_of_single _ _ rfl]
  simp [State.fieldWrite, hm, and_ones]

theorem State.fieldsWrite_rwd (s : State) (v : W32) :
    s.fieldsWrite 0x100 0xFFFFFFFF v =
      if s.bit 0x108 1 then (s, decide ((s.rd 0x100 &&& ~~~0xFFFFF000 ||| v &&& 0xFFFFF000) ≠ s.rd 0x100), false)
      else (s.putMask 0x100 0xFFFFF000 v, false, false) := by
  have hm : Fld.mask { lo := 12, w := 20, acc := .rwd } = 0xFFFFF000 := by decide
  rw [s.fieldsWrite_of_single _ _ rfl]
  simp [State.fieldWrite, hm, and_ones, State.rwdLocked]

theorem State.fieldsWrite_ro (s : State) (v : W32) : s.fieldsWrite 0x08 0xFFFFFFFF v = (s, false, false) := by
  have hf : regFields 0x08 = [{ lo := 0, w := 4, acc := .ro, rst := 1 }, { lo := 4, w := 4, acc := .ro },
    { lo := 8, w := 1, acc := .ro }] := rfl
  have hro (f : Fld) (h : f.acc = .ro) : s.fieldWrite 0x08 0xFFFFFFFF#32 v f = (s, false, false) := by
    simp [State.fieldWrite, h]
  simp [State.fieldsWrite, hf, hro]

/-- A word whose masked bits agree with those of the word it replaces is that word. -/
theorem masked_eq_zero_of_eq {x v m : W32} (h : (x &&& ~~~m ||| v &&& m) = x) : (v ^^^ x) &&& m = 0 := by
  apply BitVec.eq_of_getLsbD_eq
  intro i hi
  have := congrArg (BitVec.getLsbD · i) h
  simp only [BitVec.getLsbD_or, BitVec.getLsbD_and, BitVec.getLsbD_not, BitVec.getLsbD_xor, hi,
    show (0 : W32).getLsbD i = false by simp] at this ⊢
  generalize x.getLsbD i = x, v.getLsbD i = v, m.getLsbD i = m at this ⊢
  revert x v m
  decide

/-- Settles O12. -/
theorem registerWritesByAccessCode : Obligations.RegisterWritesByAccessCode := by
  intro s v h
  have hrw := registerWrite_word h 0x204 v (by decide) (by decide)
  have hw1c := registerWrite_word h 0x14 v (by decide) (by decide)
  have hrwd := registerWrite_word h 0x100 v (by decide) (by decide)
  have hro := registerWrite_word h 0x08 v (by decide) (by decide)
  rw [s.blockWrite_of_plain _ (by simp)] at hrw hw1c hrwd hro
  rw [s.fieldsWrite_rw] at hrw
  rw [s.fieldsWrite_w1c] at hw1c
  rw [s.fieldsWrite_rwd] at hrwd
  rw [s.fieldsWrite_ro] at hro
  refine ⟨fun h1 h2 => ?_, fun hb => ?_, hw1c, fun hl => ?_, fun hl hd => ?_, hro, ?_, ?_⟩
  · have hin : ¬ ((v.setWidth 32).toNat < 100000 ∨ 100000000 < (v.setWidth 32).toNat) := by omega
    rw [if_neg hin] at hrw
    exact hrw
  · rw [if_pos hb] at hrw
    exact hrw
  · rw [hl] at hrwd
    exact hrwd
  · have hne := mt masked_eq_zero_of_eq hd
    rw [if_pos hl, decide_eq_true hne] at hrwd
    exact hrwd
  · exact givesSettled_of _ h rfl (by simp)
  · exact givesSettled_of _ h rfl (by simp [State.barWrite, State.fnServes, sizeBad])

/-! ### Aliases, scrub visits and windows -/

/-- A command that a block that is not up answers with a message gives what its effect gives on a block that is up. -/
theorem givesSettled_of_else {i : Instr} {s u : State} {m : OutMsg} (f : State → State) (h : s.power = .up)
    (e : exec i s = upElseS s m f) (hu : f s = u) : GivesSettled i s u := by
  rw [GivesSettled, e, upElseS, upElse, if_pos h, hu]

theorem State.fieldWrite_of_disjoint (s : State) (off : Nat) {m : W32} (v : W32) {f : Fld} (h : f.mask &&& m = 0) :
    s.fieldWrite off m v f = (s, false, false) := by
  simp only [State.fieldWrite, h, if_true]

theorem State.fieldWrite_of_rw (s : State) (off : Nat) {m : W32} (v : W32) {f : Fld} (h : f.mask &&& m = m) (hm : m ≠ 0)
    (ha : f.acc = .rw) (hl : f.lim = none) : s.fieldWrite off m v f = (s.putMask off m v, false, false) := by
  simp only [State.fieldWrite, h, if_neg hm, ha, hl, Bool.false_eq_true, if_false]

theorem State.fieldWrite_of_w1c (s : State) (off : Nat) {m : W32} (v : W32) {f : Fld} (h : f.mask &&& m = m) (hm : m ≠ 0)
    (ha : f.acc = .w1c) : s.fieldWrite off m v f = (s.putMask off (v &&& m) 0, false, false) := by
  simp only [State.fieldWrite, h, if_neg hm, ha]

theorem setAt_and_setAt_true (b : Nat) (hb : b < 5) (v : Bool) : setAt 0 b v &&& setAt 0 b true = setAt 0 b v := by
  revert b v
  decide

/-- The word through which bit `b` of the block control word at `off` is written alone (R67). -/
theorem State.aliasWrite_block (s : State) {off b : Nat} {f : Fld} (v : Bool) (hoff : off < 0x8000) (ha : off % 4 = 0)
    (hb : b < 32) (hf : fldAt off b = some f) (hacc : f.acc ≠ .ro ∧ f.acc ≠ .wo) (hw : (f.w = 1 || f.flags : Bool) = true)
    {a : Nat} (haddr : a = 0x2000000 + 4 * (off * 8 + b)) :
    s.aliasWrite a v = s.blockWrite a off (setAt 0 b true) (setAt 0 b v) := by
  have ho : (a - 0x2000000) / 4 / 32 * 4 = off := by omega
  have hb' : (a - 0x2000000) / 4 % 32 = b := by omega
  obtain ⟨hro, hwo⟩ := hacc
  unfold State.aliasWrite
  simp only [ho, hb', hf, if_pos hoff]
  cases hacc : f.acc <;> simp_all

theorem State.aliasWrite_w1c (s : State) (b : Nat) (hb : b < 5) (v : Bool) {a : Nat} (ha : a = 0x2000000 + 4 * (0x14 * 8 + b)) :
    s.aliasWrite a v = s.putMask 0x14 (setAt 0 b v) 0 := by
  have hmask (b : Nat) (hb : b < 5) : Fld.mask { lo := 0, w := 5, acc := .w1c, flags := true } &&& setAt 0 b true = setAt 0 b true ∧
      setAt 0 b true ≠ 0 := by
    revert b
    decide
  obtain ⟨hm, h0⟩ := hmask b hb
  have hf : fldAt 0x14 b = some { lo := 0, w := 5, acc := .w1c, flags := true } := by
    have : regFields 0x14 = [{ lo := 0, w := 5, acc := .w1c, flags := true }] := rfl
    simp [fldAt, this, hb]
  have hw : s.fieldsWrite 0x14 (setAt 0 b true) (setAt 0 b v) = (s.putMask 0x14 (setAt 0 b v) 0, false, false) := by
    rw [s.fieldsWrite_of_single _ _ rfl, s.fieldWrite_of_w1c _ _ hm h0 rfl, setAt_and_setAt_true b hb]
  rw [s.aliasWrite_block v (by decide) (by decide) (by omega) hf (by decide) rfl ha]
  generalize setAt 0 b true = m at hw ⊢
  generalize setAt 0 b v = w at hw ⊢
  simp [State.blockWrite, hw, State.report3, State.blockEffect]

/-- The fields of BLK_ENABLE, one bit each. -/
theorem State.fieldsWrite_enable (s : State) (b : Nat) (h2 : 2 ≤ b) (hb : b < 5) (w : W32) :
    s.fieldsWrite 0x0C (setAt 0 b true) w = (s.putMask 0x0C (setAt 0 b true) w, false, false) := by
  have hf : regFields 0x0C = [{ lo := 0, w := 1, acc := .rw, tv := true }, { lo := 1, w := 1, acc := .rw, tv := true },
        { lo := 2, w := 1, acc := .rw, tv := true, rst := 1 }, { lo := 3, w := 1, acc := .rw, tv := true, rst := 1 },
        { lo := 4, w := 1, acc := .rw, tv := true, rst := 1 }] := rfl
  have hbit (f : Fld) (hlo : f.lo < 5) (hw : f.w = 1) (ha : f.acc = .rw) (hl : f.lim = none) (s : State) :
      s.fieldWrite 0x0C (setAt 0 b true) w f =
        (if f.lo = b then s.putMask 0x0C (setAt 0 b true) w else s, false, false) := by
    have hmask : ∀ l < 5, ∀ b < 5, putBits 0 l 1 1 &&& setAt 0 b true = (if l = b then setAt 0 b true else 0) ∧
        setAt 0 b true ≠ 0 := by decide
    obtain ⟨hm, h0⟩ := hmask f.lo hlo b hb
    have hfm : f.mask &&& setAt 0 b true = if f.lo = b then setAt 0 b true else 0 := by rw [Fld.mask, hw]; exact hm
    split at hfm
    · rw [s.fieldWrite_of_rw _ _ hfm h0 ha hl, if_pos ‹_›]
    · rw [s.fieldWrite_of_disjoint _ _ hfm, if_neg ‹_›]
  rw [State.fieldsWrite, hf]
  simp only [List.foldl_cons, List.foldl_nil, Nat.zero_lt_succ, Nat.reduceLT, hbit, Bool.or_false]
  obtain rfl | rfl | rfl : b = 2 ∨ b = 3 ∨ b = 4 := by omega
  all_goals rfl

theorem State.aliasWrite_enable (s : State) (b : Nat) (h2 : 2 ≤ b) (hb : b < 5) (v : Bool) {a : Nat}
    (ha : a = 0x2000000 + 4 * (0x0C * 8 + b)) : s.aliasWrite a v = s.putMask 0x0C (setAt 0 b true) (setAt 0 b v) := by
  have hv : setAt 0 b v &&& ~~~3#32 = setAt 0 b v := by
    revert v
    obtain rfl | rfl | rfl : b = 2 ∨ b = 3 ∨ b = 4 := by omega
    all_goals decide
  have hf : regFields 0x0C = [{ lo := 0, w := 1, acc := .rw, tv := true }, { lo := 1, w := 1, acc := .rw, tv := true },
        { lo := 2, w := 1, acc := .rw, tv := true, rst := 1 }, { lo := 3, w := 1, acc := .rw, tv := true, rst := 1 },
        { lo := 4, w := 1, acc := .rw, tv := true, rst := 1 }] := rfl
  have hf : fldAt 0x0C b = some { lo := b, w := 1, acc := .rw, tv := true, rst := 1 } := by
    rw [fldAt, hf]
    obtain rfl | rfl | rfl : b = 2 ∨ b = 3 ∨ b = 4 := by omega
    all_goals rfl
  rw [s.aliasWrite_block v (by decide) (by decide) (by omega) hf ⟨nofun, nofun⟩ rfl ha]
  have hw := s.fieldsWrite_enable b h2 hb (setAt 0 b v)
  simp only [State.blockWrite, hv, ite_self, hw]
  simp [State.report3, State.blockEffect]

theorem State.vote_of_agree (s : State) {off : Nat} (ha : (s.trip off).a = s.rd off) (hb : (s.trip off).b = s.rd off)
    (hc : (s.trip off).c = s.rd off) : s.vote off = s :=
  foldl_eq_self _ s _ fun f _ => by simp [State.voteFld, ha, hb, hc, State.rd]

theorem exec_sizeFaultRead (fn bar off size : Nat) (s : State) :
    exec (.sizeFaultRead fn bar off size) s = upElseS s (.barData fn bar off (BitVec.allOnes 64)) fun s =>
      if 64 < fn || !(fn = 0 || s.vfOn fn) || !(sizeBad size off || bar = 4 && size ≠ 4) then s
      else (if s.fnServes fn then s.accessErr fn bar off else s).emit (.barData fn bar off 0) := rfl

theorem aliasWrite_gives {s u : State} {a : Nat} (h : s.power = .up) (v : W64)
    (ha : 0x2000000 ≤ a ∧ a < 0x4000000 ∧ a % 4 = 0) (hu : s.aliasWrite a (v.getLsbD 0) = u) :
    GivesSettled (.bitAliasWrite a 4 v) s u := by
  obtain ⟨h1, h2, h3⟩ := ha
  exact givesSettled_of _ h rfl (by simpa [h1, h2, sizeBad, h3] using hu)

/-- Where the access at offset `o` of window `w` lies in BAR4. -/
theorem window_offset {w o : Nat} (ho : o < 0x400000) (ha : o % 4 = 0) :
    (w * 0x400000 + o) / 0x400000 = w ∧ (w * 0x400000 + o) % 0x400000 = o ∧ (w * 0x400000 + o) % 4 = 0 := by
  omega

theorem State.winAccess_of_closed {s : State} {w a : Nat} (hw : a / 0x400000 = w) (ha : a % 4 = 0)
    (hc : s.bit (winReg w 0) 1 = false) (answer : W32) : s.winAccess a 4 none answer = s.emit (.barData 0 4 a 0) := by
  subst hw
  simp [State.winAccess, ha, hc]

theorem State.winAccess_read_of_open {s : State} {w o a : Nat} (hw : w < 32) (hn : a / 0x400000 = w) (ho : a % 0x400000 = o)
    (ha : a % 4 = 0) (hop : s.bit (winReg w 0) 1 = true)
    (hsp : s.fld (winReg w 8) 12 20 * 4096 + o < winSpace (s.winTarget w).1) (answer : W32) :
    s.winAccess a 4 none answer =
      (s.emit (.window (s.winTarget w).1 (s.winTarget w).2 (s.fld (winReg w 8) 12 20 * 4096 + o) none)).emit
        (.barData 0 4 a (answer.setWidth 64)) := by
  simp [State.winAccess, hn, ho, ha, hop, Nat.not_le.mpr hw, Nat.not_le.mpr hsp]

theorem State.winAccess_write_of_open {s : State} {w o a : Nat} (hw : w < 32) (hn : a / 0x400000 = w) (ho : a % 0x400000 = o)
    (ha : a % 4 = 0) (hop : s.bit (winReg w 0) 1 = true)
    (hsp : s.fld (winReg w 8) 12 20 * 4096 + o < winSpace (s.winTarget w).1) (hen : s.bit (winReg w 0) 2 = true)
    (hk : (s.winTarget w).1 ≠ 5) (v answer : W32) :
    s.winAccess a 4 (some v) answer =
      s.emit (.window (s.winTarget w).1 (s.winTarget w).2 (s.fld (winReg w 8) 12 20 * 4096 + o) (some v)) := by
  simp [State.winAccess, hn, ho, ha, hop, Nat.not_le.mpr hw, Nat.not_le.mpr hsp, hen, hk]

/-- Settles O13. -/
theorem aliasScrubAndWindows : Obligations.AliasScrubAndWindows := by
  refine ⟨fun s b v h hb => ⟨?_, fun h2 => ?_⟩, fun s off h he => ⟨?_, fun ha hb hc => ?_⟩, fun s off size h hz => ?_,
    fun s w h hw ho hv => ?_, fun s w h hw ho hv => ?_, fun s w h hw => ?_,
    fun s w o v answer h hw ho ha => ⟨fun hop hsp => ⟨?_, fun hen hk => ?_⟩, fun hcl => ?_⟩, fun s w h hw ho => ?_⟩
  · exact aliasWrite_gives h v ⟨by omega, by omega, by omega⟩ (s.aliasWrite_w1c b hb _ rfl)
  · exact aliasWrite_gives h v ⟨by omega, by omega, by omega⟩ (s.aliasWrite_enable b h2 hb _ rfl)
  · exact givesSettled_of _ h rfl (by simp [he])
  · exact givesSettled_of _ h rfl (by simp [he, s.vote_of_agree ha hb hc])
  · exact givesSettled_of_else _ h (exec_sizeFaultRead 0 0 off size s) (by simp [hz, State.fnServes])
  · exact givesSettled_of _ h rfl (by simp [hw, State.winOpen, ho, hv])
  · exact givesSettled_of _ h rfl (by simp [hw, State.winOpen, ho, hv])
  · exact givesSettled_of _ h rfl (by simp [hw, State.winClose])
  · obtain ⟨hn, ho', ha'⟩ := window_offset (w := w) ho ha
    exact givesSettled_of_else (fun s => s.winAccess _ 4 none answer) h rfl (State.winAccess_read_of_open hw hn ho' ha' hop hsp _)
  · obtain ⟨hn, ho', ha'⟩ := window_offset (w := w) ho ha
    exact givesSettled_of (fun s => s.winAccess _ 4 (some v) answer) h rfl
      (State.winAccess_write_of_open hw hn ho' ha' hop hsp hen hk _ _)
  · obtain ⟨hn, -, ha'⟩ := window_offset (w := w) ho ha
    exact givesSettled_of_else (fun s => s.winAccess _ 4 none answer) h rfl (State.winAccess_of_closed hn ha' hcl _)
  · exact givesSettled_of _ h rfl (by simp [hw, ho])

/-! ### Reads -/

theorem leBytes_length (n v : Nat) : (leBytes n v).length = n := by
  induction n generalizing v with
  | zero => rfl
  | succ n ih => simp [leBytes, ih]

theorem padTo_length (n pad : Nat) (b : Bytes) : (padTo n pad b).length = n := by
  have h1 : (leBytes 1 pad).length = 1 := leBytes_length 1 pad
  obtain ⟨x, hx⟩ := List.length_eq_one_iff.mp h1
  simp [padTo, hx]
  omega

theorem romRecord_length (type : Nat) (payload : Bytes) : (romRecord type payload).length = payload.length + 4 := by
  simp [romRecord, leBytes_length]
  omega

theorem romTopology_length (n : Nat) : (romTopology n).length = 4 := by
  simp [romTopology, leBytes_length]

theorem State.romBytes_length (s : State) : s.romBytes.length = romLen := by
  have htop : ((List.range 100).flatMap romTopology).length = 400 := by
    rw [List.length_flatMap, List.map_congr_left fun n _ => romTopology_length n]
    rfl
  simp [State.romBytes, leBytes_length, padTo_length, romRecord_length, htop, romLen]

theorem State.fieldAt_romBytes_zero (s : State) : fieldAt s.romBytes 0 4 = 0x4D4F5249 := by
  simp only [State.romBytes, List.append_assoc, fieldAt, List.drop_zero]
  rw [List.take_append_of_le_length (by simp [leBytes_length])]
  rfl

theorem State.operatorRead_fst_of_low (s : State) {off : Nat} (h : off < 0x100000) : (s.operatorRead off).1 = s.blockShow off := by
  unfold State.operatorRead
  split
  · rfl
  · rfl

theorem State.operatorRead_alias (s : State) {off b : Nat} (ho : off < 0x100000) (ha : off % 4 = 0) (hb : b < 32) :
    s.operatorRead (0x2000000 + (off * 8 + b) * 4) = (BitVec.ofNat 32 (b2n ((s.blockShow off).getLsbD b)), s) := by
  have hi : (0x2000000 + (off * 8 + b) * 4 - 0x2000000) / 4 / 32 * 4 = off := by omega
  have hb' : (0x2000000 + (off * 8 + b) * 4 - 0x2000000) / 4 % 32 = b := by omega
  have hlo : 0x2000000 ≤ 0x2000000 + (off * 8 + b) * 4 := by omega
  have hhi : 0x2000000 + (off * 8 + b) * 4 < 0x4000000 := by omega
  generalize 0x2000000 + (off * 8 + b) * 4 = a at *
  have h1 : ¬ a < 0x8000 := by omega
  have h2 : ¬ a < 0x100000 := by omega
  have h3 : ¬ a < 0x740000 := by omega
  simp only [State.operatorRead, if_neg h1, if_neg h2, if_neg h3, hi, hb', hlo, hhi, decide_true, Bool.and_self, if_true]

theorem State.operatorRead_reserved (s : State) {off : Nat}
    (h : 0x40000 ≤ off ∧ off < 0x100000 ∨ 0x740000 ≤ off ∧ off < 0x2000000) : s.operatorRead off = (0, s) := by
  have h1 : ¬ off < 0x8000 := by omega
  have h2 : ¬ (0x2000000 ≤ off ∧ off < 0x4000000) := by omega
  obtain ⟨hlo, hhi⟩ | ⟨hlo, hhi⟩ := h
  · have h0 : off ≠ 4 := by omega
    have h3 : ¬ off < 0x10000 := by omega
    have h4 : ¬ off < 0x20000 := by omega
    have h5 : ¬ off < 0x30000 := by omega
    have h6 : ¬ off < 0x40000 := by omega
    simp [State.operatorRead, State.blockShow, *]
  · have h3 : ¬ off < 0x100000 := by omega
    have h4 : ¬ off < 0x740000 := by omega
    simp [State.operatorRead, *]

theorem toNat_ofNat_quantised (v : W32) : (BitVec.ofNat 32 (quantised v.toNat)).toNat = v.toNat / 1024 * 1024 := by
  have := v.isLt
  rw [BitVec.toNat_ofNat, quantised, Nat.mod_eq_of_lt (by omega)]

/-- Settles O15. -/
theorem readsOfTheMap : Obligations.ReadsOfTheMap := by
  refine ⟨fun s fn bar off size h => ⟨?_, ?_⟩, fun s off h ho => ?_, fun s off b h ho ha hb => ?_,
    fun s h => ⟨s.romBytes_length, ?_⟩, fun s fn off h hf hc => ?_, fun s fn h hf hc => ?_, fun s fn off h hs => ⟨fun ha => ?_, fun ha => ?_⟩⟩
  · simp [State.wordRead, h]
  · simp [State.barRead, h]
  · simp [State.wordRead, h, s.operatorRead_reserved ho]
  · simp [State.wordRead, h, s.operatorRead_alias ho ha hb, s.operatorRead_fst_of_low ho]
  · simp [State.wordRead, h, State.operatorRead, State.blockShow, s.fieldAt_romBytes_zero]
  · have hfn : fn ≠ 0 := by omega
    simp [State.wordRead, h, hfn, State.viewRead, hc]
  · have hfn : fn ≠ 0 := by omega
    have hw : (s.wordRead fn 0xC).1 = BitVec.ofNat 32 (quantised (s.rd (partReg (fn - 1) 0x20)).toNat) := by
      simp [State.wordRead, h, hfn, State.viewRead, hc, State.partPage]
    rw [hw, toNat_ofNat_quantised]
    omega
  · have hz : sizeBad 8 off = false := by simp [sizeBad, ha]
    simp [State.barRead, h, hs, hz]
  · have hz : sizeBad 4 off = false := by simp [sizeBad, ha]
    simp [State.barRead, h, hs, hz]

end Sys2Proof.Machine
end

section
/-! PROOF. The host link and the die-to-die ports: power, configuration, resets over a link, replays and IDE streams (R327 to R368,
R504, R505). -/

namespace Sys2Proof.Machine

/-! ### Link power, configuration requests and endpoint resets -/

theorem idleReg_ne_straps (pm : Nat) : pmReg 0 0x30C8 ≠ pmReg pm 0x3040 := by
  simp only [pmReg, pageOf]
  omega

theorem State.portBusy_regs (s : State) (pm : Nat) : (s.portBusy pm).regs = (s.setBit (pmReg pm 0x3040) 2 false).regs := by
  rw [State.portBusy, State.timerSet]

@[simp] theorem State.straps_portBusy (s : State) (pm : Nat) : (s.portBusy pm).straps = s.straps := by
  have h := s.rd_setBit (pmReg pm 0x3040) 2 (pmReg 0 0x30C8) false
  rw [if_neg (idleReg_ne_straps pm)] at h
  exact congrArg (getBits · 0 8) ((State.rd_congr (s.portBusy_regs pm) _).trans h)

@[simp] theorem State.bootPm_portBusy (s : State) (pm : Nat) : (s.portBusy pm).bootPm = s.bootPm := by
  simp [State.bootPm]

@[simp] theorem State.portBusy_ep (s : State) (pm : Nat) : (s.portBusy pm).ep = s.ep := by
  rw [State.portBusy, State.timerSet, State.setBit, State.setFld_ep]

/-- Settles O16. -/
theorem linksAndConfiguration : Obligations.LinksAndConfiguration := by
  refine ⟨fun s pm h hp hl h1 hd hb hi => ?_, fun s pm h hp => ?_, fun s fn d3 h hf ht => ?_,
    fun s pm off h hp hl ha ho => ⟨fun hb hf => ?_, fun hb => ?_⟩, fun s pm fn off h => ?_, fun s t h hm => ⟨?_, ?_⟩,
    fun s h hm hp => ?_, fun s pm t h hp hb hbl hd hla hdw => ?_, fun s k h h1 h2 hv => ?_⟩
  · exact givesSettled_of _ h rfl (by simp only [hp, hl, h1, hd, hb, hi]; rfl)
  · exact givesSettled_of _ h rfl (by simp [hp])
  · exact givesSettled_of _ h rfl (by simp [hf, ht])
  · refine givesSettled_of_else (fun s => s.configGo pm 0 off none) h rfl ?_
    subst hb
    have hf' : (0 : Nat) ∉ s.ep.flr := by simpa using hf
    simp [State.configGo, hp, hl, ha, Nat.not_le.mpr ho, hf', State.fnThere]
  · refine givesSettled_of_else (fun s => s.configGo pm 0 off none) h rfl ?_
    simp [State.configGo, hp, hl, hb]
  · exact congrArg Host.Outcome.next (if_neg h)
  · exact givesSettled_of _ h rfl (by simp [hm])
  · exact givesSettled_of _ h rfl (by simp [State.hotReset, hm])
  · exact givesSettled_of _ h rfl (by simp [State.hotReset, hm, hp])
  · exact givesSettled_of _ h rfl (by simp [hp, hb, hbl, hd, hla, hdw])
  · exact givesSettled_of _ h rfl (by simp [h1, h2, hv])

/-! ### Die-to-die ports and IDE streams -/

@[simp] theorem State.sideMsg_bu (s : State) (k m ty pa : Nat) (pl : Bytes) : (s.sideMsg k m ty pa pl).bu = s.bu := rfl

@[simp] theorem State.levelSnapshot_bu (s : State) (k : Nat) : (s.levelSnapshot k).bu = s.bu := by
  unfold State.levelSnapshot
  simp only []
  rw [State.sideMsg_bu, State.sideMsg_bu]

@[simp] theorem State.pickCarrier_bu (s : State) (die : Nat) : (s.pickCarrier die).bu = s.bu := by
  have hset (w : Option Nat) : (List.foldl (fun (s : State) k => s.setBit (pmReg k 0x3080) 7 (decide (w = some k))) s
      [2 * die, 2 * die + 1]).bu = s.bu := (State.setBit_bu _ _ _ _).trans (State.setBit_bu _ _ _ _)
  unfold State.pickCarrier
  simp only []
  split
  · rfl
  · split
    · exact (State.levelSnapshot_bu _ _).trans (hset _)
    · exact hset _

@[simp] theorem State.trace_bu (s : State) (cls st obj arg : Nat) : (s.trace cls st obj arg).bu = s.bu := by
  obtain ⟨_, _, _, _, _, _, _, h⟩ := SameButTrace.trace s cls st obj arg
  rw [h]

@[simp] theorem State.linkEvent_bu (s : State) (via k ev : Nat) : (s.linkEvent via k ev).bu = s.bu := by
  simp [State.linkEvent]

theorem State.linkOff_bu (s : State) (k : Nat) : (s.linkOff k).bu = s.bu := by
  unfold State.linkOff
  exact (State.pickCarrier_bu _ _).trans ((State.setBit_bu _ _ _ _).trans ((State.setFld_bu _ _ _ _ _).trans (State.setFld_bu _ _ _ _ _)))

@[simp] theorem State.linkDown_bu (s : State) (k : Nat) : (s.linkDown k).bu = s.bu := by
  have hoff := (State.raise_bu (s.linkOff k) (pmReg k 0x3084) 3 (pmReg k 0x3094)).trans (s.linkOff_bu k)
  have orph (t : State) (x : Orphan) : ({ t with orph := x } : State).bu = t.bu := rfl
  unfold State.linkDown
  simp only []
  split <;> split
  · exact (State.linkEvent_bu _ _ _ _).trans ((orph _ _).trans hoff)
  · exact (orph _ _).trans hoff
  · exact (State.linkEvent_bu _ _ _ _).trans hoff
  · exact hoff

/-- Settles O17. -/
theorem dieToDiePortsAndIde : Obligations.DieToDiePortsAndIde := by
  refine ⟨fun s pm h hp => ⟨fun hl hr => ?_, fun hl hr hc => ?_, fun t hf hd => ?_, fun hf hg => ?_, fun q hl => ?_,
    fun hl hd => ?_⟩, fun s pm cache h hp hl hi => ?_, fun s sid pm cache h hs ho hp => ⟨fun hi => ?_, fun hi => ?_, fun hi => ?_⟩⟩
  · exact givesSettled_of _ h rfl (by simp [hp, hl, hr, State.askReplay])
  · exact givesSettled_of _ h rfl (by simp [hp, hl, hr, hc, worn])
  · exact givesSettled_of _ h rfl (by simp [hp, hf, hd])
  · exact givesSettled_of _ h rfl (by simp [hp, hf, hg])
  · exact givesSettled_of _ h rfl (by simp [hp, hl])
  · exact givesSettled_of _ h rfl (by simp only [hp, hl, hd]; rfl)
  · exact givesSettled_of _ h rfl (by simp [hp, hl, hi])
  · exact givesSettled_of _ h rfl (by simp [hs, ho, hp, hi])
  · exact givesSettled_of _ h rfl (by simp [hs, ho, hp, hi])
  · exact givesSettled_of _ h rfl (by simp [hs, ho, hp, hi])

end Sys2Proof.Machine
end

section
/-! PROOF. The dictionary, the holding area, the ledger, Latigo and the management endpoint (R45 to R103). -/

namespace Sys2Proof.Machine

/-! ### Dictionary requests and the gateway's turns -/

/-- Settles O21. -/
theorem dictionaryRequestsAreTaken : Obligations.DictionaryRequestsAreTaken := by
  refine fun s r index sub offset irq h hr hl hi => ⟨?_, fun data last => ?_, ?_⟩
  · exact gives_of _ h rfl (by simp [hr, State.submit, hl, hi, b2n])
  · exact gives_of _ h rfl (by simp [hr, State.submit, hl, hi])
  · exact gives_of _ h rfl (by simp [hr, State.submit, hl, hi, b2n])

/-- Settles O22. -/
theorem gatewayTurns : Obligations.GatewayTurns := by
  refine ⟨fun s rid h hf hb => ?_, fun s r h => ?_⟩
  · exact gives_of _ h rfl (by simp only [State.gwServe, hf, hb]; rfl)
  · exact gives_of _ h rfl rfl

/-! ### Snapshots, epochs, hours, samples, the ledger -/

theorem State.mgmtSay_led (s : State) (b : Bytes) : (s.mgmtSay b).led = s.led ∧ (s.mgmtSay b).wear = s.wear := ⟨rfl, rfl⟩

theorem State.complete_led (s : State) (rid : Nat) (n : St) (st : Nat) (data : Bytes) (total : Option Nat) :
    (s.complete rid n st data total).led = s.led ∧ (s.complete rid n st data total).wear = s.wear := by
  have hset (r : Reqr) : (s.setReqr rid r).led = s.led ∧ (s.setReqr rid r).wear = s.wear := ⟨rfl, rfl⟩
  unfold State.complete
  simp only []
  split
  · exact ⟨(State.mgmtSay_led _ _).1.trans (hset _).1, (State.mgmtSay_led _ _).2.trans (hset _).2⟩
  · split
    · exact ⟨(State.irq_led _ _).trans (hset _).1, (State.irq_wear _ _).trans (hset _).2⟩
    · exact hset _

theorem State.telPut_eq (s : State) (sub n v : Nat) : ∃ b, s.telPut sub n v = { s with odb := b } := ⟨_, rfl⟩

/-- Settles O23. -/
theorem holdingAreaTimeAndWear : Obligations.HoldingAreaTimeAndWear := by
  refine ⟨fun s h => ⟨fun hb => ?_, fun hb => ?_, fun hc => ?_, fun hb => ?_⟩, fun s rid h ho hr => ?_, fun s h hh => ?_,
    fun s st temp h hst hf ht => ?_, fun s rid h ho => ⟨fun hk hr => ?_, fun hk hr => ?_, fun hk => ?_⟩, fun s rid h ho hb => ?_,
    fun s rid st data n => s.complete_led rid n st data none⟩
  · exact gives_of _ h rfl (by simp [State.snapWrite, hb, State.snapStart])
  · exact gives_of _ h rfl (by simp [State.snapWrite, hb])
  · exact gives_of _ h rfl (by simp [hc, State.snapStart])
  · exact gives_of _ h rfl rfl
  · exact gives_of _ h rfl (by simp [ho, hr])
  · exact gives_of _ h rfl (by simp [State.hourStep, Nat.not_lt.mpr hh])
  · refine gives_of _ h rfl ?_
    simp only [hst, hf, ht]
    obtain ⟨b, hb⟩ := s.telPut_eq 4 st (temp % 65536).toNat
    rw [hb]
    rfl
  · exact gives_of _ h rfl (by simp [ho, hr, hk])
  · exact gives_of _ h rfl (by simp [ho, hr, hk])
  · exact gives_of _ h rfl (by simp [ho, hk])
  · exact gives_of _ h rfl (by simp [ho, hb, State.snapStart])

/-! ### Latigo frames -/

theorem State.atNode_of_bad {s : State} {st type : Nat} {fr : Frame} (hst : st < 100) (ha : (s.node st).alive = true)
    (hf : frameOk fr = false) (f : State → State) :
    s.atNode st type fr f = (s.inc (pageOf st + 0x18)).emit (.latigo { fr with corrupt := true }) := by
  simp [State.atNode, hst, ha, hf]

theorem State.atNode_of_good {s : State} {st : Nat} {fr : Frame} (hst : st < 100) (ha : (s.node st).alive = true)
    (hk : (s.node st).skip = false) (hf : frameOk fr = true) (hc : fr.corrupt = false) {type : Nat} (ht : fr.type = type)
    (f : State → State) : s.atNode st type fr f = f s := by
  simp [State.atNode, hst, ha, hf, hk, ht, hc]

theorem State.nodeRequest_of_new {s : State} {st : Nat} {fr rep : Frame} {run : State → Frame × State}
    (hn : ((s.node st).kept.find? fun k => k.1 = fr.tag) = none) (hr : run s = (rep, s)) :
    s.nodeRequest st fr true run = (s.setNode st { s.node st with
      replies := (s.node st).replies ++ [rep], kept := ((fr.tag, rep) :: (s.node st).kept).take 4 }).emit
        (.latigo (sealFrame { fr with accepted := true })) := by
  simp [State.nodeRequest, hn, hr]

/-- Settles O24. -/
theorem latigoFrames : Obligations.LatigoFrames := by
  refine ⟨fun s f free st h hst ha hf => ⟨fun hd => ⟨?_, ?_⟩, ?_⟩,
    fun s f st h hst ha hk hf hc => ⟨fun row ht hd hi ho hn => ?_, fun ht hd hi ho hn => ?_, fun r rs ht hr => ?_, fun ht hd => ?_,
      fun ht hi hsub hp hl hne => ?_, fun ht => ?_⟩,
    fun s f b h ht hb => ⟨fun hbad => ?_, fun hc hf => ?_⟩, fun s f o h ho ht hc hf => ⟨fun hn ha => ?_, fun hn hs => ?_⟩,
    fun s f o h ho ht hc hf hs => ?_, fun s tag o h ho hd => ⟨fun hs => ?_, fun hs => ?_⟩, fun s f h ht hc hf => ?_⟩
  · exact gives_of _ h rfl (by simp [hd, State.atNode_of_bad hst ha hf])
  · exact gives_of _ h rfl (by simp [hd, State.atNode_of_bad hst ha hf])
  · exact gives_of _ h rfl (State.atNode_of_bad hst ha hf _)
  · have h0 : f.dst ≠ 0 := by omega
    have h1 : f.dst - 1 = st := by omega
    refine gives_of _ h rfl ?_
    rw [if_neg h0, h1, State.atNode_of_good hst ha hk hf hc ht]
    exact State.nodeRequest_of_new hn (by simp only [ho, if_pos hi])
  · have h0 : f.dst ≠ 0 := by omega
    have h1 : f.dst - 1 = st := by omega
    refine gives_of _ h rfl ?_
    rw [if_neg h0, h1, State.atNode_of_good hst ha hk hf hc ht]
    exact State.nodeRequest_of_new hn (by simp only [hi, true_and, hi ▸ ho, if_true])
  · exact gives_of _ h rfl ((State.atNode_of_good hst ha hk hf hc ht _).trans (by simp [hr]))
  · exact gives_of _ h rfl ((State.atNode_of_good hst ha hk hf hc ht _).trans (by simp [hd]))
  · exact gives_of _ h rfl ((State.atNode_of_good hst ha hk hf hc ht _).trans (by simp [hi, hsub, hp, hl, hne]))
  · exact gives_of _ h rfl (State.atNode_of_good hst ha hk hf hc ht _)
  · have hbad' : (f.corrupt || !frameOk f) = true := by simpa using hbad
    exact gives_of _ h rfl (by simp only [ht, hb, hbad', if_true])
  · exact gives_of _ h rfl (by simp [ht, hb, hc, hf])
  · exact gives_of _ h rfl (by simp [ht, ho, hc, hf, hn, ha])
  · exact gives_of _ h rfl (by simp [ht, ho, hc, hf, hn, State.resend, Nat.not_le.mpr hs])
  · exact gives_of _ h rfl (by simp [ht, ho, hc, hf, hs])
  · exact gives_of _ h rfl (by simp [ho, Nat.not_lt.mpr hd, State.resend, hs])
  · exact gives_of _ h rfl (by simp [ho, Nat.not_lt.mpr hd, State.resend, Nat.not_le.mpr hs])
  · exact gives_of _ h rfl (by simp [ht, hc, hf])

/-- Settles O25. -/
theorem latigoTimers : Obligations.LatigoTimers := by
  refine ⟨fun s st h hst ha => ⟨fun hk hp => ?_, fun hk => ?_, ?_⟩, fun s h hr => ⟨fun ht => ?_, ?_⟩, fun s h hr => ?_⟩
  · exact gives_of _ h rfl (by simp only [hst, ha, hk, hp]; rfl)
  · exact gives_of _ h rfl (by simp [hk])
  · exact gives_of _ h rfl (by simp only [hst, ha]; rfl)
  · exact gives_of _ h rfl (by simp [hr, ht])
  · exact gives_of _ h rfl (by simp [hr])
  · exact gives_of _ h rfl (by simp [hr])

/-- Settles O26. -/
theorem managementEndpoint : Obligations.ManagementEndpoint := by
  refine ⟨fun s a h => ⟨fun ha => ?_, fun ha => ?_⟩,
    fun s h ha => ⟨fun e h1 h2 => ?_, fun e he => ?_, ?_, ?_, ?_, ?_⟩⟩
  · exact gives_of _ h rfl (if_pos ha)
  · exact gives_of _ h rfl (if_neg ha)
  · have he : ¬ (e = 0 ∨ 255 ≤ e) := by omega
    exact gives_of _ h rfl (by simp [ha, he, State.mctpCtl])
  · exact gives_of _ h rfl (by simp [ha, he, State.mctpCtl])
  · exact gives_of _ h rfl (if_neg ha)
  · exact gives_of _ h rfl (by simp [ha, State.mctpCtl])
  · exact gives_of _ h rfl (if_neg ha)
  · exact gives_of _ h rfl (by simp [ha, State.mctpCtl])

end Sys2Proof.Machine
end

section
/-! PROOF. Doorbells, records, programs, queue commands and control descriptors (R136 to R156). -/

namespace Sys2Proof.Machine

/-! ### Doorbells -/

/-- Settles O30. -/
theorem doorbells : Obligations.Doorbells := by
  refine ⟨fun s pm q tail head h hp hq => ⟨fun hm => ?_, fun hm => ?_⟩, fun s m rest h hf => ⟨fun hs => ?_, fun hs => ?_⟩,
    fun s q h hq => ?_, fun s q tail head h hq hw => ?_⟩
  · exact givesSettled_of _ h rfl (by simp [State.doorbellWrite, hp, Nat.not_le.mpr hq, State.doorbellAt, hm])
  · exact givesSettled_of _ h rfl (by simp [State.doorbellWrite, hp, Nat.not_le.mpr hq, State.doorbellAt, hm])
  · exact givesSettled_of _ h rfl (by simp [hf, hs])
  · exact givesSettled_of _ h rfl (by simp [hf, hs])
  · exact givesSettled_of _ h rfl (by simp [hq])
  · have hq' : (!s.cw.rung.contains (q + 2 ^ 20)) = false := by simpa using hq
    have hw' : (!s.qs.watch.contains q) = false := by simpa using hw
    exact givesSettled_of _ h rfl (by simp only [hq', hw']; rfl)

/-! ### Records, programs and queue 0 -/

theorem State.complete_qs (s : State) (rid : Nat) (n : St) (st : Nat) (data : Bytes) (total : Option Nat) :
    (s.complete rid n st data total).qs = s.qs := by
  have hset (r : Reqr) : (s.setReqr rid r).qs = s.qs := rfl
  have hsay (t : State) (b : Bytes) : (t.mgmtSay b).qs = t.qs := rfl
  unfold State.complete
  simp only []
  split
  · exact (hsay _ _).trans (hset _)
  · split
    · exact (State.irq_qs _ _).trans (hset _)
    · exact hset _

theorem State.q0Reply_qs (s : State) (st : St) (v : Nat) : (s.q0Reply st v).qs = s.qs := by
  unfold State.q0Reply
  split
  · rfl
  · exact (State.complete_qs _ _ _ _ _ _).trans (by unfold State.odSet; split <;> rfl)

/-- Queue `q` with its record STOPPED, its stop answered (R137). -/
def State.stopped (s : State) (q : Nat) : State :=
  s.setQue q { s.que q with state := 1, stopping := none, stopQ0 := false,
                            pause := if (s.que q).pause.testBit 2 then (s.que q).pause - 4 else (s.que q).pause }

/-- Settles O31. -/
theorem recordsProgramsAndQueueZero : Obligations.RecordsProgramsAndQueueZero := by
  refine ⟨fun s q h hs => ?_, fun s t c g h hc hl => ⟨fun hg => ?_, fun st hg hst => ?_⟩,
    fun s q ds h hr hc hp hn hlt hf => ⟨fun hb hpf => ?_, fun p d hb he hd hcq => ?_, fun p d hb hpf hd hcq => ?_⟩,
    fun s t rid h ho hd hr h1 h2 h3 h4 hg => ?_, fun s rid h ho hd hdr hr => ?_, fun s rid h ho hd hdr hr => ?_,
    fun s hs hf hr hj => ?_⟩
  · exact givesSettled_of _ h rfl (if_neg hs)
  · exact givesSettled_of _ h rfl (by obtain rfl | rfl := hg <;> simp [hc, hl])
  · subst hg
    exact givesSettled_of _ h rfl (by simp [hc, hl])
  · have hn' := Nat.not_lt.mpr hn
    have hlt' := Nat.not_le.mpr hlt
    exact givesSettled_of _ h rfl (by simp [-Nat.reducePow, State.programRun, hr, hc, hp, hn', hlt', hf, State.progBad, hb, hpf])
  · have hn' := Nat.not_lt.mpr hn
    have hlt' := Nat.not_le.mpr hlt
    exact givesSettled_of _ h rfl (by simp [-Nat.reducePow, State.programRun, hr, hc, hp, hn', hlt', hf, State.progBad, hb, he, hd, hcq])
  · have hn' := Nat.not_lt.mpr hn
    have hlt' := Nat.not_le.mpr hlt
    exact givesSettled_of _ h rfl
      (by simp [-Nat.reducePow, State.programRun, hr, hc, hp, hn', hlt', hf, State.progBad, hb, hpf, hd, hcq, State.progIdx])
  · exact givesSettled_of _ h rfl (by simp [State.q0Build, ho, hd, hr, h1, h2, h3, h4, hg])
  · exact givesSettled_of _ h rfl (by simp [State.q0Stop, ho, hd, hr, hdr])
  · exact givesSettled_of _ h rfl (by simp [State.q0Stop, ho, hd, hr, hdr])
  · have hrun : (s.que 0).state ≠ 5 ∧ (s.que 0).state ≠ 0 := by
      simp only [State.q0Runs, Bool.or_eq_true, decide_eq_true_eq] at hr
      omega
    have hstop : s.queStopped 0 = ({ (s.stopped 0).unwatch 0 with
        qs := { ((s.stopped 0).unwatch 0).qs with q0Draining := false } } : State).q0Reply .ok 0 := by
      simp [State.queStopped, hs, hf, hj, hrun, State.stopped]
    have hqs : (s.queStopped 0).qs = { ((s.stopped 0).unwatch 0).qs with q0Draining := false } := by
      rw [hstop, State.q0Reply_qs]
    have hrec : (s.queStopped 0).que 0 = ((s.stopped 0).unwatch 0).que 0 := by rw [State.que, hqs, State.que]
    rw [hrec, hqs]
    exact ⟨by simp [State.unwatch, State.stopped], rfl, by simp [State.unwatch, State.setQue]⟩

/-! ### Queue commands and control descriptors -/

theorem State.queueCreateRun_of_priv {t t1 t2 : State} {q : Nat} {d : Desc} {ri : W32} {g : RefGot}
    (hsh : t.queShape d = true) (hp : (df d 70 1).testBit 0 = true) (hs : (t.que (df d 16 4)).state = 0)
    (hg : t.guardCheck (t.queFrame (df d 16 4)) queTableWord { ctx := none, station := t.queStation q } = (0, t1))
    (hr : t1.refTake none (df d 68 1) (df d 56 8) = (g, t2)) (hg0 : g.status = 0)
    (hl : (((t2.setQue (df d 16 4) (t2.queNew d (nextGen (t.que (df d 16 4)).gen))).mapQue (df d 16 4) (df d 68 1)).skirtResident
      (df d 68 1)).length < 4096) :
    t.queueCreateRun q ri d = (((t2.setQue (df d 16 4) (t2.queNew d (nextGen (t.que (df d 16 4)).gen))).mapQue
      (df d 16 4) (df d 68 1)).loadQue (df d 16 4)).cmdDone q ri d 0 0 (nextGen (t.que (df d 16 4)).gen) := by
  simp [State.queueCreateRun, hsh, hp, hs, hg, hr, hg0, hl, refDeny]

/-- Settles O32. -/
theorem queueCommands : Obligations.QueueCommands := by
  refine ⟨fun s t t1 t2 q d ri g h ho hst hsh hp hs hg hr hg0 hl => ?_, fun s t q d ri tail head h ho hst hr => ?_,
    fun s t q d ri h ho hst hr => ?_, fun s n q ri h hs hf h0 hr hp => ?_, fun s t q d ri h ho hst hr => ?_⟩
  · exact givesSettled_of_starts _ h ho hst rfl (State.queueCreateRun_of_priv hsh hp hs hg hr hg0 hl)
  · exact givesSettled_of_starts _ h ho hst rfl (by simp [State.queueStartRun, hr])
  · exact givesSettled_of_starts _ h ho hst rfl (by simp [State.queueStopRun, hr])
  · exact givesSettled_of _ h rfl (by simp [State.queStopped, hs, hf, h0, hr, hp])
  · exact givesSettled_of_starts _ h ho hst rfl (by simp [State.queueDestroyRun, hr])

theorem State.server_setQue (s : State) (q k : Nat) (r : QueueRec) : (s.setQue q r).server k = s.server k := rfl

/-- A queue record that keeps its skirt keeps its station. -/
theorem State.queStation_setQue (s : State) (q : Nat) (r : QueueRec) (h : r.skirt = (s.que q).skirt) :
    (s.setQue q r).queStation q = s.queStation q := by
  simp only [State.queStation, State.que_setQue_self, h, State.server_setQue]

/-- Settles O33. -/
theorem controlDescriptors : Obligations.ControlDescriptors := by
  refine ⟨fun s t q d ri h hst hp => ⟨fun ho => ?_, fun ho => ?_, fun ho => ?_, fun ho => ?_⟩,
    fun s t q d ri h hst hp => ⟨fun ho => ?_, fun ho => ?_⟩, fun s t q d ri l h ho hst hl => ⟨fun hlt => ?_, fun hle => ?_⟩,
    fun s q j h => ⟨fun hj hr => ?_, fun hj => ?_, fun hj => ?_⟩⟩
  · exact givesSettled_of_starts _ h ho hst rfl (by simp [State.waitStart, hp])
  · exact givesSettled_of_starts _ h ho hst rfl (by simp [State.signalStart, hp])
  · exact givesSettled_of_starts _ h ho hst rfl (by simp [State.branchStart])
  · exact givesSettled_of_starts _ h ho hst rfl rfl
  · exact givesSettled_of_starts _ h ho hst rfl (by simp [State.waitStart, hp])
  · exact givesSettled_of_starts _ h ho hst rfl (by simp [State.signalStart, hp])
  · refine givesSettled_of_starts _ h ho hst rfl ?_
    rw [State.queStation_setQue]
    · simp only [State.loopRun, hl, hlt, if_true]
    · rfl
  · refine givesSettled_of_starts _ h ho hst rfl ?_
    rw [State.queStation_setQue]
    · simp only [State.loopRun, hl, Nat.not_lt.mpr hle, if_false]
    · rfl
  · exact givesSettled_of _ h rfl (by simp only [hj, hr]; rfl)
  · exact givesSettled_of _ h rfl (by simp only [hj])
  · exact givesSettled_of _ h rfl (by simp only [hj])

end Sys2Proof.Machine
end

section
/-! PROOF. Boot frames, retraining, temperature and rails; data descriptors and the DMA channels (R266 to R305, R481 to R493). -/

namespace Sys2Proof.Machine

theorem State.odNum_with_rcv (s : State) (x : Recov) (i b : Nat) : ({ s with rcv := x } : State).odNum i b = s.odNum i b := rfl

theorem State.pace_of_over (s : State) (x : Recov) (h : x.railOver ≠ []) :
    ({ s with rcv := x } : State).pace = min s.fuses.paceFuse (s.odNum 0x2000 0x71) / 2 := by
  simp [State.pace, h, s.odNum_with_rcv x]

theorem State.pace_of_none (s : State) (h : s.rcv.railOver = []) : s.pace = min s.fuses.paceFuse (s.odNum 0x2000 0x71) := by
  simp [State.pace, h]

theorem retrain_of_idle {s : State} {k : Nat} (hg : s.bu.girthRun = false) (hd : s.bu.dwell = none) : s.measuring k = false := by
  simp [State.measuring, hg, hd]

/-- Settles O34. -/
theorem framesRetrainingAndRails : Obligations.FramesRetrainingAndRails := by
  refine ⟨fun s h hc => ⟨fun ho hf => ?_, fun ho => ?_, fun ho hf => ?_⟩,
    fun s k m h hc => ⟨fun ha hk => ⟨fun hg => ?_, fun hg hr hd hl => ?_, fun hg hm ht => ?_⟩,
      fun ha hk => ⟨fun hg => ?_, fun hg hr hd => ?_, fun hg hm ht => ?_⟩⟩,
    fun s k h hc ha hk hb hg => ?_, fun s st temp h hst hf ht => ⟨?_, ?_⟩, fun s st mv h hst hm hn => ⟨?_, ?_⟩,
    fun s st mv h hm hn => ⟨?_, ?_⟩⟩
  · exact gives_of _ h rfl (by simp [hc, ho, hf])
  · exact gives_of _ h rfl (by simp only [hc, ho]; rfl)
  · exact gives_of _ h rfl (by simp only [hc, ho, hf]; rfl)
  · exact givesSettled_of _ h rfl (by simp [hc, ha, hk, hg])
  · exact givesSettled_of _ h rfl (by simp [hc, ha, hk, hg, retrain_of_idle hr hd, hr, hd, hl])
  · exact givesSettled_of _ h rfl (by simp [hc, ha, hk, hg, hm, ht])
  · exact givesSettled_of _ h rfl (by simp [hc, ha, hk, hg])
  · exact givesSettled_of _ h rfl (by simp [hc, ha, hk, hg, retrain_of_idle hr hd, hr, hd])
  · exact givesSettled_of _ h rfl (by simp [hc, ha, hk, hg, hm, ht])
  · exact gives_of _ h rfl (by simp [ha, hc, hk, hb, hg, State.emit])
  · exact gives_of _ h rfl (by simp [hst, hf, Int.not_lt.mpr ht, State.emit])
  · exact gives_of _ h rfl (by simp [hst, hf, Int.not_lt.mpr ht, State.emit])
  · exact gives_of _ h rfl (by simp [hst, hm, hn, State.odSet])
  · exact State.pace_of_over _ _ (List.cons_ne_nil _ _)
  · have hnone : s.rcv.railOver.filter (fun x => !decide (x = st)) = [] := by simpa using hn
    exact gives_of _ h rfl (by simp [Nat.not_lt.mpr hm, hnone])
  · exact State.pace_of_none _ rfl

/-! ### Data descriptors and the DMA channels -/

/-- A descriptor that its queue starts begins with the effect `f`. -/
theorem begin_of_starts {s t : State} {q : Nat} {d : Desc} {ri : W32} (f : W32 → State → State) (hs : Starts s q d ri t) :
    (s.wordsMet (s.queWords q)).begin q d f = f ri t := by
  have h := beginOp_of_starts f rfl hs
  rwa [State.beginOp, if_pos rfl] at h

theorem State.dataBegin_of_starts {s t : State} {q st ch op : Nat} {skv : Option Nat} {d : Desc} {ri : W32}
    (hs : Starts s q d ri t) (hc : (s.wordsMet (s.queWords q)).chanFor q st ch = true) (ho : dOp d = op)
    (hk : ∀ v, skv = some v → df d 98 1 = v) :
    s.dataBegin op skv q d st ch = t.chanStart (chanKey st ch) q ri d (termAt d (t.loopReg q d)) := by
  have hk' : (skv.any fun v => v ≠ df d 98 1) = false := by
    cases skv with
    | none => rfl
    | some v => simp [hk v rfl]
  unfold State.dataBegin
  simp only [ho, hk', hc, ne_eq, not_true_eq_false, decide_false, Bool.or_self, Bool.false_eq_true, if_false, Bool.not_true,
    Bool.and_false]
  exact begin_of_starts _ hs

/-- Settles O35. -/
theorem dataDescriptorsStart : Obligations.DataDescriptorsStart := by
  refine ⟨fun s t q st ch d ri h hs hc => ⟨fun ho => ⟨fun hk => ?_, fun hk => ?_, fun hk => ?_, fun hk => ?_, fun hk => ?_,
      fun hk => ?_⟩, fun ho => ?_, fun ho => ?_⟩,
    fun s t q d ri h ho hst => ⟨fun st i hr hi hn hb => ?_, fun hr => ?_⟩⟩
  · exact givesSettled_of _ h rfl (State.dataBegin_of_starts hs hc ho (by simp [hk]))
  · exact givesSettled_of _ h rfl (State.dataBegin_of_starts hs hc ho (by simp [hk]))
  · exact givesSettled_of _ h rfl (State.dataBegin_of_starts hs hc ho (by simp [hk]))
  · exact givesSettled_of _ h rfl (State.dataBegin_of_starts hs hc ho (by simp [hk]))
  · exact givesSettled_of _ h rfl (State.dataBegin_of_starts hs hc ho (by simp [hk]))
  · exact givesSettled_of _ h rfl (State.dataBegin_of_starts hs hc ho (by simp [hk]))
  · exact givesSettled_of _ h rfl (State.dataBegin_of_starts hs hc ho nofun)
  · exact givesSettled_of _ h rfl (State.dataBegin_of_starts hs hc ho nofun)
  · have hfirst : ((List.range 8).find? fun i => (t.chan? (chanKey st (16 + q * 8 + i))).isNone) = some i := by
      rw [List.find?_range_eq_some]
      refine ⟨by simp [hn], by simpa using hi, fun j hj => ?_⟩
      simpa [Option.isSome_iff_ne_none] using hb j hj
    exact givesSettled_of_starts _ h ho hst rfl (by simp only [hr, hfirst])
  · exact givesSettled_of_starts _ h ho hst rfl (by simp only [hr])

/-- Settles O36. -/
theorem channelsProgressAndQuiesce : Obligations.ChannelsProgressAndQuiesce := by
  refine ⟨fun s st ch c h hc hw hl => ?_, fun s t n st ch a r g h ha hs => ⟨fun hp hr hk hg => ?_, fun hp hr hk hf => ⟨fun ht => ?_, fun ht => ?_⟩,
      fun hp hr => ?_, fun hp hr hk => ?_⟩,
    fun s t st ch path e c p r h hc hp hst hb he => ?_, fun s st ch c p i h hc hst hf ht => ?_,
    fun s st h => ⟨fun hl => ⟨?_, fun hb => ?_⟩, fun hb hn => ?_⟩⟩
  · exact givesSettled_of _ h rfl (by simp [hc, hw, Nat.not_le.mpr hl])
  · exact givesSettled_of _ h rfl (by simp [ha, hs, State.dmaDone, hp, hr, hk, hg])
  · exact givesSettled_of _ h rfl (by simp [ha, hs, State.dmaDone, hp, hr, hk, hf, ht])
  · exact givesSettled_of _ h rfl (by simp [ha, hs, State.dmaDone, hp, hr, hk, hf, ht])
  · exact givesSettled_of _ h rfl (by simp [ha, hs, State.dmaDone, hp, hr])
  · exact givesSettled_of _ h rfl (by simp [ha, hs, State.dmaDone, hp, hr, hk])
  · exact givesSettled_of _ h rfl (by simp [hc, hp, hst, hb, he])
  · exact givesSettled_of _ h rfl (by simp [hc, hst, hf, ht])
  · exact givesSettled_of _ h rfl (by simp [State.dmaSet, hl])
  · exact givesSettled_of _ h rfl (by simp [State.dmaSet, hl, hb])
  · have hidle : (s.dma.chans.any fun e => (chanOf e.1).1 = st && (chanOf e.1).2 < 16) = false := by
      rw [List.any_eq_false]
      intro e he
      have := hn e he
      grind
    exact givesSettled_of _ h rfl (by simp only [hb, hidle]; rfl)

end Sys2Proof.Machine
end

section
/-! PROOF. Contexts: creation, edits, their end and queries (R106 to R134). -/

namespace Sys2Proof.Machine

theorem State.ctxRegionsRun_of_ok {t t1 t2 t3 : State} {q c n : Nat} {d : Desc} {ri : W32} {m : Bytes} (hcd : c = df d 16 4)
    (hnd : n = df d 24 1) (hn : n ≤ 64) (hr : resOk d [(16, 4), (20, 4), (24, 1), (32, 8)] = true)
    (hm : (if n = 0 then (0, [], t) else t.cmdRead q (df d 32 8) (32 * min n 64)) = (0, m, t1)) (hok : t1.mapOk m (min n 64) = true)
    (hc : t1.ctxInTable c = true) (hl : t1.loadCtx c = (some 0, t2)) (hg : df d 20 4 = (t2.ctx c).gen)
    (hs : (t2.ctx c).state = 1 ∨ (t2.ctx c).state = 2 ∨ (t2.ctx c).state = 4)
    (hgc : (if n = 0 then (0, t2) else
      t2.guardCheck ((t2.ctx c).regionMap / 4096) (t2.expectTables c) { ctx := some c, station := t2.queStation q }) = (0, t3)) :
    let u := t3.setCtx c { t3.ctx c with regions := (List.range n).map (regionAt m) }
    t.ctxRegionsRun q ri d =
      (u.setJob { queue := q, ri := ri, desc := d, phase := 3, since := u.tk (u.queStation q) }).invalidate (.job q ri) c 0 0 := by
  have hbad : (!resOk d [(16, 4), (20, 4), (24, 1), (32, 8)] || 64 < n || !t1.mapOk m (min n 64) : Bool) = false := by
    rw [hr, hok]
    simp [hn]
  have hst : (t2.ctx c).state ∈ [1, 2, 4] := by simpa using hs
  unfold State.ctxRegionsRun
  simp only [← hcd, ← hnd, hm, decide_true, Bool.true_and, hbad, State.ctxRefuse_of_load hc hl hg hst, hgc]
  simp

theorem State.ctxShareRun_of_ok {t t1 : State} {q c i g : Nat} {d : Desc} {ri : W32} (hcd : c = df d 16 4) (hid : i = df d 24 1)
    (hgd : g = Nat.land (df d 28 4) 0x800FFFFF) (hi : i ≤ 15) (hr : resOk d [(16, 4), (20, 4), (24, 1), (28, 4)] = true)
    (hc : t.ctxInTable c = true) (hl : t.loadCtx c = (some 0, t1)) (hg : df d 20 4 = (t1.ctx c).gen)
    (hs : (t1.ctx c).state = 1 ∨ (t1.ctx c).state = 2 ∨ (t1.ctx c).state = 4) :
    let old := ((t1.ctx c).groups[i]?).getD 0
    let u := t1.setCtx c { t1.ctx c with groups := (t1.ctx c).groups.set i g }
    t.ctxShareRun q ri d = if old.testBit 31 && (!g.testBit 31 || old % 2 ^ 20 ≠ g % 2 ^ 20) then
        (u.setJob { queue := q, ri := ri, desc := d, phase := 3, since := u.tk (u.queStation q) }).invalidate (.job q ri) c 0 0
      else u.cmdDone q ri d 0 := by
  have hbad : (!resOk d [(16, 4), (20, 4), (24, 1), (28, 4)] || 15 < i : Bool) = false := by
    simp [hr, hi]
  have hst : (t1.ctx c).state ∈ [1, 2, 4] := by simpa using hs
  unfold State.ctxShareRun
  simp only [← hcd, ← hid, ← hgd, hbad, State.ctxRefuse_of_load hc hl hg hst]

theorem State.ctxCreateRun_of_ok {t t1 t2 t3 t4 t5 t6 t7 : State} {q c p : Nat} {d : Desc} {ri : W32} {b m : Bytes} {g : RefGot}
    (hcd : c = df d 16 4) (hr : resOk d [(16, 4), (24, 8), (32, 8)] = true) (hct : t.ctxInTable c = true)
    (hb : t.cmdRead q (df d 24 8) 256 = (0, b, t1)) (hp : p = fieldAt b 2 1 % 64)
    (hm : (if fieldAt b 3 1 = 0 then (0, [], t1) else t1.cmdRead q (df d 32 8) (32 * min (fieldAt b 3 1) 64)) = (0, m, t2))
    (hi : t2.imageOk b c = true) (hmap : t2.mapOk m (min (fieldAt b 3 1) 64) = true) (hcf : t2.configured p = true)
    (hin : t2.inPartCtx p c = true) (hc : t2.ctxInTable c = true) (hl : t2.loadCtx c = (some 0, t3))
    (hck : t3.ctxCheck c = (0, t4)) (hs : (t2.ctx c).state = 0) (hen : t4.bit (partReg p 0) 1 = true)
    (hpin : (fieldAt b 1 1).testBit 2 = true → t4.pinsOf c < 256)
    (hgc : (if fieldAt b 3 1 = 0 then (0, t4)
      else t4.guardCheck (fieldAt b 24 8 / 4096) (ownerWord p 3 2) { ctx := none, station := t.queStation q }) = (0, t5))
    (hz : (if (fieldAt b 1 1).testBit 0 then (t5.setCtx c (ctxImage b ((List.range (fieldAt b 3 1)).map (regionAt m))
        (nextGen (t2.ctx c).gen))).ledgerZero c
      else (0, t5.setCtx c (ctxImage b ((List.range (fieldAt b 3 1)).map (regionAt m)) (nextGen (t2.ctx c).gen)))) = (0, t6))
    (ht : t6.refTake (some c) (t.que q).skirt (fieldAt b 56 8) = (g, t7)) (hg : g.status = 0) :
    let u : State := { t7 with
      res := { t7.res with ctxs := sDel t7.res.ctxs c, groups := sFilter t7.res.groups fun x _ => x / 2 ^ 40 ≠ c },
      flt := { t7.flt with noted := t7.flt.noted.filter (· ≠ c) } }
    t.ctxCreateRun q ri d = (u.ctlHold c true).cmdDone q ri d 0 0 (nextGen (t2.ctx c).gen) := by
  have hpin' : ((fieldAt b 1 1).testBit 2 && 256 ≤ t4.pinsOf c : Bool) = false := by
    cases hbit : (fieldAt b 1 1).testBit 2 with
    | false => rfl
    | true => simpa using hpin hbit
  unfold State.ctxCreateRun
  simp only [← hcd, hr, hct, hb, hm, ← hp, hi, hmap, hcf, hin, State.ctxOpen_of_load hc hl, hck, hs, hen, hpin', hgc, hz, ht, hg]
  simp

/-- Settles O38. -/
theorem contextsAreMadeAndEdited : Obligations.ContextsAreMadeAndEdited := by
  refine ⟨fun s t t1 t2 t3 t4 t5 t6 t7 q c p d ri b m g h ho hst hcd hr hct hb hp hm hi hmap hcf hin hc hl hck hs hen hpin hgc => ?_,
    fun s t t1 t2 t3 q c n d ri m h ho hst hcd hnd hn hr hm hok hc hl hg hs hgc => ?_,
    fun s t t1 q c i g old d ri h ho hst hcd hid hgd hi hr hc hl hg hs hold => ⟨fun hk => ?_, fun hb hk => ?_⟩⟩
  · intro r hz ht hg u
    exact ⟨givesSettled_of_starts _ h ho hst rfl
      (State.ctxCreateRun_of_ok hcd hr hct hb hp hm hi hmap hcf hin hc hl hck hs hen hpin hgc hz ht hg), rfl⟩
  · exact givesSettled_of_starts _ h ho hst rfl (State.ctxRegionsRun_of_ok hcd hnd hn hr hm hok hc hl hg hs hgc)
  · subst hold
    refine givesSettled_of_starts _ h ho hst rfl ((State.ctxShareRun_of_ok hcd hid hgd hi hr hc hl hg hs).trans (if_neg ?_))
    obtain hk | ⟨hk, he⟩ := hk
    · simp [hk]
    · rw [hk, he]
      simp
  · subst hold
    refine givesSettled_of_starts _ h ho hst rfl ((State.ctxShareRun_of_ok hcd hid hgd hi hr hc hl hg hs).trans (if_pos ?_))
    simpa [hb] using hk

/-! ### What a write of host memory leaves of the contexts -/

theorem State.lineGone_cs (s : State) (l : CwLine) : (s.lineGone l).cs = s.cs := by
  unfold State.lineGone
  split <;> rfl

theorem foldl_cs {α : Type} {f : State → α → State} (hf : ∀ s x, (f s x).cs = s.cs) (l : List α) (s : State) :
    (l.foldl f s).cs = s.cs := by
  induction l generalizing s with
  | nil => rfl
  | cons x l ih => exact (ih _).trans (hf s x)

theorem State.hostTouched_cs (s : State) (a n : Nat) : (s.hostTouched a n).cs = s.cs := foldl_cs State.lineGone_cs _ s

theorem State.hostWrite_cs (s : State) (k a : Nat) (bs : Bytes) (pz : List Bool) (forced : Bool) :
    (s.hostWrite k a bs pz forced).cs = s.cs := by
  have host (t : State) (m : Mem) : ({ t with host := m } : State).cs = t.cs := rfl
  have count (t : State) (n l : Nat) : (t.countWrite k n l).cs = t.cs := State.inc_cs _ _ _
  unfold State.hostWrite
  split
  · exact (State.inc_cs _ _ _).trans (State.raise_cs _ _ _ _)
  · simp only []
    split
    · exact (host _ _).trans ((State.hostTouched_cs _ _ _).trans ((State.inc_cs _ _ _).trans (count _ _ _)))
    · exact (host (s.countWrite k _ _) _).trans (count _ _ _)

theorem State.ctlWrite_cs (s : State) (k a : Nat) (bs : Bytes) (forced : Bool) : (s.ctlWrite k a bs forced).2.cs = s.cs := by
  unfold State.ctlWrite
  split
  · rfl
  · split
    · rfl
    · split
      · exact (State.inc_cs _ _ _).trans (State.raise_cs _ _ _ _)
      · exact State.hostWrite_cs _ _ _ _ _ _

theorem State.partEnabled_cs (s : State) (p : Nat) : (s.partEnabled p).cs = s.cs := by
  unfold State.partEnabled
  split
  · exact State.setBit_cs _ _ _ _
  · split
    · exact State.setBit_cs _ _ _ _
    · rfl

theorem State.ctx_ctxFree (s : State) (c ref : Nat) : (s.ctxFree c ref).ctx c = { gen := (s.ctx c).gen } := by
  have hcs : (s.ctxFree c ref).cs = { (s.setCtx c { gen := (s.ctx c).gen }).cs with
      resident := s.cs.resident.filter (· ≠ c) } :=
    (State.ctlWrite_cs _ _ _ _ _).trans (State.partEnabled_cs _ _)
  rw [State.ctx, hcs]
  exact sGet_sPut_self _ _ _ _

/-! ### The end of a context -/

theorem refBlocked_eq_none_iff (r : Nat) : refBlocked r = none ↔ r % 2 ^ 32 = 0 ∧ r.testBit 32 = true ∧ r.testBit 33 = true := by
  unfold refBlocked refCount
  by_cases h : r % 2 ^ 32 = 0
  · cases r.testBit 32 <;> cases r.testBit 33 <;> simp [-Nat.reducePow, h]
  · simp [-Nat.reducePow, h]

theorem State.ctxRevokeRun_of_ok {t t1 : State} {q c : Nat} {d : Desc} {ri : W32} (hcd : c = df d 16 4)
    (hr : resOk d [(16, 4), (20, 4)] = true) (hc : t.ctxInTable c = true) (hl : t.loadCtx c = (some 0, t1))
    (hg : df d 20 4 = (t1.ctx c).gen)
    (hs : (t1.ctx c).state = 1 ∨ (t1.ctx c).state = 2 ∨ (t1.ctx c).state = 3 ∨ (t1.ctx c).state = 4) :
    t.ctxRevokeRun q ri d = if (t1.ctx c).state = 4 then (t1.ctxDead c).2.cmdDone q ri d (t1.ctxDead c).1
      else (t1.setJob { queue := q, ri := ri, desc := d, phase := 3, aux := c, since := t1.tk (t1.queStation q) }).revoke c := by
  have hst : (t1.ctx c).state ∈ [1, 2, 3, 4] := by simpa using hs
  unfold State.ctxRevokeRun
  simp only [← hcd, hr, Bool.not_true, State.ctxRefuse_of_load hc hl hg hst]

theorem State.ctxDestroyRun_of_ok {t t1 : State} {q c gen : Nat} {d : Desc} {ri : W32}
    (hc : t.ctxInTable c = true) (hl : t.loadCtx c = (some 0, t1)) (hg : gen = (t1.ctx c).gen) (hs : (t1.ctx c).state = 6)
    (hst : (t1.refRead (c % 4) (t1.ctx c).refHeader).status = 0) :
    t.ctxDestroyRun q ri d false c gen = match refBlocked (t1.refRead (c % 4) (t1.ctx c).refHeader).ref with
      | some e => t1.cmdDone q ri d 2 e
      | none => (t1.ctxFree c (t1.refRead (c % 4) (t1.ctx c).refHeader).ref).cmdDone q ri d 0 := by
  have hst' : (t1.ctx c).state ∈ [6] := by simp [hs]
  unfold State.ctxDestroyRun
  simp only [State.ctxRefuse_of_load hc hl hg hst', hst]
  rfl

theorem State.fenceAbandonRun_of_ok {t t1 : State} {q c : Nat} {d : Desc} {ri : W32} (hcd : c = df d 16 4)
    (hr : resOk d [(16, 4), (20, 4), (24, 8)] = true) (ha : df d 24 8 % 8 = 0) (hc : t.ctxInTable c = true)
    (hl : t.loadCtx c = (some 0, t1)) (hg : df d 20 4 = (t1.ctx c).gen)
    (hs : (t1.ctx c).state = 1 ∨ (t1.ctx c).state = 2 ∨ (t1.ctx c).state = 5 ∨ (t1.ctx c).state = 6) :
    t.fenceAbandonRun q ri d =
      t1.jobIssue { queue := q, ri := ri, desc := d, since := t1.tk (t1.queStation q) } c (df d 24 8) 8 true .abandon := by
  have hst : (t1.ctx c).state ∈ [1, 2, 5, 6] := by simpa using hs
  have hbad : (!resOk d [(16, 4), (20, 4), (24, 8)] || df d 24 8 % 8 ≠ 0 : Bool) = false := by
    rw [hr, ha]
    rfl
  unfold State.fenceAbandonRun
  simp only [← hcd, hbad, State.ctxRefuse_of_load hc hl hg hst]

theorem State.ctxQueryRun_of_ok {t t0 t1 u : State} {q c : Nat} {d : Desc} {ri : W32} (hcd : c = df d 16 4)
    (hr : resOk d [(16, 4), (20, 4), (24, 8)] = true) (hc : t.ctxInTable c = true) (hl : t.loadCtx c = (some 0, t0))
    (hg : df d 20 4 = (t0.ctx c).gen) (hs : (t0.ctx c).state ≤ 6)
    (hu : u = if (t.ctx c).mode.testBit 2 && (t.ctx c).state ≠ 0 && !(t.ctx c).pinned
      then t0.setCtx c { t.ctx c with pinned := true } else t0)
    (hp : (t.ctx c).mode.testBit 2 = true → (t.ctx c).state ≠ 0 → (t.ctx c).pinned = false → t0.pinsOf c < 256)
    (hw : (u.rangeErr q (df d 24 8) 256).ctlWrite (u.que q).skirt (df d 24 8) (u.ctxBytes c) false = (0, t1)) :
    t.ctxQueryRun q ri d = t1.cmdDone q ri d 0 := by
  have hst : (t0.ctx c).state ∈ [0, 1, 2, 3, 4, 5, 6] := by
    simp only [List.mem_cons, List.not_mem_nil, or_false]
    omega
  have hpins : ((t.ctx c).mode.testBit 2 && (t.ctx c).state ≠ 0 && !(t.ctx c).pinned && 256 ≤ t0.pinsOf c : Bool) = false := by
    cases h1 : (t.ctx c).mode.testBit 2 <;> cases h2 : (t.ctx c).pinned <;> simp
    exact fun h0 => hp h1 h0 h2
  unfold State.ctxQueryRun
  simp only [← hcd, hr, Bool.not_true, State.ctxRefuse_of_load hc hl hg hst, hpins, ← hu, hw]
  rfl

/-- Settles O39. -/
theorem contextsEndAndAreQueried : Obligations.ContextsEndAndAreQueried := by
  refine ⟨fun s t t1 q c d ri h ho hst hcd hr hc hl hg => ⟨fun hs => ?_, fun hs => ?_⟩, fun s c j h hv hj => ?_,
    fun s t t1 q c d ri h ho hst hcd hr hc hl hg hs hrd => ⟨fun hb => ?_, fun e hb => ?_⟩, refBlocked_eq_none_iff,
    State.ctx_ctxFree, fun s t t1 q c d ri h ho hst hcd hr ha hc hl hg hs => ?_,
    fun s t t1 t2 q d ri hd h ho hst hr ha hrd hb => ⟨fun hk hc hl hg hs hrr hrb => ?_, fun hk h0 hn hg hs => ?_, fun h3 h5 => ?_⟩,
    fun s t t0 t1 u q c d ri h ho hst hcd hr hc hl hg hs hu hp hw => ?_⟩
  · exact givesSettled_of_starts _ h ho hst rfl ((State.ctxRevokeRun_of_ok hcd hr hc hl hg (by omega)).trans (if_pos hs))
  · exact givesSettled_of_starts _ h ho hst rfl ((State.ctxRevokeRun_of_ok hcd hr hc hl hg (by omega)).trans (if_neg (by omega)))
  · exact givesSettled_of _ h rfl (by simp [State.ctxRevokedRun, hv, hj])
  · refine givesSettled_of_starts _ h ho hst rfl ?_
    simp only [hr, Bool.not_true, ← hcd, State.ctxDestroyRun_of_ok hc hl hg hs hrd, hb]
  · refine givesSettled_of_starts _ h ho hst rfl ?_
    simp only [hr, Bool.not_true, ← hcd, State.ctxDestroyRun_of_ok hc hl hg hs hrd, hb]
  · exact givesSettled_of_starts _ h ho hst rfl (State.fenceAbandonRun_of_ok hcd hr ha hc hl hg hs)
  · refine givesSettled_of_starts _ h ho hst rfl ?_
    simp only [State.refAckRun, hr, ha, hrd, hk, hb]
    simp only [State.ctxDestroyRun_of_ok hc hl hg.symm hs hrr, hrb]
    rfl
  · refine givesSettled_of_starts _ h ho hst rfl ?_
    simp [State.refAckRun, hr, ha, hrd, hk, hb, h0, hg, hs, Nat.not_le.mpr hn]
  · refine givesSettled_of_starts _ h ho hst rfl ?_
    have h0 : fieldAt hd 8 1 ≠ 0 := by omega
    have h1 : fieldAt hd 8 1 ≠ 1 := by omega
    have h2 : fieldAt hd 8 1 ≠ 2 := by omega
    simp [State.refAckRun, hr, ha, hrd, h0, h1, h2, hb, Nat.not_lt.mpr h5]
  · exact givesSettled_of_starts _ h ho hst rfl (State.ctxQueryRun_of_ok hcd hr hc hl hg hs hu hp hw)

end Sys2Proof.Machine
end

section
/-! PROOF. Accesses: tiles and guards (R26, R120, R176 to R180, R227 to R231). -/

namespace Sys2Proof.Machine

/-! ### Tile accesses -/

section
variable {s t : State} {st tag c va len : Nat} {write : Bool} {op : Nat → Nat → AccOp}

theorem State.tileGo_of_refused {e : Nat} (hst : st < 80) (h1 : 1 ≤ len) (h2 : len ≤ 4096) (ht : t = s.wordsMet (s.xlatWords st c))
    (hr : t.tileRefusal st c = some e) :
    s.tileGo st tag c va len write op = (if e = 4 then t.inc (pageOf st + 0x630) else t).tileRefuse st tag e := by
  have hbad : (80 ≤ st || len = 0 || 4096 < len : Bool) = false := by
    simp only [Bool.or_eq_false_iff, decide_eq_false_iff_not]
    omega
  simp only [State.tileGo, hbad, ← ht, hr]
  rfl

theorem State.tileGo_of_whole (hst : st < 80) (h1 : 1 ≤ len) (h2 : len ≤ 4096) (ht : t = s.wordsMet (s.xlatWords st c))
    (hr : t.tileRefusal st c = none) (ho : t.tileOpen st c = true) (hl : len ≤ 4096 - va % 4096) :
    s.tileGo st tag c va len write op = (t.issue (t.tileAcc st tag c va len write (op 0 len))).2 := by
  have hbad : (80 ≤ st || len = 0 || 4096 < len : Bool) = false := by
    simp only [Bool.or_eq_false_iff, decide_eq_false_iff_not]
    omega
  simp only [State.tileGo, hbad, ← ht, hr, ho, hl, if_true]
  rfl

theorem State.tileGo_of_straddle {low e : Nat} (hst : st < 80) (h1 : 1 ≤ len) (h2 : len ≤ 4096) (ht : t = s.wordsMet (s.xlatWords st c))
    (hr : t.tileRefusal st c = none) (ho : t.tileOpen st c = true) (hlow : low = 4096 - va % 4096) (hl : low < len)
    (he : ((List.range 32).find? fun e => (t.partsOf st e).isEmpty) = some e) :
    s.tileGo st tag c va len write op = (((t.inc (pageOf st + 0x628)).issue (t.tileAcc st tag c va low write (op 0 low) 1 e)).2.issue
      (t.tileAcc st tag c ((va + low) % 2 ^ 64) (len - low) write (op low (len - low)) 2 e)).2 := by
  have hbad : (80 ≤ st || len = 0 || 4096 < len : Bool) = false := by
    simp only [Bool.or_eq_false_iff, decide_eq_false_iff_not]
    omega
  simp only [State.tileGo, hbad, ← ht, hr, ho, ← hlow, Nat.not_le.mpr hl, he, if_false]
  rfl

end

theorem State.tileRefusal_of_beyond {t : State} {st c : Nat} (hc : 2 ^ t.odNum 0x2000 0x21 ≤ c) (hl : t.live st = true)
    (hr : t.rcv.reset = none) : t.tileRefusal st c = some 1 := by
  simp only [State.tileRefusal, hl, hr, hc, if_true]
  rfl

theorem State.tileDeliver_of_done {s : State} {id st tag re : Nat} {a : Access} (ha : s.acc? id = some a) (hs : a.src = .tile st tag 0 re)
    (hp : a.ph = .done) : s.tileDeliver id = (s.emit (.tile st tag a.status (a.pz.any (· = true)) a.data)).dropAcc id := by
  simp [State.tileDeliver, ha, hs, hp]

theorem State.released_of_whole (s : State) {a : Access} (h : a.storePart = false) : s.released a = true := by
  simp [State.released, h]

theorem exec_tileFenceAtomic (st tag c : Nat) (va v : W64) (s : State) :
    exec (.tileFenceAtomic st tag c va v) s = upElseS s (.tile st tag 11 false []) fun s =>
      if va.toNat % 8 ≠ 0 then (if 80 ≤ st then s else s.tileRefuse st tag 1)
      else s.tileGo st tag c va.toNat 8 true fun _ _ => .signal v.toNat := rfl

/-- Settles O40. -/
theorem tileAccesses : Obligations.TileAccesses := by
  refine ⟨fun s t st tag c len va h hst h1 h2 ht hr ho => ⟨fun hl => ?_, fun e hl he => ?_⟩,
    fun s t st tag c va b h hst h1 h2 ht hr ho => ⟨fun hl => ?_, fun e hl he => ?_⟩,
    fun s t st tag c va v h hst ha ht hr ho => ?_,
    fun s t st tag c len va h hst h1 h2 ht => ⟨fun e hr => ?_, fun hc hl hr => State.tileRefusal_of_beyond hc hl hr⟩,
    fun s st tag c va v h hst ha => ?_,
    fun s n st tag p re a r h ha hs => ⟨fun hp h0 hid => ?_, fun g t hp hk hop hr hg => ?_, fun hp hk hr h0 hlate => ?_, fun hp hr => ?_⟩⟩
  · exact givesSettled_of_else (fun s => s.tileGo st tag c va.toNat len false fun _ _ => .load) h rfl
      (State.tileGo_of_whole hst h1 h2 ht hr ho hl)
  · exact givesSettled_of_else (fun s => s.tileGo st tag c va.toNat len false fun _ _ => .load) h rfl
      (State.tileGo_of_straddle hst h1 h2 ht hr ho rfl hl he)
  · refine givesSettled_of_else (fun s => s.tileGo st tag c va.toNat b.length true fun o n =>
      .store ((b.drop o).take n) (List.replicate n false)) h rfl ?_
    rw [State.tileGo_of_whole hst h1 h2 ht hr ho hl, List.drop_zero, List.take_length]
  · refine givesSettled_of_else (fun s => s.tileGo st tag c va.toNat b.length true fun o n =>
      .store ((b.drop o).take n) (List.replicate n false)) h rfl ?_
    rw [State.tileGo_of_straddle hst h1 h2 ht hr ho rfl hl he, List.drop_zero, ← List.length_drop, List.take_length]
  · exact givesSettled_of_else _ h (exec_tileFenceAtomic st tag c va v s)
      ((if_neg (not_not_intro ha)).trans (State.tileGo_of_whole hst (by decide) (by decide) ht hr ho (by omega)))
  · exact givesSettled_of_else (fun s => s.tileGo st tag c va.toNat len false fun _ _ => .load) h rfl
      (State.tileGo_of_refused hst h1 h2 ht hr)
  · exact givesSettled_of_else _ h (exec_tileFenceAtomic st tag c va v s)
      ((if_pos ha).trans (if_neg (Nat.not_le.mpr hst)))
  · subst h0
    exact givesSettled_of _ h rfl (by simp [ha, hs, hp, State.tileDeliver_of_done hid hs hp])
  · have hsp : a.storePart = false := by simp [Access.storePart, hs, hop]
    exact givesSettled_of _ h rfl (by simp [ha, hs, hp, hk, hop, hr, hg, hsp, s.released_of_whole hsp])
  · have hsp : a.storePart = false := by
      subst h0
      cases hop : a.op <;> simp [Access.storePart, hs, hop]
    exact givesSettled_of _ h rfl (by simp [ha, hs, hp, hk, hr, hsp, hlate])
  · exact givesSettled_of _ h rfl (by simp [ha, hs, hp, hr])

end Sys2Proof.Machine
end

section
/-! PROOF. Guards serve accesses; walks, stamps, invalidations and faults (R163 to R259, R350 to R352). -/

namespace Sys2Proof.Machine

/-- Two steps that agree on every item of a list go through it alike. -/
theorem foldl_congr_of_mem {α β : Type} {f g : β → α → β} {l : List α} {b : β} (h : ∀ b, ∀ a ∈ l, f b a = g b a) :
    l.foldl f b = l.foldl g b := by
  induction l generalizing b with
  | nil => rfl
  | cons a l ih =>
    rw [List.foldl_cons, List.foldl_cons, h b a List.mem_cons_self]
    exact ih fun b c hc => h b c (List.mem_cons_of_mem a hc)

/-- Settles O41. -/
theorem guardsServeAccesses : Obligations.GuardsServeAccesses := by
  refine ⟨fun s t n a bad h ha hk hp hr hf ht => ⟨fun st tag p re hs hsp => ?_, fun st ch hs => ?_, fun k i hs hi => ?_,
      fun st tag p re hs hsp hb => ?_⟩,
    fun s st e ps h hps hsp hch => ⟨fun h0 => ?_, fun a0 ha0 hne => ?_⟩,
    fun s n a h ha => ⟨fun d z hop hp hr hg => ?_, fun hp => ?_⟩⟩
  · exact givesSettled_of _ h rfl (by simp [ha, hk, hp, hr, hf, ← ht, hs, hsp])
  · exact givesSettled_of _ h rfl (by simp [ha, hk, hp, hr, hf, ← ht, hs])
  · exact givesSettled_of _ h rfl (by simp [ha, hk, hp, hr, hf, ← ht, hs, hi])
  · exact givesSettled_of _ h rfl (by simp [ha, hk, hp, hr, hf, ← ht, hs, hsp, hb])
  · refine givesSettled_of _ h rfl ?_
    have hbad : ps.filter (fun a => (a.ph = .checked || a.ph = .done) && a.status ≠ 0) = [] := by
      simpa [List.filter_eq_nil_iff] using fun a ha _ => h0 a ha
    have hgo : ps.foldl (fun s a => if a.ph = .checked then s.setAcc { a with ph := .commit, sent := true } else s) s =
        ps.foldl (fun s a => s.setAcc { a with ph := .commit, sent := true }) s :=
      foldl_congr_of_mem fun s a ha => by simp [hch a ha]
    have hall : ps.all (·.storePart) = true := List.all_eq_true.mpr hsp
    have hany : ps.any (fun a => a.ph = .commit || a.ph = .abort) = false :=
      List.any_eq_false.mpr fun a ha => by simp [hch a ha]
    have hche : ps.all (fun a => a.ph = .checked || (a.ph = .ready && a.kind ≠ 2)) = true :=
      List.all_eq_true.mpr fun a ha => by simp [hch a ha]
    simp only [hps, hall, hany, hbad, hche, hgo, List.map_nil, List.isEmpty_nil]
    rfl
  · refine givesSettled_of _ h rfl ?_
    have hbad : ps.filter (fun a => (a.ph = .checked || a.ph = .done) && a.status ≠ 0) = ps.filter (fun a => a.status ≠ 0) :=
      List.filter_congr fun a ha => by simp [hch a ha]
    have hne' : ((ps.filter fun a => a.status ≠ 0).map (·.status)).isEmpty = false := by
      simpa using ⟨a0, ha0, hne⟩
    have hall : ps.all (·.storePart) = true := List.all_eq_true.mpr hsp
    have hany : ps.any (fun a => a.ph = .commit || a.ph = .abort) = false :=
      List.any_eq_false.mpr fun a ha => by simp [hch a ha]
    simp only [hps, hall, hany, hbad, hne']
    exact foldl_congr_of_mem fun s a ha => by simp [hch a ha]
  · exact givesSettled_of _ h rfl (by simp [ha, hp, hr, hg, hop])
  · exact givesSettled_of _ h rfl (by simp [ha, hp])

theorem State.stampService_of_ok {s : State} {q slot : Nat} {ri : W32} {d : Desc} (hu : s.unitEnabled .stamp = true)
    (hq : (s.que q).state ≠ 0) (hp : (s.que q).priv = false) (hc0 : (s.ctx (s.que q).ctx).state ≠ 0)
    (hc5 : (s.ctx (s.que q).ctx).state < 5) (hm : (s.ctx (s.que q).ctx).mode.testBit 0 = true) (hs : stampable (dOp d) = true)
    (hf : dFlag d 4 = false) (ht0 : wdiff (s.que q).tailSeen ri ≠ 0) (ht : wdiff (s.que q).tailSeen ri < 2 ^ 31)
    (ha : wdiff ri (s.que q).next < 2 ^ 31) (hsl : s.slotFor q ri = none) (hfly : ri ∉ (s.que q).fly)
    (h15 : s.odNum 0x5000 0x15 ≠ 0) (hk : s.odNum 0x5000 (0x10 + (s.que q).skirt) ≠ 0)
    (hd : wdiff ri (s.que q).next ≤ s.odNum 0x5000 0x15) (hcap : slot < 2 ^ s.odNum 0x5000 0x14)
    (hfree : sFind s.x.slots ((s.que q).skirt * 4096 + slot) = none)
    (hpeer : ∀ p ∈ footprint d, ∀ g, (s.ctx (s.que q).ctx).regionOf p.1 = some g → g.kind ≠ 3) :
    s.stampService q ri d slot = s.stampClaim q ri d slot := by
  have hall : ((List.range (2 ^ s.odNum 0x5000 0x14)).all fun i => (sFind s.x.slots ((s.que q).skirt * 4096 + i)).isSome) = false :=
    List.all_eq_false.mpr ⟨slot, List.mem_range.mpr hcap, by simp [hfree]⟩
  have hany : ((footprint d).any fun p => match (s.ctx (s.que q).ctx).regionOf p.1 with
      | some g => g.kind = 3
      | none => false) = false := by
    refine List.any_eq_false.mpr fun p hp => ?_
    cases hg : (s.ctx (s.que q).ctx).regionOf p.1 with
    | none => simp
    | some g => simpa using hpeer p hp g hg
  have hbad : (!s.unitEnabled .stamp || (s.que q).state = 0 || (s.que q).priv || (s.ctx (s.que q).ctx).state = 0 ||
      5 ≤ (s.ctx (s.que q).ctx).state || !(s.ctx (s.que q).ctx).mode.testBit 0 || !stampable (dOp d) || dFlag d 4 ||
      wdiff (s.que q).tailSeen ri = 0 || 2 ^ 31 ≤ wdiff (s.que q).tailSeen ri || 2 ^ 31 ≤ wdiff ri (s.que q).next ||
      (s.slotFor q ri).isSome || (s.que q).fly.contains ri : Bool) = false := by
    simp [-Nat.reducePow, hu, hq, hp, hc0, Nat.not_le.mpr hc5, hm, hs, hf, ht0, Nat.not_le.mpr ht, Nat.not_le.mpr ha, hsl, hfly]
  have hlate : (s.odNum 0x5000 0x15 < wdiff ri (s.que q).next || 2 ^ s.odNum 0x5000 0x14 ≤ slot ||
      (sFind s.x.slots ((s.que q).skirt * 4096 + slot)).isSome : Bool) = false := by
    simp [Nat.not_lt.mpr hd, Nat.not_le.mpr hcap, hfree]
  unfold State.stampService
  simp only [hbad, hall, hlate, decide_eq_false hk, decide_eq_false h15, Bool.or_false, Bool.false_eq_true, if_false]
  exact if_neg fun h => Bool.noConfusion (h.symm.trans hany)

/-- Settles O42. -/
theorem walksAndStamps : Obligations.WalksAndStamps := by
  refine ⟨fun s w v h hw => ⟨fun ha h0 => ?_, fun ans h2 => ?_, fun h2 ht => ?_⟩,
    fun s q slot ri d h hu hq hp hc0 hc5 hm hs hf ht0 ht ha hsl hfly h15 hk hd hcap hfree hpeer => ?_,
    fun s k slot v h hk hsl hv h1 hwant => ?_⟩
  · exact givesSettled_of _ h rfl (by simp [hw, ha, h0])
  · exact givesSettled_of _ h rfl (by simp [hw, h2])
  · exact givesSettled_of _ h rfl (by simp [hw, h2, Nat.not_lt.mpr ht])
  · exact givesSettled_of (fun s => s.stampService q ri d slot) h rfl
      (State.stampService_of_ok hu hq hp hc0 hc5 hm hs hf ht0 ht ha hsl hfly h15 hk hd hcap hfree hpeer)
  · exact givesSettled_of _ h rfl (by simp [hk, hsl, State.stampReady, hv, h1, hwant])

theorem State.invGo_of_ok {s : State} {pm k c n va : Nat} (irq : Bool) (hl : s.live (80 + pm) = true)
    (hc : c = s.fld (pmReg pm (0x600 + 0x20 * k)) 0 20) (hn : n = (s.rd (pmReg pm (0x600 + 0x20 * k) + 0x10)).toNat)
    (hva : va = s.rd64 (pmReg pm (0x600 + 0x20 * k) + 8)) (hb : s.slotBusy (pmReg pm (0x600 + 0x20 * k) + 0x18) = false)
    (hm : n ≤ 262144) (ht : s.ctxInTable c = true)
    (hr : n ≠ 0 → canonical va = true ∧ va % 4096 = 0 ∧ va.testBit 56 = (va + n * 4096 - 1).testBit 56 ∧
      canonical ((va + n * 4096 - 1) % 2 ^ 64) = true)
    (hg : (s.rd (pmReg pm (0x600 + 0x20 * k) + 4)).toNat = (s.ctx c).gen) (h0 : (s.ctx c).state ≠ 0) :
    s.invGo pm k irq =
      ((s.setFld (pmReg pm (0x600 + 0x20 * k) + 0x14) 1 1 (b2n irq)).slotTake (pmReg pm (0x600 + 0x20 * k) + 0x18)).invalidate
        (.slot pm k) c (vpage va) n := by
  have hbad : (262144 < n || !(s.setFld (pmReg pm (0x600 + 0x20 * k) + 0x14) 1 1 (b2n irq)).ctxInTable c ||
      (n ≠ 0 && (!canonical va || va % 4096 ≠ 0 || va.testBit 56 ≠ (va + n * 4096 - 1).testBit 56 ||
        !canonical ((va + n * 4096 - 1) % 2 ^ 64))) : Bool) = false := by
    have ht' : (s.setFld (pmReg pm (0x600 + 0x20 * k) + 0x14) 1 1 (b2n irq)).ctxInTable c = true := ht
    rcases Nat.eq_zero_or_pos n with hz | hz
    · simp [ht', hz]
    · obtain ⟨h1, h2, h3, h4⟩ := hr (Nat.pos_iff_ne_zero.mp hz)
      simp only [ht', h1, h2, ← h3, h4, decide_eq_false (Nat.not_lt.mpr hm), ne_eq, not_true_eq_false, decide_false, Bool.not_true,
        Bool.or_false, Bool.and_false]
  have hg' : ¬ ((s.rd (pmReg pm (0x600 + 0x20 * k) + 4)).toNat ≠
      ((s.setFld (pmReg pm (0x600 + 0x20 * k) + 0x14) 1 1 (b2n irq)).ctx c).gen) := not_not_intro hg
  have h0' : ((s.setFld (pmReg pm (0x600 + 0x20 * k) + 0x14) 1 1 (b2n irq)).ctx c).state ≠ 0 := h0
  unfold State.invGo
  simp only [hl, hb, ← hc, ← hn, ← hva, hbad, if_neg hg', if_neg h0']
  rfl

/-- Settles O43. -/
theorem invalidations : Obligations.Invalidations := by
  refine ⟨fun s pm k c n va irq h hpm hk hl hc hn hva => ⟨fun hb => ?_, fun hb hm ht hr hg h0 => ?_⟩,
    fun s i v h hv hs => ?_, fun s fn pages pasid va global h => ?_⟩
  · exact givesSettled_of _ h rfl (by simp [hpm, hk, State.invGo, hl, hb])
  · exact givesSettled_of _ h rfl (by simp [hpm, hk, State.invGo_of_ok irq hl hc hn hva hb hm ht hr hg h0])
  · exact givesSettled_of _ h rfl (by simp [hv, hs])
  · exact givesSettled_of _ h rfl rfl

section

variable {u : State} {pm k o c : Nat} (irq : Bool) (hl : u.live (80 + pm) = true) (ho : o = pmReg pm (0x700 + 0x20 * k))
  (hc : c = u.fld o 0 20) (hb : u.slotBusy (o + 0x14) = false) (ht : u.ctxInTable c = true) (hg : (u.rd (o + 4)).toNat = (u.ctx c).gen)
include hl ho hc hb ht hg

theorem State.fltGo_of_entry {e : FltEntry} {op : Nat} (hop : u.fltOp pm k = (op, false)) (h2 : op < 2)
    (he : u.tagged c (u.rd (o + 8)).toNat = some e) :
    u.fltGo pm k irq = ((u.setFld (o + 0x10) 1 1 (b2n irq)).endEntry e (if op = 0 then none else some 5)).slotDone (o + 0x14) 0 0
      (if irq then some (0xCB0 + 4 * pm + k) else none) := by
  subst ho
  obtain ⟨hop0, hall⟩ := Prod.mk.inj hop
  have hop0 : u.fld (pmReg pm (0x700 + 0x20 * k) + 0xC) 0 2 = op := hop0
  have hall : u.bit (pmReg pm (0x700 + 0x20 * k) + 0xC) 2 = false := hall
  unfold State.fltGo
  simp only [hl, hb, ← hc, hop0, hall, Bool.not_true, Bool.false_eq_true, if_false]
  obtain ⟨t, htd⟩ := exists_eq (a' := u.setFld (pmReg pm (0x700 + 0x20 * k) + 0x10) 1 1 (b2n irq))
  have ht : t.ctxInTable c = true := htd ▸ ht
  have he : t.tagged c (u.rd (pmReg pm (0x700 + 0x20 * k) + 8)).toNat = some e := htd ▸ he
  have hg : (u.rd (pmReg pm (0x700 + 0x20 * k) + 4)).toNat = (t.ctx c).gen := htd ▸ hg
  simp [← htd, ht, he, hg, show op ≠ 2 by omega, show op ≠ 3 by omega]

theorem State.fltGo_of_all (hop : u.fltOp pm k = (1, true)) :
    u.fltGo pm k irq = ((u.flt.entries.filter fun f => f.ctx = c && !f.host).foldl (fun s f => s.endEntry f (some 5))
      (u.setFld (o + 0x10) 1 1 (b2n irq))).slotDone (o + 0x14) 0 0 (if irq then some (0xCB0 + 4 * pm + k) else none) := by
  subst ho
  obtain ⟨hop0, hall⟩ := Prod.mk.inj hop
  have hop0 : u.fld (pmReg pm (0x700 + 0x20 * k) + 0xC) 0 2 = 1 := hop0
  have hall : u.bit (pmReg pm (0x700 + 0x20 * k) + 0xC) 2 = true := hall
  have hflt : (u.setFld (pmReg pm (0x700 + 0x20 * k) + 0x10) 1 1 (b2n irq)).flt = u.flt := rfl
  unfold State.fltGo
  simp only [hl, hb, ← hc, hop0, hall, Bool.not_true, Bool.false_eq_true, if_false, ← hflt]
  obtain ⟨t, htd⟩ := exists_eq (a' := u.setFld (pmReg pm (0x700 + 0x20 * k) + 0x10) 1 1 (b2n irq))
  have ht : t.ctxInTable c = true := htd ▸ ht
  have hg : (u.rd (pmReg pm (0x700 + 0x20 * k) + 4)).toNat = (t.ctx c).gen := htd ▸ hg
  simp [← htd, ht, hg]

theorem State.fltGo_of_resume (hop : u.fltOp pm k = (2, false)) (hs : (u.ctx c).state = 2) (hr : u.ringBusy c = false) :
    u.fltGo pm k irq = (((u.setFld (o + 0x10) 1 1 (b2n irq)).ctxQueues c).foldl (fun s q => s.unpauseQue q 0)
      ((u.setFld (o + 0x10) 1 1 (b2n irq)).setCtx c { u.ctx c with state := 1 })).slotDone (o + 0x14) 0 0
        (if irq then some (0xCB0 + 4 * pm + k) else none) := by
  subst ho
  obtain ⟨hop0, hall⟩ := Prod.mk.inj hop
  have hop0 : u.fld (pmReg pm (0x700 + 0x20 * k) + 0xC) 0 2 = 2 := hop0
  have hall : u.bit (pmReg pm (0x700 + 0x20 * k) + 0xC) 2 = false := hall
  have hctx : u.ctx c = (u.setFld (pmReg pm (0x700 + 0x20 * k) + 0x10) 1 1 (b2n irq)).ctx c := rfl
  unfold State.fltGo
  simp only [hl, hb, ← hc, hop0, hall, Bool.not_true, Bool.false_eq_true, if_false, hctx]
  obtain ⟨t, htd⟩ := exists_eq (a' := u.setFld (pmReg pm (0x700 + 0x20 * k) + 0x10) 1 1 (b2n irq))
  have ht : t.ctxInTable c = true := htd ▸ ht
  have hr : t.ringBusy c = false := htd ▸ hr
  have hs : (t.ctx c).state = 2 := htd ▸ hs
  have hg : (u.rd (pmReg pm (0x700 + 0x20 * k) + 4)).toNat = (t.ctx c).gen := htd ▸ hg
  simp [← htd, ht, hg, hs, hr]

end

/-- Settles O44. -/
theorem faultsAndPageRequests : Obligations.FaultsAndPageRequests := by
  refine ⟨fun s ix pasid e h he hp hc => ⟨?_, ?_, ?_⟩, fun s ix pasid code h he => ?_, fun s h => ⟨?_, ?_⟩,
    fun s u pm k o c irq e h hpm hk hl hu hfl ho hc hb ht hg => ⟨fun he => ⟨fun hop => ?_, fun hop => ?_⟩, fun hop => ?_,
      fun hop hs hr => ?_⟩,
    fun s pm n e h he h0 ht hp => ?_, fun s c hd h hc => ?_, fun s n t a h ha ht hp hl hs => ?_⟩
  · exact givesSettled_of _ h rfl (by simp only [State.prgResponse, he, hp, hc]; simp)
  · exact givesSettled_of _ h rfl (by simp only [State.prgResponse, he, hp, hc]; simp)
  · exact givesSettled_of _ h rfl (by simp only [State.prgResponse, he, hp, hc]; simp)
  · exact givesSettled_of _ h rfl (by simp [State.prgResponse, he])
  · exact givesSettled_of _ h rfl rfl
  · exact givesSettled_of _ h rfl rfl
  · exact givesSettled_of _ h rfl
      (by simp [hpm, hk, hop, ← hu, State.fltGo_of_entry irq hl ho hc hb ht hg (hfl.trans hop) (by decide) he])
  · exact givesSettled_of _ h rfl
      (by simp [hpm, hk, hop, ← hu, State.fltGo_of_entry irq hl ho hc hb ht hg (hfl.trans hop) (by decide) he])
  · exact givesSettled_of _ h rfl (by simp [hpm, hk, hop, ← hu, State.fltGo_of_all irq hl ho hc hb ht hg (hfl.trans hop)])
  · exact givesSettled_of _ h rfl (by simp [hpm, hk, hop, ← hu, State.fltGo_of_resume irq hl ho hc hb ht hg (hfl.trans hop) hs hr])
  · refine givesSettled_of _ h rfl ?_
    have hun : (e.host && e.pri.isNone) = false := by
      cases hh : e.host with
      | false => rfl
      | true => simpa [Option.isSome_iff_ne_none] using hp hh
    simp [he, h0, Nat.not_lt.mpr ht, hun]
  · exact givesSettled_of _ h rfl (by simp [hc])
  · exact givesSettled_of _ h rfl (by simp [ha, ht, hp, Nat.not_lt.mpr hl, hs])

end Sys2Proof.Machine
end

section
/-! PROOF. Peer ports: Ixcia packets, the conduits' timers, windows and queue pairs, RoCEv2 (R372 to R397). -/

namespace Sys2Proof.Machine

section

variable {s m v t : State} {cn : Nat} {p : Packet} (hcn : cn < 16) (hup : s.portUp cn = true) (hf : p.frame = .good)
  (hm : m = s.inc (cnReg cn 0x4030) p.fixed) (hen : m.peerEn = true) (hver : p.version = 1)
  (hv : v = m.inc64sat (cnReg cn 0x4028) (m.wireBytes p)) (hdst : p.dstNode = v.nodeId) (hsrc : p.srcNode < 2 ^ 14)
  (hseal : p.sealOk = true) (hkey : p.secure = true → (v.keySlot p.partition p.srcNode).isSome = true)
  (hload : v.condLoad p.srcNode = (none, t))
include hcn hup hf hm hen hver hv hdst hsrc hseal hkey hload

/-- A good frame at an UP port that is whole, meant for this node and sealed well: what follows once its conduit is cached. -/
theorem State.ixGot_of_good (probe : Bool) (f : State → State) :
    s.ixGot cn p probe f =
      if probe then f t
      else if (t.conduit p.srcNode).inc ≠ some p.incarnation then t.inc (cnReg cn 0x404C)
      else
        let u := f (if (t.conduit p.srcNode).state = 2 then t.ackBelow p.srcNode p.ackPsn else t)
        u.pump p.srcNode (u.conduit p.srcNode).queue.length := by
  have hk : (!p.secure || (v.keySlot p.partition p.srcNode).isSome) = true := by
    cases hs : p.secure with
    | false => rfl
    | true => simpa using hkey hs
  have hmine : ¬ (p.version ≠ 1 ∨ p.dstNode ≠ v.nodeId ∨ 2 ^ 14 ≤ p.srcNode) := by
    simp [-Nat.reducePow, hver, hdst, Nat.not_le.mpr hsrc]
  simp only [State.ixGot, State.macGot, hcn, hup, hf, ← hm, hen, ← hv, hk, hseal, hload]
  simp [-Nat.reducePow, hver, hdst, Nat.not_le.mpr hsrc]

theorem State.ixGot_of_probe (f : State → State) : s.ixGot cn p true f = f t :=
  State.ixGot_of_good hcn hup hf hm hen hver hv hdst hsrc hseal hkey hload true f

theorem State.ixGot_of_known {u : State} (f : State → State)
    (hu : u = (if (t.conduit p.srcNode).state = 2 then t.ackBelow p.srcNode p.ackPsn else t))
    (hi : (t.conduit p.srcNode).inc = some p.incarnation) :
    s.ixGot cn p false f = (f u).pump p.srcNode ((f u).conduit p.srcNode).queue.length := by
  rw [State.ixGot_of_good hcn hup hf hm hen hver hv hdst hsrc hseal hkey hload false f, hu]
  exact (if_neg Bool.false_ne_true).trans (if_neg (not_not_intro hi))

theorem State.ixGot_of_otherIncarnation (f : State → State) (hi : (t.conduit p.srcNode).inc ≠ some p.incarnation) :
    s.ixGot cn p false f = t.inc (cnReg cn 0x404C) :=
  (State.ixGot_of_good hcn hup hf hm hen hver hv hdst hsrc hseal hkey hload false f).trans
    ((if_neg Bool.false_ne_true).trans (if_pos hi))

end

/-- Settles O45. -/
theorem peerPacketsAndTimers : Obligations.PeerPacketsAndTimers := by
  refine ⟨fun s w cn p h hcn hw hup => ⟨fun hf => ?_, fun hf => ?_, fun hf hen => ?_⟩,
    fun s w m v t u cn p h hcn hw hup hf hm hen hver hv hdst hsrc hseal hkey hload hu =>
      ⟨fun hi => ?_, fun hi => ?_, ?_, fun h1 => ?_⟩,
    fun s r cn ty psn p h hf hr => ?_, fun s n a h ha hr => ?_,
    fun s r h h1 ht => ⟨fun hn => ?_, fun hn => ?_⟩, fun s r psn u h hu h2 hs ht => ?_, fun s r l m h he => ?_,
    fun s r h ho ht => ?_, fun s a q h hq ht => ?_⟩
  · exact givesSettled_of _ h rfl (by simp [State.ixGot, State.macGot, hw, hcn, hup, hf])
  · exact givesSettled_of _ h rfl (by simp [State.ixGot, State.macGot, hw, hcn, hup, hf])
  · exact givesSettled_of _ h rfl (by simp [State.ixGot, State.macGot, hw, hcn, hup, hf, hen])
  · have hknown := fun f => State.ixGot_of_known hcn hup hf hm hen hver hv hdst hsrc hseal hkey hload f hu hi
    refine ⟨?_, ?_, ?_, ?_, ?_, fun h2 => ?_⟩
    · exact givesSettled_of _ h rfl (by rw [hw, hknown])
    · exact givesSettled_of _ h rfl (by rw [hw, hknown])
    · exact givesSettled_of _ h rfl (by rw [hw, hknown])
    · exact givesSettled_of _ h rfl (by rw [hw, hknown])
    · exact givesSettled_of _ h rfl (by rw [hw, hknown])
    · exact givesSettled_of _ h rfl (by rw [hw, hknown, if_pos h2])
  · exact givesSettled_of _ h rfl (by
      rw [hw, State.ixGot_of_otherIncarnation hcn hup hf hm hen hver hv hdst hsrc hseal hkey hload _ hi])
  · exact givesSettled_of _ h rfl (by
      rw [hw, State.ixGot_of_probe hcn hup hf hm hen hver hv hdst hsrc hseal hkey hload])
  · exact givesSettled_of _ h rfl (by
      rw [hw, State.ixGot_of_probe hcn hup hf hm hen hver hv hdst hsrc hseal hkey hload]
      exact if_neg (not_not_intro h1))
  · exact givesSettled_of _ h rfl (by simp [hf, hr])
  · exact givesSettled_of _ h rfl (by simp [ha, hr])
  · exact givesSettled_of _ h rfl (by simp [h1, Nat.not_lt.mpr ht, hn])
  · exact givesSettled_of _ h rfl (by simp [h1, Nat.not_lt.mpr ht, Nat.not_le.mpr hn])
  · exact givesSettled_of _ h rfl (by simp [hu, h2, hs, Nat.not_lt.mpr ht])
  · exact givesSettled_of _ h rfl (by simp [he])
  · exact givesSettled_of _ h rfl (by simp [ho, Nat.not_lt.mpr ht])
  · exact givesSettled_of _ h rfl (by simp [hq, Nat.not_lt.mpr ht])

/-- No field of an object slot's OPTIONS word lies in a partition's register block. -/
theorem State.bit_part_setOptions (s : State) (cn p lo w x b : Nat) :
    (s.setFld (cnReg cn 0x4108) lo w x).bit (partReg p 0) b = s.bit (partReg p 0) b := by
  have hne : partReg p 0 ≠ cnReg cn 0x4108 := by
    simp only [partReg, cnReg, pageOf]
    omega
  simp only [State.bit, State.rd_setFld, if_neg hne]

theorem State.live_setOptions (s : State) (cn lo w x n : Nat) : (s.setFld (cnReg cn 0x4108) lo w x).live n = s.live n := by
  have hne : pageOf n ≠ cnReg cn 0x4108 := by
    simp only [cnReg, pageOf]
    omega
  simp only [State.live, State.present, State.lame, State.inReset, State.bit, State.rd_setFld, if_neg hne]

theorem State.ctx_setFld (s : State) (off lo w x c : Nat) : (s.setFld off lo w x).ctx c = s.ctx c := rfl

theorem State.ctxInTable_setFld (s : State) (off lo w x c : Nat) : (s.setFld off lo w x).ctxInTable c = s.ctxInTable c := rfl

theorem State.cn_lt_of_objSlot {s : State} {cn : Nat} (h : s.objSlot cn = true) : cn < 16 :=
  of_decide_eq_true (Bool.and_eq_true_iff.mp h).1

section

variable {s v : State} {cn id : Nat} (irq : Bool) {b : Bytes} (hcn : cn < 16) (hb : s.slotBusy (cnReg cn 0x410C) = false)
  (hid : id = s.fld (cnReg cn 0x4100) 0 12) (he : b = s.objEntry cn)
include hcn hb hid he

theorem State.objGo_winSet (hop : s.fld (cnReg cn 0x4104) 0 2 = 0) (hw : winShape b = true)
    (ht : s.ctxInTable (winOf b).ctx = true) (hc : ∀ e ∈ s.peer.wins, e.1 ≠ id → e.2.clash (winOf b) = false)
    (hp : s.bit (partReg (s.ctx (winOf b).ctx).part 0) 3 = true) (hg : (winOf b).gen = (s.ctx (winOf b).ctx).gen)
    (hs : (s.ctx (winOf b).ctx).state = 1) (hf : sFind s.peer.wins id = none)
    (hv : (s.setFld (cnReg cn 0x4108) 1 1 (b2n irq)).tableWrite cn (id * 64) (winEntry b true) = (0, v)) :
    s.objGo cn 0 irq = ({ v with peer := { v.peer with wins := sIns v.peer.wins id (winOf b) } } : State).slotDone
      (cnReg cn 0x410C) 0 0 (if irq then some (0xCD0 + cn) else none) := by
  have hc' : (s.peer.wins.any fun e => e.1 ≠ id && e.2.clash (winOf b)) = false := List.any_eq_false.mpr (by simpa using hc)
  unfold State.objGo
  simp only [hcn, hop, hb, ← hid, ← he, State.ctx_setFld, State.ctxInTable_setFld, State.setFld_peer, State.bit_part_setOptions,
    hw, ht, hc', hp, hg, hs, hf, hv]
  simp

theorem State.objGo_winClear (hop : s.fld (cnReg cn 0x4104) 0 2 = 1)
    (hv : (if (sFind s.peer.wins id).isSome then
      (s.setFld (cnReg cn 0x4108) 1 1 (b2n irq)).tableWrite cn (id * 64 + 24) (((winEntry b false).drop 24).take 2)
      else (0, s.setFld (cnReg cn 0x4108) 1 1 (b2n irq))) = (0, v)) :
    s.objGo cn 1 irq = { v.slotTake (cnReg cn 0x410C) with
      peer := { v.peer with wins := sDel v.peer.wins id, clears := (cn, id) :: v.peer.clears } } := by
  unfold State.objGo
  simp only [hcn, hop, hb, ← hid, ← he, State.setFld_peer, hv]
  simp

theorem State.objGo_qpSet (hop : s.fld (cnReg cn 0x4104) 0 2 = 2) (hq : qpShape b = true) (hl : s.live (84 + id % 16) = true)
    (hn : sFind s.peer.wins (fieldAt b 36 2) = none → fieldAt b 36 2 = 0xFFFF)
    (hw : ∀ w, sFind s.peer.wins (fieldAt b 36 2) = some w → s.bit (partReg (s.ctx w.ctx).part 0) 3 = true ∧
      w.gen = (s.ctx w.ctx).gen ∧ (s.ctx w.ctx).state = 1) (hf : sFind s.peer.qps id = none)
    (hv : (s.setFld (cnReg cn 0x4108) 1 1 (b2n irq)).tableWrite cn (0x40000 + id * 64) b = (0, v)) :
    s.objGo cn 2 irq = (v.setQp id { entry := b, epsn := fieldAt b 4 4 }).slotDone (cnReg cn 0x410C) 0 0
      (if irq then some (0xCD0 + cn) else none) := by
  unfold State.objGo
  simp only [hcn, hop, hb, ← hid, ← he, State.ctx_setFld, State.setFld_peer, State.bit_part_setOptions, State.live_setOptions, hq, hl,
    hf, hv]
  cases hs : sFind s.peer.wins (fieldAt b 36 2) with
  | none => simp [hn hs]
  | some w =>
    obtain ⟨h3, hg, h1⟩ := hw w hs
    simp [h3, hg, h1]

omit he in
theorem State.objGo_qpClear_of_none (hop : s.fld (cnReg cn 0x4104) 0 2 = 3) (hf : sFind s.peer.qps id = none) :
    s.objGo cn 3 irq = (s.setFld (cnReg cn 0x4108) 1 1 (b2n irq)).slotDone (cnReg cn 0x410C) 0 0
      (if irq then some (0xCD0 + cn) else none) := by
  unfold State.objGo
  simp only [hcn, hop, hb, ← hid, State.setFld_peer, hf]
  simp

omit he in
theorem State.objGo_qpClear_of_some {x : Qp} (hop : s.fld (cnReg cn 0x4104) 0 2 = 3) (hf : sFind s.peer.qps id = some x) :
    s.objGo cn 3 irq =
      let u := ((s.setFld (cnReg cn 0x4108) 1 1 (b2n irq)).slotTake (cnReg cn 0x410C)).setQp id { x with clearing := true }
      { u with peer := { u.peer with clears := (cn, 4096 + id) :: s.peer.clears } } := by
  unfold State.objGo
  simp only [hcn, hop, hb, ← hid, State.setFld_peer, hf]
  simp

end

/-- Settles O46. -/
theorem peerPortsAndObjects : Obligations.PeerPortsAndObjects := by
  refine ⟨fun s cn h hcn => ⟨fun remote h2 => ?_, fun hl h0 ho => ?_, fun mask hup => ⟨?_, ?_⟩⟩,
    fun s v cn id irq b h hs hb hid he =>
      ⟨fun hop hw ht hc hp hg h1 hf hv => ?_, fun hop hv => ?_, fun hop hq hl hn hw hf hv => ?_, fun hop hf => ?_, fun x hop hf => ?_⟩,
    fun s cn id h hc hi => ?_⟩
  · exact givesSettled_of _ h rfl (by simp [hcn, h2])
  · exact givesSettled_of _ h rfl (by simp [hcn, hl, h0, ho])
  · exact givesSettled_of _ h rfl (by simp [hcn, hup])
  · exact givesSettled_of _ h rfl (by simp [hcn, hup])
  · exact givesSettled_of _ h rfl ((if_pos hs).trans (State.objGo_winSet irq (State.cn_lt_of_objSlot hs) hb hid he hop hw ht hc hp hg h1 hf hv))
  · exact givesSettled_of _ h rfl ((if_pos hs).trans (State.objGo_winClear irq (State.cn_lt_of_objSlot hs) hb hid he hop hv))
  · exact givesSettled_of _ h rfl ((if_pos hs).trans (State.objGo_qpSet irq (State.cn_lt_of_objSlot hs) hb hid he hop hq hl hn hw hf hv))
  · exact givesSettled_of _ h rfl ((if_pos hs).trans (State.objGo_qpClear_of_none irq (State.cn_lt_of_objSlot hs) hb hid hop hf))
  · exact givesSettled_of _ h rfl ((if_pos hs).trans (State.objGo_qpClear_of_some irq (State.cn_lt_of_objSlot hs) hb hid hop hf))
  · refine givesSettled_of (fun s => s.objDone cn false) h rfl ?_
    have hbusy : (s.peer.inb.any fun i => i.win = id) = false :=
      List.any_eq_false.mpr (by simpa using hi)
    unfold State.objDone
    simp only [hc, Bool.false_eq_true, if_false, hbusy]

end Sys2Proof.Machine
end

section
/-! PROOF. RoCEv2 packets (R372, R393 to R396). -/

namespace Sys2Proof.Machine

theorem State.ctx_setQp (s : State) (q : Nat) (x : Qp) (c : Nat) : (s.setQp q x).ctx c = s.ctx c := rfl

theorem State.peer_inc64sat (s : State) (off n : Nat) : (s.inc64sat off n).peer = s.peer := rfl

theorem State.peer_roceIn (s : State) (p : RocePkt) (x : Qp) (n : Nat) : (s.roceIn p x n).peer = s.peer := by
  rw [State.roceIn, State.peer_inc64sat]

section

variable {s0 s : State} {p : RocePkt} {x : Qp} (hup : s0.portUp p.cn = true) (hcn : p.cn = p.qp % 16) (hpsn : p.psn < 2 ^ 24)
  (hf : p.frame = .good) (hs : s = s0.inc (cnReg p.cn 0x4030) p.fixed) (hen : s.peerEn = true) (hicrc : p.icrcOk = true)
  (hx : sFind s.peer.qps p.qp = some x) (hcl : x.clearing = false) (hip : p.ip = s.qpIp p.qp x) (hecn : p.ecn = false)
  (hsup : p.supported = true) (he : p.psn = x.epsn)
include hup hcn hpsn hf hs hen hicrc hx hcl hip hecn hsup he

theorem State.roceGot_of_expected (xh : Nat) (f : State → Qp → State) : s0.roceGot p xh f = f (s.roceIn p x xh) x := by
  have hlt : p.cn < 16 := by omega
  have hd : (p.psn + 2 ^ 24 - x.epsn) % 2 ^ 24 = 0 := by omega
  have hbad : (x.clearing || p.cn ≠ p.qp % 16 || p.ip ≠ s.qpIp p.qp x : Bool) = false := by
    simp [hcl, ← hcn, hip]
  have hrange : (!(p.cn < 16 && s0.portUp p.cn) || 2 ^ 24 ≤ p.psn : Bool) = false := by
    simp [-Nat.reducePow, hlt, hup, Nat.not_le.mpr hpsn]
  simp only [State.roceGot, State.macGot, hrange, hf, ← hs, hen, hicrc, hx, hbad, hecn, hsup]
  simpa using fun h => absurd hd h

end

/-- Settles O47. -/
theorem rocePackets : Obligations.RocePackets := by
  refine fun s0 s p x k w h hup hcn hpsn hf hs hen hicrc hx hcl hip hecn hsup he =>
    ⟨fun n a togo key first t ht hn hfi ha htg hk hw hm hshape h0 => ?_, fun hw h0 => ?_,
      fun hw had hho hch hm hlen hpos hinb => ?_⟩
  · have hok : (n ≤ x.mtu && (if p.pos = .only || p.pos = .last then n = togo else n = x.mtu && n < togo) &&
        (first || togo ≠ 0) : Bool) = true := by simpa using ⟨⟨hm, hshape⟩, h0⟩
    have hva : (if first then p.va.toNat else a) = a := by
      cases first <;> simp_all
    have hrun : s0.rdmaWrite p = _ :=
      State.roceGot_of_expected hup hcn hpsn hf hs hen hicrc hx hcl hip hecn hsup he (if p.pos = .first || p.pos = .only then 16 else 0) _
    simp only [← hfi, ← hn, ← ha, ← htg, ← hk, ← ht, hva, hw, hok] at hrun
    refine ⟨fun hz => ?_, fun hz => ?_⟩
    · exact givesSettled_of (fun s => s.rdmaWrite p) h rfl (hrun.trans (by simp only [if_pos hz]; rfl))
    · exact givesSettled_of (fun s => s.rdmaWrite p) h rfl (hrun.trans (by simp only [if_neg hz]; rfl))
  · refine givesSettled_of (fun s => s.rdmaRead p) h rfl ?_
    rw [State.rdmaRead, State.roceGot_of_expected hup hcn hpsn hf hs hen hicrc hx hcl hip hecn hsup he]
    simp only [hw, if_neg h0, State.ctx_setQp]
  · have hst : (if w.admits true p.qp && w.holds (slotVa x w x.delivered) 4096 then
        (s.roceIn p x 0).winCheck w (w.rights.testBit 1) none else 4) = 0 := by simp [had, hho, hch]
    have hshape : ¬ ((x.mtu < p.payload.length || 4088 < x.inMsg + p.payload.length ||
        (p.pos = .first || p.pos = .only) ≠ (x.inMsg = 0 : Bool) : Bool) = true) := by
      simp [Nat.not_lt.mpr hm, Nat.not_lt.mpr hlen, ← hpos]
    have hbusy : (s.peer.inb.any fun i => i.roce && i.node = p.qp && (i.kind = .sendCheck || i.kind = .sendData && i.last)) = false :=
      List.any_eq_false.mpr fun i hi => by
        cases hr : i.roce with
        | false => simp
        | true =>
          by_cases hnode : i.node = p.qp
          · obtain ⟨h1, h2⟩ := hinb i hi hr hnode
            simpa [h1, hnode] using h2
          · simp [hnode]
    have hrun : s0.roceSend p = _ := State.roceGot_of_expected hup hcn hpsn hf hs hen hicrc hx hcl hip hecn hsup he 0 _
    simp only [State.peer_roceIn, hw, hst, hshape, hbusy, State.ctx_setQp] at hrun
    refine ⟨fun hz => ?_, fun hz => ?_⟩
    · have hfirst : (p.pos = .first || p.pos = .only : Bool) = true := by simpa using hpos.mpr hz
      exact givesSettled_of (fun s => s.roceSend p) h rfl (hrun.trans (by simp only [hfirst]; rfl))
    · have hfirst : (p.pos = .first || p.pos = .only : Bool) = false := by simpa using fun h => hz (hpos.mp h)
      exact givesSettled_of (fun s => s.roceSend p) h rfl (hrun.trans (by simp only [hfirst]; rfl))

end Sys2Proof.Machine
end

section
/-! PROOF. The residency work and the lines that the host snoops (R242 to R254, R315). -/

namespace Sys2Proof.Machine

/-- A READY block that records corrected errors, its error queue enabled at host address 0 and one bit of that very line's state in
pommel 0 upset. -/
def upsetWindowLine : State :=
  let s := (({ State.reset with power := .up } : State).wr 0x08 2).wr (pageOf 80) 0x1000
  let s := (s.setFld (pmReg 0 0x3080) 0 2 2).setPort 0 { s.port 0 with streams := true }
  let s := (s.setBit 0x0C 0 true).setBit 0x108 1 true
  { s with odv := sPut 0 s.odv (0x7000 * 256 + 1) 1, rcv := { s.rcv with upsets := [(.windowLine 0 0, 1)] } }

/-- The first byte of each line that a command answers to the host's snoops. -/
def snoopedBytes (o : Out) : List Byte :=
  match o with
  | .next s => s.out.filterMap fun m => match m with
    | .snoopRsp _ _ b => b.head?
    | _ => none
  | _ => []

/-- Refutes O48: the clause on snoops reads the line after the store's upset word is met, but the line is read before; the record of
that upset goes to the error queue, which may lie in the very line. -/
theorem not_residency : ¬ Obligations.Residency := by
  intro h
  obtain ⟨-, -, -, -, -, hsnoop⟩ := h
  have hgive := (hsnoop upsetWindowLine 0 0 rfl (by decide) (by decide +kernel) (by decide +kernel) (by decide +kernel)).1
  exact absurd (congrArg snoopedBytes hgive) (by decide +kernel)

/-- Settles O49. -/
theorem tenureAndReattach : Obligations.TenureAndReattach := by
  refine ⟨fun s seq h h0 h1 => ?_, fun s h h1 ht => ⟨fun h3 => ?_, fun h3 hf => ?_⟩, fun s v h hp => ?_,
    fun s v h hp hm hd => ⟨fun h0 hv => ?_, fun hv => ?_⟩, fun s h hp hd hq => ?_⟩
  · exact givesSettled_of _ h rfl (if_pos h1)
  · exact givesSettled_of State.hbCheck h rfl (by simp [State.hbCheck, h1, Nat.not_lt.mpr ht, h3])
  · exact givesSettled_of State.hbCheck h rfl (by simp [State.hbCheck, h1, Nat.not_lt.mpr ht, h3, hf])
  · exact givesSettled_of (fun s => s.tokenWrite 8 v) h rfl (by simp [State.tokenWrite, hp])
  · exact givesSettled_of (fun s => s.present8 8 v) h rfl (by simp [State.present8, hp, hm, hd, State.judgeToken, h0, hv])
  · refine givesSettled_of (fun s => s.present8 8 v) h rfl ?_
    have hno : (s.orph.token ≠ 0 && v.toNat = s.orph.token : Bool) = false := by
      rcases hv with hv | hv <;> simp [hv]
    simp only [State.present8, hp, hm, hd, State.judgeToken, hno]
    simp
  · refine givesSettled_of _ h rfl ?_
    have hany : (s.qs.recs.any fun e => !e.2.fly.isEmpty) = false :=
      List.any_eq_false.mpr fun e he => by simp [hq e he]
    simp only [hp, hd, hany]
    rfl

/-- Settles O50. -/
theorem restAndResume : Obligations.RestAndResume := by
  refine ⟨fun s c h hr hn hc hg hs => ?_, fun s c t h ht => ⟨fun hi hd => ?_, fun hl => ?_⟩,
    fun s w u c st t h ht hw hput => ?_,
    fun s c h hr hc ho => ⟨fun hg hs ha => ?_, fun hg hs ha => ?_, fun hg hs => ?_, fun hg hs => ?_, fun hg hs h4 => ?_⟩⟩
  · refine givesSettled_of _ h rfl ?_
    have hst : ((s.ctx c).state ≠ 1 && (s.ctx c).state ≠ 2 : Bool) = false := by
      rcases hs with hs | hs <;> simp [hs]
    simp only [hr, hn, ← hc, hg, hst]
    simp
  · refine givesSettled_of _ h rfl ?_
    have hany : (s.dma.chans.any fun e => e.2.ctx = c) = false := List.any_eq_false.mpr (by simpa using hd)
    simp only [ht, hi, hany]
    rfl
  · exact givesSettled_of _ h rfl (by simp [ht, Nat.not_lt.mpr hl])
  · refine givesSettled_of _ h rfl ?_
    simp only [ht, ← hw, hput]
  · have hgen : s.restGen 6 c = (s.ctx c).gen := if_neg (by simp [hs])
    exact givesSettled_of _ h rfl (by simp [-Nat.reducePow, hr, ← hc, ho, hgen, hg, hs, ha])
  · have hgen : s.restGen 6 c = (s.ctx c).gen := if_neg (by simp [hs])
    exact givesSettled_of _ h rfl (by simp [-Nat.reducePow, hr, ← hc, ho, hgen, hg, hs, ha])
  · have hgen : s.restGen 6 c = 0 := if_pos ⟨rfl, hs⟩
    exact givesSettled_of _ h rfl (by simp [-Nat.reducePow, hr, ← hc, ho, hgen, hg, hs])
  · have hgen : s.restGen 6 c = (s.ctx c).gen := if_neg (by simp [hs])
    exact givesSettled_of _ h rfl (by simp [-Nat.reducePow, hr, ← hc, ho, hgen, hg])
  · have hgen : s.restGen 6 c = (s.ctx c).gen := if_neg (by simp [hs])
    exact givesSettled_of _ h rfl (by simp [-Nat.reducePow, hr, ← hc, ho, hgen, hg, hs, h4])

end Sys2Proof.Machine
end

section
/-! PROOF. Leases, heartbeats, unit resets, rolls, storage and interface states (R354, R355, R413 to R442). -/

namespace Sys2Proof.Machine

theorem State.headWrite_of_le {s : State} {o p : Nat} {v : W32} (cnt : Nat) (hp : o + 4 = p) (hv : (v - s.rd o).toNat < 2 ^ 31)
    (hle : (v - s.rd o).toNat ≤ (s.rd p - s.rd o).toNat) : s.headWrite o v cnt = (s.wr o v, true) := by
  subst hp
  exact (if_neg (Nat.not_le.mpr hv)).trans (if_neg (Nat.not_lt.mpr hle))

theorem State.headWrite_of_lt {s : State} {o p : Nat} {v : W32} (cnt : Nat) (hp : o + 4 = p) (hv : (v - s.rd o).toNat < 2 ^ 31)
    (hlt : (s.rd p - s.rd o).toNat < (v - s.rd o).toNat) : s.headWrite o v cnt = (s.raise (o + 8) 1 cnt, false) := by
  subst hp
  exact (if_neg (Nat.not_le.mpr hv)).trans (if_pos hlt)

/-- Settles O51. -/
theorem leasesAndHeartbeats : Obligations.LeasesAndHeartbeats := by
  refine ⟨fun s v h hv => ⟨fun hle => ?_, fun hlt => ?_⟩, fun s t kind res l h ht hl hla => ?_, fun s k h hk => ⟨?_, ?_⟩,
    fun s k key l hl he hs h3 hf => ?_, fun s res h => ⟨fun hm => ⟨?_, ?_⟩, fun hm => ?_⟩,
    fun s f gs h ho hf hc ht => ⟨?_, fun g hg hi => ?_⟩⟩
  · exact givesSettled_of (fun s => s.errqHead v) h rfl (by simp [State.errqHead, State.headWrite_of_le 0x11C (by decide) hv hle])
  · exact givesSettled_of (fun s => s.errqHead v) h rfl (by simp [State.errqHead, State.headWrite_of_lt 0x11C (by decide) hv hlt])
  · exact givesSettled_of _ h rfl (by simp only [← ht, hl, hla]; rfl)
  · exact givesSettled_of _ h rfl ((if_neg (by omega)).trans (if_neg (by omega)))
  · exact givesSettled_of _ h rfl rfl
  · simp [State.leaseExpired, hl, Nat.not_lt.mpr he, hs, h3, hf]
  · exact givesSettled_of (fun s => s.selfChecked 1 res true) h rfl (by simp [State.selfChecked, hm])
  · exact givesSettled_of (fun s => s.selfChecked 1 res false) h rfl (by simp [State.selfChecked, hm])
  · exact givesSettled_of (fun s => s.selfChecked 2 res true) h rfl (by simp [State.selfChecked, hm])
  · refine givesSettled_of _ h rfl ?_
    simp [ho, hf, hc, ht]
  · exact if_neg (by simp [hi, Nat.not_le.mpr hg])

/-- Settles O52. -/
theorem unitResets : Obligations.UnitResets := by
  refine ⟨fun s n c h => ⟨fun ha hp hl hc => ?_, fun ha hp hl => ?_, fun ha ht => ?_, fun ha ht => ?_, fun hr hb => ?_⟩,
    fun s u c ok h hp => ⟨fun hr hok => ?_, fun hr hok => ?_, fun hr hc hi => ?_, fun hr hc => ?_, fun hr hd => ?_, fun hr => ?_,
      fun hr => ?_⟩⟩
  · exact givesSettled_of _ h rfl (by simp [ha, hp, hl, hc])
  · exact givesSettled_of _ h rfl (by simp [ha, hp, hl])
  · refine givesSettled_of _ h rfl ?_
    have hlock : ¬ (s.tdi n = 1 ∨ s.tdi n = 2) := by omega
    simp [ha, hlock]
  · exact givesSettled_of _ h rfl (by simp [ha, ht])
  · exact gives_of _ h rfl (by simp [hr, hb])
  · exact givesSettled_of _ h rfl (by simp [hp, hr, State.resetPerform, hok, State.resetEnd])
  · exact givesSettled_of _ h rfl (by simp [hp, hr, State.resetPerform, hok, State.resetEnd])
  · exact givesSettled_of _ h rfl (by simp [hp, hr, State.resetPerform, hc, hi])
  · simp [State.checkEnds, hr, hc, State.resetEnd]
  · exact givesSettled_of _ h rfl (by simp [hp, hr, State.resetPerform, hd, State.resetEnd])
  · exact givesSettled_of _ h rfl (by simp [hp, hr])
  · exact givesSettled_of _ h rfl (by simp [hp, hr])

theorem givesSettled_storageUpset_word {w : StoreWord} (bits : Nat) {s : State} (h : s.power = .up) (hw : ∀ a, w ≠ .lineBuffer a) :
    GivesSettled (.storageUpset (.word w bits)) s
      { s with rcv := { s.rcv with upsets := s.rcv.upsets.filter (fun u => u.1 ≠ w) ++
        [(w, (s.rcv.upsets.find? fun u => u.1 = w).elim 0 (·.2) + bits)] } } := by
  refine givesSettled_of _ h rfl ?_
  cases w with
  | lineBuffer a => exact absurd rfl (hw a)
  | _ => rfl

/-- Settles O53. -/
theorem rollsAndStorage : Obligations.RollsAndStorage := by
  refine ⟨fun s h hr ha => ?_, fun s st t h ht => ⟨fun hi => ?_, fun hl => ?_⟩,
    fun s w n bits h => ⟨fun h2 hu => ?_, fun hw hu => ?_, fun hw hu => ?_⟩⟩
  · exact givesSettled_of _ h rfl (by simp [hr, ha])
  · exact givesSettled_of _ h rfl (by simp [ht, hi])
  · exact givesSettled_of _ h rfl (by simp [ht, Nat.not_lt.mpr hl])
  · exact givesSettled_of _ h rfl (by simp [h2, hu])
  · simpa [hu] using givesSettled_storageUpset_word bits h hw
  · simpa [hu] using givesSettled_storageUpset_word bits h hw

/-- Settles O54. -/
theorem interfaceStates : Obligations.InterfaceStates := by
  refine fun s vf h h1 h64 => ?_
  have hvf : ¬ ((!(1 ≤ vf && vf ≤ 64) : Bool) = true) := by simp [h1, h64]
  refine ⟨fun ht hc hp hi => ?_, fun ht => ?_, fun ht => ?_, fun ht => ?_, ?_⟩
  · exact givesSettled_of _ h rfl ((if_neg hvf).trans (by simp [ht, hc, hp, hi, State.draw]))
  · exact givesSettled_of _ h rfl ((if_neg hvf).trans (if_neg (not_not_intro ht)))
  · exact givesSettled_of _ h rfl ((if_neg hvf).trans (if_neg ht))
  · exact givesSettled_of _ h rfl ((if_neg hvf).trans (if_pos ht))
  · exact givesSettled_of _ h rfl (if_neg hvf)

end Sys2Proof.Machine
end

section
/-! PROOF. The SPDM responder, peer keys, telemetry and Awl (R456 to R464, R519 to R525). -/

namespace Sys2Proof.Machine

theorem State.spdmAt_of_le {s : State} {n : Nat} (f : State → State) (h : n ≤ s.sec.spdm) : s.spdmAt n f = f s :=
  if_neg (Nat.not_lt.mpr h)

theorem State.inSession_of_secured {s : State} {sid : Nat} {x : Session} (f : Session → State → State) (hx : s.session sid = some x)
    (hs : x.secured = true) : s.inSession sid f = f x s := by
  simp [State.inSession, hx, hs]

theorem State.onBound_of_bound {s : State} {sid p : Nat} {x : Session} (f : Nat → State → State) (hx : s.session sid = some x)
    (hs : x.secured = true) (hb : x.bound = some p) : s.onBound sid f = f p s := by
  rw [State.onBound, State.inSession_of_secured _ hx hs, hb]

/-- Settles O55. -/
theorem spdmResponder : Obligations.SpdmResponder := by
  refine ⟨fun s h => ⟨?_, fun h1 => ?_, fun v h2 hv => ?_⟩,
    fun s h h3 => ⟨?_, fun o n ho => ?_, fun nonce => ?_, fun i nonce h1 h7 => ?_, fun share hl => ?_⟩,
    fun s sid x h hx => ⟨fun hs => ?_, fun hs => ⟨?_, ?_, ?_⟩⟩⟩
  · exact givesSettled_of _ h rfl rfl
  · exact givesSettled_of _ h rfl (State.spdmAt_of_le _ h1)
  · refine givesSettled_of _ h rfl ((State.spdmAt_of_le _ h2).trans ?_)
    rcases hv with rfl | rfl <;> rfl
  · exact givesSettled_of _ h rfl (State.spdmAt_of_le _ h3)
  · refine givesSettled_of _ h rfl ((State.spdmAt_of_le _ h3).trans ?_)
    have hbad : ((0 : Nat) ≠ 0 || (s.fuses.certChain.length ≤ o && o ≠ 0) : Bool) = false := by
      rcases ho with ho | ho
      · simp [Nat.not_le.mpr ho]
      · simp [ho]
    simp only [hbad]
    rfl
  · exact givesSettled_of _ h rfl ((State.spdmAt_of_le _ h3).trans (if_neg (not_not_intro rfl)))
  · refine givesSettled_of _ h rfl ((State.spdmAt_of_le _ h3).trans ?_)
    have h0 : i ≠ 0 := by omega
    have hff : i ≠ 0xFF := by omega
    simp [h7, h0, hff, State.draw]
  · refine givesSettled_of _ h rfl ((State.spdmAt_of_le _ h3).trans ?_)
    exact if_neg (Nat.not_le.mpr hl)
  · exact givesSettled_of _ h rfl (by simp [hx, hs])
  · exact givesSettled_of _ h rfl (State.inSession_of_secured _ hx hs)
  · exact givesSettled_of _ h rfl (State.inSession_of_secured _ hx hs)
  · exact givesSettled_of _ h rfl (State.inSession_of_secured _ hx hs)

/-- Settles O56. -/
theorem bindingAndPeerKeys : Obligations.BindingAndPeerKeys := by
  refine ⟨fun s sid p x h hx hs => ⟨fun hp hc hb => ?_, fun nonce hb => ?_, fun node rp k hb hn hr h1 hk hrp h2 => ?_,
      fun node rp k hb hn hr h1 hk hfree => ?_, fun k share hb hk hp => ?_⟩,
    fun s rid h => ⟨fun hrid => ?_, fun hrid => ?_⟩⟩
  · exact givesSettled_of _ h rfl ((State.inSession_of_secured _ hx hs).trans (by simp [Nat.not_le.mpr hp, hc, hb]))
  · exact givesSettled_of _ h rfl (State.onBound_of_bound _ hx hs hb)
  · refine givesSettled_of _ h rfl ((State.onBound_of_bound _ hx hs hb).trans ?_)
    have hbad : (2 ^ 14 ≤ node || 64 ≤ rp || node = s.odNum 0x6000 1 : Bool) = false := by
      simp [-Nat.reducePow, Nat.not_le.mpr hn, Nat.not_le.mpr hr, h1]
    simp only [hbad, hk, hrp, h2]
    simp
  · refine givesSettled_of _ h rfl ((State.onBound_of_bound _ hx hs hb).trans ?_)
    have hbad : (2 ^ 14 ≤ node || 64 ≤ rp || node = s.odNum 0x6000 1 : Bool) = false := by
      simp [-Nat.reducePow, Nat.not_le.mpr hn, Nat.not_le.mpr hr, h1]
    simp only [hbad, hk, hfree]
    rfl
  · have hslot (f : Nat → State → State) : s.onSlot sid k (s.keyGen k) f = f (s.keyState k) s :=
      (State.onBound_of_bound _ hx hs hb).trans (by simp [Nat.not_le.mpr hk, hp])
    refine ⟨fun h1 => ?_, fun h3 => ?_, fun h4 => ?_, fun h12 => ?_, fun h5 => ?_⟩
    · exact givesSettled_of _ h rfl ((hslot _).trans (if_pos h1))
    · exact givesSettled_of _ h rfl ((hslot _).trans (by simp [h3]))
    · exact givesSettled_of _ h rfl ((hslot _).trans (if_pos h4))
    · refine givesSettled_of _ h rfl ((hslot _).trans ?_)
      rcases h12 with h1 | h2
      · simp [h1]
      · simp [h2]
    · exact givesSettled_of _ h rfl ((hslot _).trans (by simp [h5]))
  · exact gives_of _ h rfl (by simp only [hrid])
  · refine gives_of _ h rfl ?_
    simp [hrid]

theorem State.odNum_odSet_self {i j : Nat} {r : OdRow} (h : odRow i j = some r) (s : State) (v : Nat) : (s.odSet i j v).odNum i j = v := by
  simp only [State.odNum, State.odSet, h]
  exact sGet_sPut_self _ _ _ _

/-- The estimate of the block's power is limited. -/
theorem State.estimate_power_le (s : State) (st mw : Nat) (temp : Int) (mv : Nat) :
    (s.estimate st mw temp mv).odNum 0xA000 2 ≤ 300000 := by
  obtain ⟨r, hr⟩ : ∃ r, odRow 0xA000 2 = some r := Option.isSome_iff_exists.mp (by decide)
  exact Nat.le_trans (Nat.le_of_eq (State.odNum_odSet_self hr _ _)) (Nat.min_le_right _ _)

/-- Settles O57. -/
theorem telemetry : Obligations.Telemetry := by
  refine ⟨fun s st h => ⟨fun h80 h100 hd => ?_, fun h100 hd => ?_, fun mw temp mv h100 hp hl => ⟨fun hd => ?_, ?_⟩⟩,
    fun s v h hv => ⟨fun hle hh => ?_, fun hle hh => ?_, fun hlt => ?_⟩⟩
  · exact givesSettled_of _ h rfl (by simp [Nat.not_lt.mpr h80, Nat.not_le.mpr h100, hd])
  · exact givesSettled_of _ h rfl (by simp [h100, hd])
  · exact givesSettled_of _ h rfl (by simp [h100, hp, hl, hd])
  · exact s.estimate_power_le st mw temp mv
  · exact givesSettled_of (fun s => s.traceHead v) h rfl
      (by simp [State.traceHead, State.headWrite_of_le 0x314 (by decide) hv hle, hh])
  · exact givesSettled_of (fun s => s.traceHead v) h rfl
      (by simp [State.traceHead, State.headWrite_of_le 0x314 (by decide) hv hle, hh])
  · exact givesSettled_of (fun s => s.traceHead v) h rfl
      (by simp [State.traceHead, State.headWrite_of_lt 0x314 (by decide) hv hlt])

section

variable {s m t : State} {r : AwlRoute} (hr : s.awlReach r = true) (ha : s.tel.awlRoute = some (awlMgmt r)) (hm : m = s.inc 0x384)
  (ht : t = { m with tel := { m.tel with awlLast := m.tk 80 } })
include hr ha hm ht

theorem State.awlDo_of_attached (addr : W32) (f : State → State × AwlAns) :
    s.awlDo r addr f = (f t).1.awlSay r (f t).2.status (f t).2.state addr (f t).2.data := by
  subst hm ht
  simp [State.awlDo, hr, ha]

end

theorem State.awlDo_of_detached {s : State} {r : AwlRoute} (hr : s.awlReach r = true) (ha : s.tel.awlRoute ≠ some (awlMgmt r))
    (addr : W32) (f : State → State × AwlAns) : s.awlDo r addr f = (s.inc 0x384).awlSay r 4 0 addr 0 := by
  simp [State.awlDo, hr, ha]
  rfl

theorem State.awlHalt_of_running {t : State} {st c : Nat} (hst : st < 100) (hc : c < 8) (hcore : t.awlCore st c = true)
    (hh : t.halted st c = false) (hto : (t.takeover st c).isSome = true) :
    let sups := t.supsAt fun x => x = (st, c)
    let u := ((t.moveDuties st c).leaseEnd 1 (st * 8 + c)).setBit (0x390 + st / 4 * 4) (st % 4 * 8 + c) true
    t.awlHalt st c = ((if sups = [] then u else u.handover sups).awlTouch st, {}) := by
  have hnone : (t.takeover st c).isNone = false := by simpa [Option.isSome_iff_ne_none] using hto
  simp [State.awlHalt, Nat.not_le.mpr hst, Nat.not_le.mpr hc, hcore, hh, hnone]

/-- Settles O58. -/
theorem awlPort : Obligations.AwlPort := by
  refine ⟨fun s t r h hr ht => ⟨fun ha => ?_, fun ha => ?_⟩, fun s m t r h hr ha hm ht => ?_, fun s h ha hi => ?_⟩
  · subst ht
    exact givesSettled_of _ h rfl (by simp [hr, ha])
  · subst ht
    exact givesSettled_of _ h rfl (State.awlDo_of_detached hr ha 0 _)
  · have hdo := State.awlDo_of_attached hr ha hm ht
    refine ⟨?_, fun st c hst hc hcore => ⟨fun hh hto => ?_, fun hh => ⟨?_, ?_, fun a v hok hsp hl => ?_, fun a hok hsp => ?_⟩⟩,
      fun st c a v hst hc hok hsp => ⟨?_, ?_⟩⟩
    · exact givesSettled_of _ h rfl (hdo 0 _)
    · exact givesSettled_of _ h rfl ((hdo 0 _).trans (by simp only [State.awlHalt_of_running hst hc hcore hh hto]))
    · exact givesSettled_of _ h rfl ((hdo 0 _).trans (by simp [Nat.not_le.mpr hst, Nat.not_le.mpr hc, hh]))
    · exact givesSettled_of _ h rfl ((hdo 0 _).trans (by simp [Nat.not_le.mpr hst, Nat.not_le.mpr hc, hcore, hh]))
    · exact givesSettled_of _ h rfl
        ((hdo a _).trans (by simp [Nat.not_le.mpr hst, Nat.not_le.mpr hc, hcore, hh, hok, hsp, hl]))
    · exact givesSettled_of _ h rfl
        ((hdo a _).trans (by simp [Nat.not_le.mpr hst, Nat.not_le.mpr hc, hcore, hh, hok, hsp, State.draw]))
    · exact givesSettled_of _ h rfl ((hdo a _).trans (by simp [Nat.not_le.mpr hst, Nat.not_le.mpr hc, hok, hsp]))
    · exact givesSettled_of _ h rfl ((hdo a _).trans (by simp [Nat.not_le.mpr hst, Nat.not_le.mpr hc, hok, hsp]))
  · have hn : s.tel.awlRoute.isNone = false := by simpa [Option.isSome_iff_ne_none] using ha
    exact givesSettled_of _ h rfl (by simp [hn, Nat.not_lt.mpr hi])

end Sys2Proof.Machine
end
